-- ==== Sys2Proof/Word.lean ====
section
/-! DEFINITION. The word types of the module's registers and structures (spec 00 R5, R10, R11). -/

namespace Sys2Proof

/-- A register, a packet word, a core's scalar register: 32 bits (R10, R222). -/
abbrev Word := BitVec 32

/-- One byte of a memory. -/
abbrev Byte := BitVec 8

/-- A 64-bit register or structure field (R11). -/
abbrev Dword := BitVec 64

/-- A vector register: 64 halfword lanes (R295). -/
abbrev Vec := BitVec 1024

/-- The halves of a 64-bit value, low half first (R11). -/
def dword (lo hi : Word) : Dword := hi ++ lo

/-- The low half of a 64-bit value (R11). -/
def lowHalf (d : Dword) : Word := d.setWidth 32

/-- The high half of a 64-bit value (R11). -/
def highHalf (d : Dword) : Word := (d >>> 32).setWidth 32

end Sys2Proof
end

