-- ==== Sys2Proof/Syntax.lean ====
section
/-! DEFINITION. The commands of the module: one constructor of `Instr` per row of the table of operations and events, with
the operands the model gives the row (the table gives none; log entry 1), and the decoded Fintoic instruction `CoreOp`. -/

namespace Sys2Proof

/-! ### Who accesses a register, and through which view (R635, R636, R640) -/

/-- The source of a register access: the PF's BAR0, a VF's BAR0, a doorbell page of BAR2, a core or a DMA channel through the
device aperture, or the steward. -/
inductive RegSrc where
  | pf
  | vf (f : Fin 32)
  | page (f : Fin 32) (slot : Fin 256)
  | core (c : Fin 18)
  | dma (n : Fin 128)
  | steward
deriving DecidableEq, Repr

/-- One register access: its source, its byte offset in that source's view, and whether it is one aligned 32-bit word (R10). -/
structure RegAccess where
  src : RegSrc
  off : Nat
  aligned : Bool
deriving DecidableEq, Repr

/-! ### Command packets (R58, R69) -/

/-- A command ring: the function ring of a function, or the ring of a context slot (R58). -/
inductive RingId where
  | fn (f : Fin 32)
  | ctx (n : Fin 256)
deriving DecidableEq, Repr

/-- A packet as the steward reads it from the ring: the header's fields and the body words from w4 on (R69). -/
structure Packet where
  opcode : BitVec 16
  slots : BitVec 4
  flags : BitVec 4
  rsv0 : BitVec 8
  seq : Word
  handle : Word
  word3 : Word
  body : List Word
deriving DecidableEq, Repr

/-! ### Fintoic instructions (R252 to R271) -/

/-- Where and how an instruction issues: the physical core, the guard predicate and its negation, the stop bit S, and whether
the encoding is a long one of two parcels (R252, R253). -/
structure At where
  core : Fin 18
  guard : Fin 8
  neg : Bool
  stop : Bool
  long : Bool
deriving DecidableEq, Repr

/-- The address of a load or store: PLAIN, POST and INDEXED of R271. -/
inductive AddrForm where
  | plain (g : Fin 16)
  | post (g : Fin 16) (m : Fin 8)
  | indexed (g : Fin 16) (m : Fin 8)
deriving DecidableEq, Repr

/-- The second operand of `adda` (R280). -/
inductive AddaForm where
  | imm (n : BitVec 10)
  | modifier (m : Fin 8)
deriving DecidableEq, Repr

/-- The operand source SRC of a dual fetch (R271). -/
inductive DualSrc where
  | xy | xp | py
deriving DecidableEq, Repr

/-- The operands of a dual-fetch signal instruction, format LD2 (R270): gx is g0 to g7, gy is g8 to g15, mx is m0 to m3, my
is m4 to m7. -/
structure Dual where
  acc : Fin 4
  gx : Fin 8
  gy : Fin 8
  mx : Fin 4
  my : Fin 4
  src : DualSrc
deriving DecidableEq, Repr

inductive AluOp where
  | add | sub | and | or | xor | shl | shr | shru | mul | min | max | adds | subs
deriving DecidableEq, Repr

inductive ImmOp where
  | addi | movi | andi | ori | xori
deriving DecidableEq, Repr

inductive ShiftOp where
  | shli | shri | shrui
deriving DecidableEq, Repr

inductive CmpOp where
  | eq | ne | lt | le | ltu | leu
deriving DecidableEq, Repr

inductive MemSize where
  | b | bu | h | hu | w
deriving DecidableEq, Repr

inductive MacOp where
  | mac | msu | mpy
deriving DecidableEq, Repr

/-- The lane operations of R298. -/
inductive VecOp where
  | addH | subH | addsH | subsH | mulH | minH | maxH | and | or | xor | addB | addsB
deriving DecidableEq, Repr

inductive VShiftOp where
  | shl | shr | shrr
deriving DecidableEq, Repr

inductive VCmpOp where
  | eq | lt | le
deriving DecidableEq, Repr

inductive RedOp where
  | sum | min | max | minidx | maxidx | searchMin | searchMax
deriving DecidableEq, Repr

inductive IndexOp where
  | gather | scatter | rmwAdd
deriving DecidableEq, Repr

/-- A decoded Fintoic instruction (R261, R264). Fields that an encoding can hold and the manual reserves are kept (the
selector of a loop register, the control register number, an odd register pair), because the core checks them (R265). -/
inductive CoreOp where
  | nop | halt
  | alu (op : AluOp) (d a b : Fin 32)
  | mov (d a : Fin 32)
  | imm (op : ImmOp) (d : Fin 32) (n : Word)
  | shift (op : ShiftOp) (d : Fin 32) (n : BitVec 5)
  | cmp (op : CmpOp) (pd : Fin 8) (a b : Fin 32)
  | cmpImm (lt : Bool) (pd : Fin 8) (a : Fin 32) (imm : BitVec 6)
  | pand (pd pa pb : Fin 8)
  | por (pd pa pb : Fin 8)
  | pnot (pd pa : Fin 8)
  | br (off : BitVec 16)
  | call (off : BitVec 16)
  | jr (a : Fin 32)
  | loop (l : Fin 2) (sc : Fin 32) (off : BitVec 8)
  | loopi (l : Fin 2) (n : BitVec 5) (off : BitVec 8)
  | lbrk (l : Fin 2)
  | movToLoop (sel : BitVec 3) (s : Fin 32)
  | movFromLoop (sel : BitVec 3) (s : Fin 32)
  | movcR (s c : Fin 32)
  | movcW (s c : Fin 32)
  | csync | pmsync | rti | rtt
  | brk (n : BitVec 6)
  | vgate
  | sint (n : BitVec 6)
  | ld (sz : MemSize) (s : Fin 32) (m : AddrForm)
  | st (sz : MemSize) (s : Fin 32) (m : AddrForm)
  | adda (g : Fin 16) (x : AddaForm)
  | movG (g : Fin 16) (s : Fin 32)
  | movS (s : Fin 32) (g : Fin 16)
  | movM (m : Fin 8) (s : Fin 32)
  | bqIssue (tag : Fin 16) (s1 s2 : Fin 32)
  | bqPoll (d : Fin 32) (tag : Fin 16)
  | bqWait (d : Fin 32) (tag : Fin 16)
  | bqStat (d : Fin 32) (tag : Fin 16)
  | synSig (sa sb : Fin 32)
  | synWait (sa sb : Fin 32)
  | synArm (sa sb : Fin 32)
  | dual (op : MacOp) (x : Dual)
  | macr (op : MacOp) (acc : Fin 4) (a b : Fin 32)
  | satA (d : Fin 32) (acc : Fin 4) (n : BitVec 5)
  | movA (acc : Fin 4) (a : Fin 32)
  | accAdd (sub : Bool) (an am : Fin 4)
  | shla (acc : Fin 4) (imm : BitVec 6)
  | clr (acc : Fin 4)
  | vop (op : VecOp) (d a b : Fin 32)
  | vopMasked (op : VecOp) (d b : Fin 32) (k : Fin 8) (z : Bool)
  | vmovMasked (d b : Fin 32) (k : Fin 8) (z : Bool)
  | vmov (d a : Fin 32)
  | vshift (op : VShiftOp) (d a : Fin 32) (n : BitVec 4)
  | vmac (op : MacOp) (w : Fin 4) (a b : Fin 32)
  | vclr (w : Fin 4)
  | vnarrow (d : Fin 32) (w : Fin 4) (n : BitVec 5)
  | vcmp (op : VCmpOp) (k : Fin 8) (a b : Fin 32)
  | kand (kd ka kb : Fin 8)
  | kor (kd ka kb : Fin 8)
  | knot (kd ka : Fin 8)
  | vbcast (d a : Fin 32)
  | vext (d a b : Fin 32)
  | vld (v : Fin 32) (m : AddrForm)
  | vst (v : Fin 32) (m : AddrForm)
  | index (op : IndexOp) (v vi : Fin 32) (g : Fin 16)
  | red (op : RedOp) (d a : Fin 32)
deriving DecidableEq, Repr

/-- One instruction of a bundle: its guard, its length and its operation; `upto` is how many elements of a multi-element
instruction take effect before an interrupt request stops it (64 or more: all of them; R242, R243). -/
structure Slot where
  guard : Fin 8
  neg : Bool
  long : Bool
  op : CoreOp
  upto : Nat
deriving DecidableEq, Repr

/-! ### Readings and messages from outside the block -/

/-- One completed 100 ns sample of the 24 meters (R201): the energy in nJ of each domain; for the running jobs (keyed by
slot × 64 + job) the lines their passes processed and the fabric requests they made; and the idle baseline of meter 23. -/
structure MeterReading where
  energy : List Nat
  lines : List (Nat × Nat)
  requests : List (Nat × Nat)
  baseline : Nat
deriving DecidableEq, Repr

/-- One sample of the 64 on-die sensors, the cold-plate sensor and the input voltage in mV (R217, R608). -/
structure SensorReading where
  sensors : List (BitVec 16)
  plate : BitVec 16
  supply : BitVec 16
deriving DecidableEq, Repr

/-- Why a host read fails, coded as R589. -/
inductive HostFail where
  | ur | ca | poisoned | timeout | notIssued
deriving DecidableEq, Repr

/-- One completion of a host read (R578). -/
inductive HostAnswer where
  | data (bytes : List Byte)
  | fail (kind : HostFail)
deriving DecidableEq, Repr

/-- The two window engines (R375). -/
inductive Engine where
  | hdg | prv
deriving DecidableEq, Repr

/-- Pixel formats a group master accepts (R516); `other` is every other format. -/
inductive PixFmt where
  | mono8 | mono10 | mono12 | mono16 | rgb8 | rgb10 | rgb12 | rgb16 | rgba8 | other
deriving DecidableEq, Repr

/-- A camera line as its last packet completes it: format, samples in channel order as received (each up to 16 bits), and
whether a packet failed its CRC (R516). -/
structure CamLine where
  fmt : PixFmt
  samples : List (BitVec 16)
  crcErr : Bool
deriving DecidableEq, Repr

/-- A CoaXPress packet that does not end a line (R509). -/
inductive CxpPacket where
  | otherStream | event | heartbeat | lineStart
deriving DecidableEq, Repr

/-- A camera's answer to discovery or to a control transaction (R510, R514). -/
inductive CamAnswer where
  | noCamera
  | discovered (atSpeed : Bool)
  | wait
  | ack (code : Byte) (value : Word)
deriving DecidableEq, Repr

/-- A received Ethernet frame (R535, R536). -/
inductive EthFrame where
  | arpRequest (target : Word) (sender : Word)
  | icmpEcho (target : Word) (sender : Word)
  | ptpAnnounce (clock : Dword) (best : Bool)
  | ptpOther
  | otherUdp
  | unsupported
deriving DecidableEq, Repr

/-- What a transceiver's identification declares (R617). -/
structure Transceiver where
  optical : Bool
  breakout : Bool
  milliwatts : Nat
  metres : Nat
deriving DecidableEq, Repr

/-- What training a Waimaco link learns from the partner (R544). -/
structure TrainInfo where
  partner : BitVec 14
  delay : Word
deriving DecidableEq, Repr

/-- TICK payload (R563). -/
structure TickPayload where
  fnum : BitVec 48
  commit : Bool
  abort : Bool
  realign : Bool
  fire : Dword
  swapt : BitVec 48
deriving DecidableEq, Repr

/-- JOIN payload (R563). OP: 1 REQUEST, 2 ACCEPT, 3 REFUSE. -/
structure JoinPayload where
  op : Byte
  reason : Byte
  joiner : BitVec 14
  fwMajor : BitVec 16
  fwMinor : BitVec 16
  leader : BitVec 14
  count : BitVec 16
  digest : List Word
deriving DecidableEq, Repr

/-- ROUTE payload (R563). -/
structure RoutePayload where
  origin : BitVec 14
  depth : Byte
  joined : Bool
  leaving : Bool
  plat : Word
  leader : BitVec 14
deriving DecidableEq, Repr

/-- SYNC_OP payload (R563). OP: 1 SIGNAL, 2 WAIT, 3 CANCEL, 4 SATISFIED, 5 ABANDONED, 6 TIMEOUT. -/
structure SyncPayload where
  op : Byte
  index : BitVec 14
  origin : BitVec 14
  target : BitVec 14
  value : Dword
  waitId : Word
  answer : Dword
deriving DecidableEq, Repr

/-- BEACON payload (R564). -/
structure BeaconPayload where
  member : BitVec 14
  fnum : BitVec 48
  state : Byte
  down : Bool
  unsync : Bool
  timef : Bool
  srclost : Bool
  armed : Bool
  ack : Bool
  ackAll : Bool
  subcnt : BitVec 16
  offset : BitVec 32
  active : Dword
  armedDigest : Dword
  armTarget : BitVec 48
  lowFnum : BitVec 48
  highFnum : BitVec 48
  maxOffset : BitVec 32
  lowMinor : BitVec 16
deriving DecidableEq, Repr

/-- What a link frame carries, by TYPE (R562, R563); `other` is a TYPE of 7 to 15. -/
inductive LinkPayload where
  | idle (time : Dword)
  | train
  | tick (t : TickPayload)
  | beacon (b : BeaconPayload)
  | join (j : JoinPayload)
  | route (r : RoutePayload)
  | syncOp (o : SyncPayload)
  | other
deriving DecidableEq, Repr

/-- A link frame (R545, R562): the header's fields, whether its CRC and its reserved bits are right, and the payload. -/
structure LinkFrame where
  nak : Bool
  seq : BitVec 12
  ack : BitVec 12
  ackv : Bool
  crvl : BitVec 3
  crcnt : BitVec 12
  crcOk : Bool
  rsvOk : Bool
  payload : LinkPayload
deriving DecidableEq, Repr

/-- A remote wait whose limit is reached: one held for another module, or one of this module's own (R559). -/
inductive WaitRef where
  | held (i : Nat)
  | outgoing (id : Nat)
deriving DecidableEq, Repr

/-- A PCIe configuration request that acts on the block (R571, R572, R579, R581, R585). -/
inductive ConfigReq where
  | read (f : Fin 32) (dw : BitVec 10)
  | busMaster (f : Fin 32) (on : Bool)
  | memSpace (f : Fin 32) (on : Bool)
  | d3hot (f : Fin 32) (on : Bool)
  | msixControl (f : Fin 32) (enable fmask : Bool)
  | vfEnable (on : Bool) (numVfs : BitVec 6)
  | initiateFlr (f : Fin 32)
deriving DecidableEq, Repr

/-- A BAR4 request (R575). -/
inductive Bar4Req where
  | read (off : Nat) (len : Nat)
  | write (off : Nat) (data : List Byte) (poisoned : Bool)
deriving DecidableEq, Repr

/-- Which mask is cleared, or MSI-X Enable set (R581). -/
inductive Unmask where
  | entry (i : Fin 64)
  | funcMask
  | enable
deriving DecidableEq, Repr


/-- The commands: one constructor per row of spec/opcode_table.json. -/
inductive Instr where
  /-- POWER_GOOD (R590): Input has been within 18 V to 32 V for 2 ms, so Kindling starts from ROM and the power-up sequence begins. -/
  | powerGood (railsOk selfCheckOk : Bool)
  /-- SUPPLY_LOSS (R597): Input below 16 V for 2 ms takes the module to OFF at once. -/
  | supplyLoss
  /-- KINDLING_RETRY (R595): After a failed rail sequencing or self-check, Kindling retries 1 s later, up to three attempts. -/
  | kindlingRetry (railsOk selfCheckOk : Bool)
  /-- STEWARD_READY (R596): The steward finishes boot, training, zeroing and unit tests, and the module enters READY. -/
  | stewardReady (failing : List Word)
  /-- RECOVERY_LOAD_CHECK (R594): The recovery loader checks a loaded image, writes it to slot A and hard-resets, or sets ERR. -/
  | recoveryLoadCheck
  /-- SYS_RCVCTL (R594): A write of LEN to SYS_RCVCTL starts a new recovery image load. -/
  | sysRcvctl (v : Word)
  /-- SYS_RCVDATA (R608): A write to SYS_RCVDATA appends four recovery image bytes, and writes beyond LEN are discarded. -/
  | sysRcvdata (v : Word)
  /-- HARDARM (R597): Writing SYS_CTL.HARDARM arms a hard reset for 1 ms. -/
  | hardarm
  /-- HARDRST (R598): Writing SYS_CTL.HARDRST within 1 ms of HARDARM performs a hard reset, or is discarded otherwise. -/
  | hardrst
  /-- HARDARM_LAPSE (R597): A HARDARM with no HARDRST within 1 ms lapses. -/
  | hardarmLapse
  /-- WATCHDOG (R600): Expiry of the 100 ms steward watchdog performs a hard reset with cause WATCHDOG. -/
  | watchdog
  /-- LOCKSTEP (R599): A mismatch between the two steward cores performs a hard reset with cause LOCKSTEP. -/
  | lockstep
  /-- HEARTBEAT (R600): Every 1 ms while its loop runs, the steward increments SYS_HEARTBEAT. -/
  | heartbeat
  /-- THERMAL_TRIP (R211): THM_HOT above THM_TRIP continuously for 1 ms: the module enters TRIPPED. -/
  | thermalTrip
  /-- POWER_TRIP (R211): The 1 ms average meter total above PWR_TRIPLVL: the module enters TRIPPED. -/
  | powerTrip
  /-- SUPPLY_TRIP (R603): Input outside 18 V to 32 V for 100 µs: the module enters TRIPPED. -/
  | supplyTrip
  /-- TRIPACK (R605): Writing SYS_CTL.TRIPACK in TRIPPED records the acknowledgement. -/
  | tripack
  /-- TRIPCLEAR (R605): Once every cause has been absent for 1 s and TRIPACK is present, the module leaves TRIPPED for READY. -/
  | tripclear
  /-- EMBER_ENTRY_COMPLETE (R601): Ember entry finishes within 20 ms, the module is in EMBER, and the reply is written. -/
  | emberEntryComplete
  /-- EMBER_EXIT_COMPLETE (R602): Units are powered and tested, the module is in READY, and the reply is written. -/
  | emberExitComplete (failing : List Word)
  /-- ENCODER_EDGE (R520): A valid quadrature edge updates the count and web position, or records a quadrature error. -/
  | encoderEdge (e : Fin 2) (a b : Bool)
  /-- FILTERED_INPUT_EDGE (R523): An isolated input level stable for FILT µs becomes the filtered level and feeds ticks, requests and triggers. -/
  | filteredInputEdge (i : Fin 8) (level : Bool)
  /-- TIMER_PERIOD_EXPIRY (R29): The internal period count expires and gives a TIMER tick. -/
  | timerPeriodExpiry
  /-- PTP_PHASE_MATCH (R29): Module time modulo FRM_PERIOD reaches FRM_PHASE and gives a PTP tick. -/
  | ptpPhaseMatch
  /-- STALL_TICK (R37): The frame reaches FRM_MAXP without a tick, so the frame logic generates a stall tick and sets STALL. -/
  | stallTick
  /-- SRCLOST_TICK (R38): No domain tick has come for twice the last frame length, so ticks are generated from module time and SRCLOST is set. -/
  | srclostTick
  /-- TICK (R41): The tick opens the 96 ns boundary window: frame number, cut-off, verdicts, RB copy, swaps, remaps, DVFS and publish. -/
  | tick
  /-- DVFS_RAIL_SETTLED (R43): The rail for a raised point has settled, and the units switch to the new frequency. -/
  | dvfsRailSettled
  /-- FRAME_TAIL (R206): At 400 ns before the predicted tick, Collier computes the budget and point and admits jobs for the next frame. -/
  | frameTail
  /-- PSTATIC_IDLE_UPDATE (R197): While no ticks run, Collier folds the static draw into COL_PSTATIC every 1 ms. -/
  | pstaticIdleUpdate
  /-- METER_SAMPLE (R201): Every 100 ns the energy meters are sampled and energy is attributed to jobs. -/
  | meterSample (m : MeterReading)
  /-- SENSOR_SAMPLE (R217): Every 100 ns the on-die sensors are sampled, and THM_HOT is updated. -/
  | sensorSample (t : SensorReading)
  /-- UNIT_WAKE_READY (R205): A gated Fintoic vector unit or Bastaef array assigned by admission finishes waking and becomes ready. -/
  | unitWakeReady (u : Fin 22)
  /-- CMD_TAIL (R62): A tail write to CMD_FTAIL or a doorbell page's CMD_TAIL publishes command slots, or is discarded with TAILERR. -/
  | cmdTail (src : RegSrc) (v : Word)
  /-- CMD_CHEAD (R64): A completion-head write to CMD_FCHEAD or CMD_CHEAD frees completion entries, or is discarded with CHEADERR. -/
  | cmdChead (src : RegSrc) (v : Word)
  /-- CMD_FCTL (R85): Writing ENABLE starts a function ring with zeroed positions and sequence from CMD_FSEQ, or stops consumption. -/
  | cmdFctl (src : RegSrc) (v : Word)
  /-- FETCHERR_CLEAR (R68): Writing 1 to FETCHERR clears it and resumes fetching from the unchanged head. -/
  | fetcherrClear (src : RegSrc)
  /-- RING_FETCH_FAIL (R68): A failed read of a ring slot stops fetching on that ring, sets FETCHERR and sends the vector. -/
  | ringFetchFail (ring : RingId) (addr : Dword) (kind : HostFail)
  /-- MANAGEMENT_DATAGRAM (R538): A management UDP datagram is filtered, checked as a packet and answered within the class O bound. -/
  | managementDatagram (port : Fin 2) (ip : Word) (udp : BitVec 16) (p : Packet)
  /-- NOP (R97): Changes nothing and replies OK. -/
  | nop (ring : RingId) (p : Packet)
  /-- QUERY_MODULE (R98): Returns identity, units in service, module state, firmware version and the context count. -/
  | queryModule (ring : RingId) (p : Packet)
  /-- MODULE_STATE (R99): Requests RUN or HOLD at the next boundary, entry to EMBER, or a return to READY. -/
  | moduleState (ring : RingId) (p : Packet)
  /-- FRAME_CONFIG (R100): Stages the tick source, FL, period, phase and maximum frame together. -/
  | frameConfig (ring : RingId) (p : Packet)
  /-- FRAME_CONTROL (R101): Starts or stops the tick under R33 and R35. -/
  | frameControl (ring : RingId) (p : Packet)
  /-- NET_CONFIG (R102): Sets an Ethernet port's rate and enable, and its result-stream destination. -/
  | netConfig (ring : RingId) (p : Packet)
  /-- PTP_CONFIG (R103): Sets the PTP role, the delay mechanism, the domain and the port mask. -/
  | ptpConfig (ring : RingId) (p : Packet)
  /-- CTX_CREATE (R104): Takes the lowest FREE slot, gives it the next generation, and creates an IDLE context with rings and quotas. -/
  | ctxCreate (ring : RingId) (p : Packet)
  /-- CTX_DESTROY (R105): Resets the context, drains its ring, releases its resources and frees the slot. -/
  | ctxDestroy (ring : RingId) (p : Packet)
  /-- CTX_RESET (R163): Starts a context reset: RESETTING, jobs halted, DMA stopped, counters released, endpoints closed. -/
  | ctxReset (ring : RingId) (p : Packet)
  /-- CTX_RESET_COMPLETE (R165): Once every reset action has finished and the budget boundary has passed, the generation advances and the reply is written. -/
  | ctxResetComplete (slot : Fin 256)
  /-- CTX_QUERY (R107): Returns the context state, fault cause, generation, resources and swap status. -/
  | ctxQuery (ring : RingId) (p : Packet)
  /-- CTX_RUN (R108): Stages a move between IDLE and LIVE for the next boundary. -/
  | ctxRun (ring : RingId) (p : Packet)
  /-- CTX_SET_POLICY (R109): Stages the context's output policy. -/
  | ctxSetPolicy (ring : RingId) (p : Packet)
  /-- ATU_MAP (R110): Walks and allocates tables, allocates zeroed backing, and writes entries for a VA range. -/
  | atuMap (ring : RingId) (p : Packet)
  /-- ATU_UNMAP (R111): Removes the entries of a range, invalidates cached translations and releases the backing. -/
  | atuUnmap (ring : RingId) (p : Packet)
  /-- ATU_INVALIDATE (R112): Removes every matching translation from every translation cache. -/
  | atuInvalidate (ring : RingId) (p : Packet)
  /-- SYN_ALLOC (R113): Allocates COUNT contiguous counters set to INITIAL. -/
  | synAlloc (ring : RingId) (p : Packet)
  /-- SYN_FREE (R114): Freezes and frees counters, and wakes their waiters with SYNC_ABANDONED. -/
  | synFree (ring : RingId) (p : Packet)
  /-- SYN_SIGNAL (R115): Adds INCREMENT to a counter after the permission, state and overflow checks. -/
  | synSignal (ring : RingId) (p : Packet)
  /-- SYN_WAIT (R116): Waits until a counter reaches TARGET, TIMEOUT ticks pass, the tick stops, or the counter is abandoned. -/
  | synWait (ring : RingId) (p : Packet)
  /-- SYN_WAIT_TIMEOUT (R116): TIMEOUT ticks have passed for a SYN_WAIT, which replies OK with byte 8 = 0. -/
  | synWaitTimeout (ring : RingId)
  /-- MBX_OPEN (R117): Opens a sender or receiver endpoint of a channel and returns its address. -/
  | mbxOpen (ring : RingId) (p : Packet)
  /-- MBX_CLOSE (R118): Closes an endpoint, and the senders of a closed receiver's pending notices get ABORTED. -/
  | mbxClose (ring : RingId) (p : Packet)
  /-- JOB_DEFINE (R119): Stages a job descriptor at an index. -/
  | jobDefine (ring : RingId) (p : Packet)
  /-- JOB_REMOVE (R120): Empties a staged job entry. -/
  | jobRemove (ring : RingId) (p : Packet)
  /-- COL_SET_CAP (R121): Stages the Collier power cap. -/
  | colSetCap (ring : RingId) (p : Packet)
  /-- COL_QUERY (R122): Returns the budget and a job's declared cost, measured cost, age, class and admission. -/
  | colQuery (ring : RingId) (p : Packet)
  /-- SWAP_ARM (R123): Arms a context swap for the next boundary or a future frame, with KEEP and a counter. -/
  | swapArm (ring : RingId) (p : Packet)
  /-- SWAP_CANCEL (R124): Disarms an uncommitted swap and keeps the staged objects. -/
  | swapCancel (ring : RingId) (p : Packet)
  /-- SWAP_STATUS (R125): Returns the armed target, the last applied frame and the swap flags. -/
  | swapStatus (ring : RingId) (p : Packet)
  /-- REG_STAGE (R126): Checks offset and value pairs, then writes them in order into the context's staged RB copies. -/
  | regStage (ring : RingId) (p : Packet)
  /-- PROG_LOAD (R127): Copies and checks a program image, and stages it in a binding. -/
  | progLoad (ring : RingId) (p : Packet)
  /-- MODEL_LOAD (R128): Copies and checks a model image with its scale tables, and stages it in a slot. -/
  | modelLoad (ring : RingId) (p : Packet)
  /-- MODEL_UNBIND (R129): Empties a staged model binding, and the image is released once no set refers to it. -/
  | modelUnbind (ring : RingId) (p : Packet)
  /-- DMA_ALLOC (R130): Allocates the lowest free DMA channels at a priority. -/
  | dmaAlloc (ring : RingId) (p : Packet)
  /-- DMA_FREE (R131): Stops and frees the masked channels. -/
  | dmaFree (ring : RingId) (p : Packet)
  /-- DMA_START (R132): Starts an idle channel at a first descriptor. -/
  | dmaStart (ring : RingId) (p : Packet)
  /-- DMA_KICK (R133): Acts as a write to the channel's KICK register. -/
  | dmaKick (ring : RingId) (p : Packet)
  /-- DMA_STOP (R134): Stops a channel at a beat boundary, makes it IDLE, and returns its position. -/
  | dmaStop (ring : RingId) (p : Packet)
  /-- CXP_CONFIG (R510): Forms a camera group, runs discovery and sets the link speed and owner. -/
  | cxpConfig (ring : RingId) (p : Packet)
  /-- CXP_POWER (R512): Switches PoCXP on or off for masked ports within the supply budget. -/
  | cxpPower (ring : RingId) (p : Packet) (det : BitVec 8)
  /-- CXP_CTRL (R514): Makes one control-channel register transaction with a camera. -/
  | cxpCtrl (ring : RingId) (p : Packet)
  /-- CXP_CTRL_TIMEOUT (R514): No acknowledgement comes within the allowed time, and the reply is ABORTED with byte 4 = 0xFF. -/
  | cxpCtrlTimeout (port : Fin 8)
  /-- WEB_ENC_CONFIG (R138): Stages an encoder's decode, inversion and filter. -/
  | webEncConfig (ring : RingId) (p : Packet)
  /-- WEB_OUT_BIND (R139): Binds an output to a context, or unbinds it, at the next boundary. -/
  | webOutBind (ring : RingId) (p : Packet)
  /-- WEB_OUT_RULE (R140): Stages an output rule of base, encoder, offset and width. -/
  | webOutRule (ring : RingId) (p : Packet)
  /-- WEB_OUT_FORCE (R141): In READY, drives an output to LEVEL for DURATION. -/
  | webOutForce (ring : RingId) (p : Packet)
  /-- FORCE_DURATION_END (R141): The forced DURATION ends, and the output returns to its safe state. -/
  | forceDurationEnd (o : Fin 12)
  /-- CPC_REPORT (R142): Returns units in service, spares in use, suspects, repairs and remaps. -/
  | cpcReport (ring : RingId) (p : Packet)
  /-- CPC_POLICY (R143): Sets AUTOREMAP and TESTSHARE. -/
  | cpcPolicy (ring : RingId) (p : Packet)
  /-- DOMAIN_JOIN (R549): Sends JOIN requests over the chosen ports to join a Waimaco domain. -/
  | domainJoin (ring : RingId) (p : Packet)
  /-- DOMAIN_ALONE (R144): No partner answers a join within 400 ms, so the module forms a domain alone as its leader. -/
  | domainAlone
  /-- DOMAIN_LEAVE (R145): The module leaves the domain at the next boundary. -/
  | domainLeave (ring : RingId) (p : Packet)
  /-- DOMAIN_SWAP_ARM (R146): Arms a domain-wide swap of masked contexts under the two-phase rule. -/
  | domainSwapArm (ring : RingId) (p : Packet)
  /-- DOMAIN_STATUS (R147): Returns the module and leader IDs, member count, flags and last domain swap. -/
  | domainStatus (ring : RingId) (p : Packet)
  /-- LOG_READ (R148): Returns and removes the oldest entry of a chosen log. -/
  | logRead (ring : RingId) (p : Packet)
  /-- FRM_CTL_START (R33): Writing FRM_CTL.START takes the staged frame settings, sets RUNNING and awaits the first tick. -/
  | frmCtlStart
  /-- FRM_CTL_STOP (R35): Writing FRM_CTL.STOP stops the tick after the next boundary, or at once before the first tick. -/
  | frmCtlStop
  /-- REGISTER_WRITE (R20): A write to a register with no row of its own takes effect by its type, or is discarded and recorded in SYS_REGERR. -/
  | registerWrite (a : RegAccess) (v : Word)
  /-- SYS_REGERR (R645): Writing 1 to SYS_REGERR.ERR clears ERR and MULTI. -/
  | sysRegerr
  /-- WEB_POSSET (R522): In READY, a write to WEB_POSSET replaces an encoder's web position. -/
  | webPosset (e : Fin 2) (v : Word)
  /-- FTC_DBGCTL_GO (R642): In READY, GO starts a halted core at FTC_DBGPC with no context. -/
  | ftcDbgctlGo (c : Fin 18)
  /-- FTC_DBGCTL_STEP (R642): STEP executes one bundle on a halted core and halts. -/
  | ftcDbgctlStep (c : Fin 18)
  /-- FTC_DBGCTL_HALT (R642): HALT stops a diagnostic run at the next bundle boundary. -/
  | ftcDbgctlHalt (c : Fin 18)
  /-- NOP_SHORT (R261): Short nop does nothing for one cycle. -/
  | nopShort (loc : At)
  /-- HALT (R221): Waits for stores and tags, raises BQ_FAULT for unread faulted tags, and ends the core's part of the run. -/
  | halt (loc : At)
  /-- ADD (R272): Scalar add, modulo 2^32. -/
  | add (loc : At) (d a b : Fin 32)
  /-- SUB (R272): Scalar subtract, modulo 2^32. -/
  | sub (loc : At) (d a b : Fin 32)
  /-- AND (R272): Scalar bitwise AND. -/
  | and (loc : At) (d a b : Fin 32)
  /-- OR (R272): Scalar bitwise OR. -/
  | or (loc : At) (d a b : Fin 32)
  /-- XOR (R272): Scalar bitwise XOR. -/
  | xor (loc : At) (d a b : Fin 32)
  /-- MOV (R272): Scalar register copy. -/
  | mov (loc : At) (d a : Fin 32)
  /-- MUL (R272): Low 32 bits of the product. -/
  | mul (loc : At) (d a b : Fin 32)
  /-- MIN (R272): Signed minimum. -/
  | min (loc : At) (d a b : Fin 32)
  /-- MAX (R272): Signed maximum. -/
  | max (loc : At) (d a b : Fin 32)
  /-- ADDS (R272): Saturating signed add. -/
  | adds (loc : At) (d a b : Fin 32)
  /-- SUBS (R272): Saturating signed subtract. -/
  | subs (loc : At) (d a b : Fin 32)
  /-- SHL (R273): Shift left by the whole of sb. -/
  | shl (loc : At) (d a b : Fin 32)
  /-- SHR (R273): Arithmetic shift right by the whole of sb. -/
  | shr (loc : At) (d a b : Fin 32)
  /-- SHRU (R273): Logical shift right by the whole of sb. -/
  | shru (loc : At) (d a b : Fin 32)
  /-- ADDI (R272): Adds a signed immediate to sd. -/
  | addi (loc : At) (d : Fin 32) (imm : BitVec 9)
  /-- MOVI (R272): Loads an immediate into sd. -/
  | movi (loc : At) (d : Fin 32) (imm : BitVec 9)
  /-- ANDI (R272): ANDs sd with a sign-extended immediate. -/
  | andi (loc : At) (d : Fin 32) (imm : BitVec 9)
  /-- ORI (R272): ORs sd with a zero-extended immediate. -/
  | ori (loc : At) (d : Fin 32) (imm : BitVec 9)
  /-- XORI (R272): XORs sd with a zero-extended immediate. -/
  | xori (loc : At) (d : Fin 32) (imm : BitVec 9)
  /-- SHLI (R272): Shifts sd left by an immediate. -/
  | shli (loc : At) (d : Fin 32) (n : BitVec 5)
  /-- SHRI (R272): Shifts sd right arithmetically by an immediate. -/
  | shri (loc : At) (d : Fin 32) (n : BitVec 5)
  /-- SHRUI (R272): Shifts sd right logically by an immediate. -/
  | shrui (loc : At) (d : Fin 32) (n : BitVec 5)
  /-- CMPEQ (R274): Sets pd when sa equals sb. -/
  | cmpeq (loc : At) (pd : Fin 8) (a b : Fin 32)
  /-- CMPNE (R274): Sets pd when sa differs from sb. -/
  | cmpne (loc : At) (pd : Fin 8) (a b : Fin 32)
  /-- CMPLT (R274): Sets pd on a signed less-than. -/
  | cmplt (loc : At) (pd : Fin 8) (a b : Fin 32)
  /-- CMPLE (R274): Sets pd on a signed less-or-equal. -/
  | cmple (loc : At) (pd : Fin 8) (a b : Fin 32)
  /-- CMPLTU (R274): Sets pd on an unsigned less-than. -/
  | cmpltu (loc : At) (pd : Fin 8) (a b : Fin 32)
  /-- CMPLEU (R274): Sets pd on an unsigned less-or-equal. -/
  | cmpleu (loc : At) (pd : Fin 8) (a b : Fin 32)
  /-- CMPEQI (R274): Sets pd when sa equals simm6. -/
  | cmpeqi (loc : At) (pd : Fin 8) (a : Fin 32) (imm : BitVec 6)
  /-- CMPLTI (R274): Sets pd when sa is below simm6, signed. -/
  | cmplti (loc : At) (pd : Fin 8) (a : Fin 32) (imm : BitVec 6)
  /-- PAND (R274): Predicate AND. -/
  | pand (loc : At) (pd pa pb : Fin 8)
  /-- POR (R274): Predicate OR. -/
  | por (loc : At) (pd pa pb : Fin 8)
  /-- PNOT (R274): Predicate NOT. -/
  | pnot (loc : At) (pd pa : Fin 8)
  /-- BR (R275): Relative branch. -/
  | br (loc : At) (off : BitVec 14)
  /-- CALL (R275): Writes the next bundle's address to s31 and branches. -/
  | call (loc : At) (off : BitVec 14)
  /-- JR (R257): Branches to the address in sa[15:0]. -/
  | jr (loc : At) (a : Fin 32)
  /-- LOOP (R276): Sets a hardware loop level with a count taken from sc. -/
  | loop (loc : At) (l : Fin 2) (sc : Fin 32) (off : BitVec 8)
  /-- LOOPI (R276): Sets a hardware loop level with an immediate count. -/
  | loopi (loc : At) (l : Fin 2) (n : BitVec 5) (off : BitVec 8)
  /-- LBRK (R227): Sets lcL to 0 and leaves the loop. -/
  | lbrk (loc : At) (l : Fin 2)
  /-- MOV_L_LR (R278): Writes a loop register from sa. -/
  | movLLr (loc : At) (sel : BitVec 3) (s : Fin 32)
  /-- MOV_L_SD (R278): Reads a loop register into sd. -/
  | movLSd (loc : At) (sel : BitVec 3) (s : Fin 32)
  /-- MOVC_R (R279): Reads a control register. -/
  | movcR (loc : At) (s c : Fin 32)
  /-- MOVC_W (R279): Writes a control register according to its type. -/
  | movcW (loc : At) (s c : Fin 32)
  /-- CSYNC (R230): Makes pending control writes take effect. -/
  | csync (loc : At)
  /-- PMSYNC (R228): Makes program-memory stores visible to fetch and empties the repeat cache. -/
  | pmsync (loc : At)
  /-- RTI (R239): Returns from the current interrupt level, re-issuing a vector slot if VALID. -/
  | rti (loc : At)
  /-- RTT (R232): Returns from a trap handler, re-issuing a vector slot if VALID. -/
  | rtt (loc : At)
  /-- BRK (R262): Raises the BREAK trap with a code. -/
  | brk (loc : At) (n : BitVec 6)
  /-- VGATE (R247): Power-gates the core's vector unit. -/
  | vgate (loc : At)
  /-- VECTOR_UNIT_WAKE (R247): After a gated unit's 48-cycle wake, the stalled vector bundle issues. -/
  | vectorUnitWake (c : Fin 18)
  /-- SINT (R241): Sets SOFT on the core of rank n, or SOFTERR. -/
  | sint (loc : At) (n : BitVec 6)
  /-- LD_B (R281): Sign-extending byte load. -/
  | ldB (loc : At) (s : Fin 32) (m : AddrForm)
  /-- LD_BU (R281): Zero-extending byte load. -/
  | ldBu (loc : At) (s : Fin 32) (m : AddrForm)
  /-- LD_H (R281): Sign-extending halfword load. -/
  | ldH (loc : At) (s : Fin 32) (m : AddrForm)
  /-- LD_HU (R281): Zero-extending halfword load. -/
  | ldHu (loc : At) (s : Fin 32) (m : AddrForm)
  /-- LD_W (R281): Word load from X, Y or a window. -/
  | ldW (loc : At) (s : Fin 32) (m : AddrForm)
  /-- ST_B (R281): Byte store. -/
  | stB (loc : At) (s : Fin 32) (m : AddrForm)
  /-- ST_H (R281): Halfword store. -/
  | stH (loc : At) (s : Fin 32) (m : AddrForm)
  /-- ST_W (R281): Word store. -/
  | stW (loc : At) (s : Fin 32) (m : AddrForm)
  /-- ADDA (R280): Adds an immediate or mN to a g register. -/
  | adda (loc : At) (g : Fin 16) (x : AddaForm)
  /-- MOV_G (R280): Copies sa into a g register. -/
  | movG (loc : At) (g : Fin 16) (s : Fin 32)
  /-- MOV_S (R280): Copies a g register into sd. -/
  | movS (loc : At) (s : Fin 32) (g : Fin 16)
  /-- MOV_M (R280): Copies sa into an m register. -/
  | movM (loc : At) (m : Fin 8) (s : Fin 32)
  /-- BQ_ISSUE (R290): Issues a Bastaef command on a tag after the busy and alignment checks. -/
  | bqIssue (loc : At) (tag : Fin 16) (s1 s2 : Fin 32)
  /-- BQ_POLL (R291): Returns a tag's state. -/
  | bqPoll (loc : At) (d : Fin 32) (tag : Fin 16)
  /-- BQ_WAIT (R291): Stalls until a tag is DONE, then returns its status and frees it, or traps BQ_FAULT. -/
  | bqWait (loc : At) (d : Fin 32) (tag : Fin 16)
  /-- BQ_STAT (R291): Returns a DONE tag's status and frees it, or returns 0. -/
  | bqStat (loc : At) (d : Fin 32) (tag : Fin 16)
  /-- SYN_SIG (R436): Signals a local or remote counter from a core. -/
  | synSig (loc : At) (sa sb : Fin 32)
  /-- SYN_WAIT_INSTR (R438): Stalls the bundle until a counter reaches its target or is abandoned. -/
  | synWaitInstr (loc : At) (sa sb : Fin 32)
  /-- SYN_ARM (R439): Arms a wait-table entry that sets SYN on satisfaction or abandonment. -/
  | synArm (loc : At) (sa sb : Fin 32)
  /-- MAC (R286): Dual-fetch multiply-accumulate into an accumulator. -/
  | mac (loc : At) (x : Dual)
  /-- MSU (R286): Dual-fetch multiply-subtract. -/
  | msu (loc : At) (x : Dual)
  /-- MPY (R286): Dual-fetch multiply. -/
  | mpy (loc : At) (x : Dual)
  /-- MAC_R (R286): Register multiply-accumulate, also in its short form. -/
  | macR (loc : At) (acc : Fin 4) (a b : Fin 32)
  /-- MSU_R (R286): Register multiply-subtract, also in its short form. -/
  | msuR (loc : At) (acc : Fin 4) (a b : Fin 32)
  /-- MPY_R (R286): Register multiply. -/
  | mpyR (loc : At) (acc : Fin 4) (a b : Fin 32)
  /-- SAT_A (R287): Rounds, shifts and saturates an accumulator into sd. -/
  | satA (loc : At) (d : Fin 32) (acc : Fin 4) (n : BitVec 5)
  /-- MOV_A (R286): Loads an accumulator from sa. -/
  | movA (loc : At) (acc : Fin 4) (a : Fin 32)
  /-- ADDACC (R286): Adds two accumulators with saturation. -/
  | addacc (loc : At) (an am : Fin 4)
  /-- SUBACC (R286): Subtracts two accumulators with saturation. -/
  | subacc (loc : At) (an am : Fin 4)
  /-- SHLA (R286): Shifts an accumulator. -/
  | shla (loc : At) (acc : Fin 4) (imm : BitVec 6)
  /-- CLR (R286): Clears an accumulator. -/
  | clr (loc : At) (acc : Fin 4)
  /-- VADD_H (R298): Lane-wise halfword add. -/
  | vaddH (loc : At) (d a b : Fin 32)
  /-- VSUB_H (R298): Lane-wise halfword subtract. -/
  | vsubH (loc : At) (d a b : Fin 32)
  /-- VADDS_H (R298): Saturating lane-wise add. -/
  | vaddsH (loc : At) (d a b : Fin 32)
  /-- VSUBS_H (R298): Saturating lane-wise subtract. -/
  | vsubsH (loc : At) (d a b : Fin 32)
  /-- VMUL_H (R298): Rounded Q15 lane-wise multiply. -/
  | vmulH (loc : At) (d a b : Fin 32)
  /-- VMIN_H (R298): Lane-wise minimum. -/
  | vminH (loc : At) (d a b : Fin 32)
  /-- VMAX_H (R298): Lane-wise maximum. -/
  | vmaxH (loc : At) (d a b : Fin 32)
  /-- VAND (R298): Vector bitwise AND. -/
  | vand (loc : At) (d a b : Fin 32)
  /-- VOR (R298): Vector bitwise OR. -/
  | vor (loc : At) (d a b : Fin 32)
  /-- VXOR (R298): Vector bitwise XOR. -/
  | vxor (loc : At) (d a b : Fin 32)
  /-- VADD_B (R298): Byte-lane add. -/
  | vaddB (loc : At) (d a b : Fin 32)
  /-- VADDS_B (R298): Saturating byte-lane add. -/
  | vaddsB (loc : At) (d a b : Fin 32)
  /-- VADD_H_M (R300): Masked lane-wise add. -/
  | vaddHM (loc : At) (d b : Fin 32) (k : Fin 8) (z : Bool)
  /-- VSUB_H_M (R300): Masked lane-wise subtract. -/
  | vsubHM (loc : At) (d b : Fin 32) (k : Fin 8) (z : Bool)
  /-- VADDS_H_M (R300): Masked saturating add. -/
  | vaddsHM (loc : At) (d b : Fin 32) (k : Fin 8) (z : Bool)
  /-- VMUL_H_M (R300): Masked Q15 multiply. -/
  | vmulHM (loc : At) (d b : Fin 32) (k : Fin 8) (z : Bool)
  /-- VMOV_M (R300): Masked byte-lane move. -/
  | vmovM (loc : At) (d b : Fin 32) (k : Fin 8) (z : Bool)
  /-- VMOV (R303): Vector register copy. -/
  | vmov (loc : At) (d a : Fin 32)
  /-- VSHL_H (R299): Saturating lane shift left. -/
  | vshlH (loc : At) (d a : Fin 32) (n : BitVec 4)
  /-- VSHR_H (R299): Arithmetic lane shift right. -/
  | vshrH (loc : At) (d a : Fin 32) (n : BitVec 4)
  /-- VSHRR_H (R299): Rounding lane shift right. -/
  | vshrrH (loc : At) (d a : Fin 32) (n : BitVec 4)
  /-- VMAC_H (R301): Lane multiply-accumulate into w. -/
  | vmacH (loc : At) (w : Fin 4) (a b : Fin 32)
  /-- VMSU_H (R301): Lane multiply-subtract into w. -/
  | vmsuH (loc : At) (w : Fin 4) (a b : Fin 32)
  /-- VMPY_H (R301): Lane multiply into w. -/
  | vmpyH (loc : At) (w : Fin 4) (a b : Fin 32)
  /-- VCLR (R301): Clears a vector accumulator. -/
  | vclr (loc : At) (w : Fin 4)
  /-- VNARROW (R302): Rounds and narrows w into vd. -/
  | vnarrow (loc : At) (d : Fin 32) (w : Fin 4) (n : BitVec 5)
  /-- VCMPEQ_H (R303): Lane equality compare into a mask. -/
  | vcmpeqH (loc : At) (k : Fin 8) (a b : Fin 32)
  /-- VCMPLT_H (R303): Lane less-than compare into a mask. -/
  | vcmpltH (loc : At) (k : Fin 8) (a b : Fin 32)
  /-- VCMPLE_H (R303): Lane less-or-equal compare into a mask. -/
  | vcmpleH (loc : At) (k : Fin 8) (a b : Fin 32)
  /-- KAND (R303): Mask AND. -/
  | kand (loc : At) (kd ka kb : Fin 8)
  /-- KOR (R303): Mask OR. -/
  | kor (loc : At) (kd ka kb : Fin 8)
  /-- KNOT (R303): Mask inversion. -/
  | knot (loc : At) (kd ka : Fin 8)
  /-- VBCAST (R303): Broadcasts sa[15:0] to every lane. -/
  | vbcast (loc : At) (d a : Fin 32)
  /-- VEXT (R303): Extracts one lane into sd. -/
  | vext (loc : At) (d a b : Fin 32)
  /-- VLD (R304): Vector load from X, Y or a window. -/
  | vld (loc : At) (v : Fin 32) (m : AddrForm) (upto : Nat)
  /-- VST (R304): Vector store to X, Y or a window. -/
  | vst (loc : At) (v : Fin 32) (m : AddrForm) (upto : Nat)
  /-- VGATHER_H (R308): Indexed halfword gather. -/
  | vgatherH (loc : At) (v vi : Fin 32) (g : Fin 16) (upto : Nat)
  /-- VSCATTER_H (R308): Indexed halfword scatter. -/
  | vscatterH (loc : At) (v vi : Fin 32) (g : Fin 16) (upto : Nat)
  /-- VRMW_ADD_H (R309): Indexed atomic read-modify-write add. -/
  | vrmwAddH (loc : At) (v vi : Fin 32) (g : Fin 16) (upto : Nat)
  /-- VREDSUM_H (R313): Sum reduction into sd. -/
  | vredsumH (loc : At) (d a : Fin 32) (upto : Nat)
  /-- VREDMIN_H (R313): Minimum reduction. -/
  | vredminH (loc : At) (d a : Fin 32) (upto : Nat)
  /-- VREDMAX_H (R313): Maximum reduction. -/
  | vredmaxH (loc : At) (d a : Fin 32) (upto : Nat)
  /-- VMINIDX_H (R313): Minimum with its lane index. -/
  | vminidxH (loc : At) (d a : Fin 32) (upto : Nat)
  /-- VMAXIDX_H (R313): Maximum with its lane index. -/
  | vmaxidxH (loc : At) (d a : Fin 32) (upto : Nat)
  /-- VSMIN_IDX (R314): Stream minimum search step. -/
  | vsminIdx (loc : At) (d a : Fin 32) (upto : Nat)
  /-- VSMAX_IDX (R314): Stream maximum search step. -/
  | vsmaxIdx (loc : At) (d a : Fin 32) (upto : Nat)
  /-- INTERRUPT_NORMAL_ENTRY (R237): A normal-level request is taken: state is saved and execution continues at FTC_IVEC1. -/
  | interruptNormalEntry (c : Fin 18) (forced : Bool)
  /-- INTERRUPT_FAST_ENTRY (R238): A fast-level request is taken: the shadow set switches in and execution continues at FTC_IVEC2. -/
  | interruptFastEntry (c : Fin 18) (forced : Bool)
  /-- FTC_TIMER_MATCH (R235): FTC_CYCLE[31:0] equals FTC_TCMP, and TIMER becomes pending. -/
  | ftcTimerMatch (c : Fin 18)
  /-- BST_COMMAND_ENTRY (R330): The feed binds the command to an array, fetches and checks its descriptor, and translates operands. -/
  | bstCommandEntry (c : Fin 18)
  /-- BST_COMMAND_START (R331): An array starts the next bound command in issue, round-robin and fence order. -/
  | bstCommandStart (a : Fin 4)
  /-- NARROW_RUN_END (R362): The narrow run's last write is visible, and FITMISS acts according to WPOL. -/
  | narrowRunEnd (a : Fin 4) (stall : Nat)
  /-- WIDEN_DECISION (R364): Collier grants or denies a widen request 16 ns after it is made, and a grant starts the wide run. -/
  | widenDecision (a : Fin 4)
  /-- BST_COMMAND_COMPLETE (R332): The status is placed on the tag, SYNC is signalled and NOTIFY sets BQ. -/
  | bstCommandComplete (a : Fin 4)
  /-- BST_DRAIN_END (R338): A tile that was active at a cut-off ends, and the array's new job may start. -/
  | bstDrainEnd (a : Fin 4)
  /-- HDG_SUBMIT (R375): A core's high-half write submits a Hedgerow pass. -/
  | hdgSubmit (src : RegSrc) (v : Word)
  /-- PRV_SUBMIT (R375): A core's high-half write submits a Privet head pass. -/
  | prvSubmit (src : RegSrc) (v : Word)
  /-- PASS_ACCEPT (R377): With queue room, the engine reads and checks the descriptor and queues the pass, or refuses it. -/
  | passAccept (e : Engine)
  /-- PASS_START (R380): A queued pass starts on a free pipe in priority and fence order. -/
  | passStart (e : Engine)
  /-- PASS_COMPLETE (R381): A pass's last output is visible, STATUS is written and DONE is signalled. -/
  | passComplete (e : Engine) (pipe : Fin 4) (stall : Nat)
  /-- PASS_DRAIN_END (R390): A pass ended by a cut-off finishes its row segment, and the pipe is free. -/
  | passDrainEnd (e : Engine) (pipe : Fin 4)
  /-- LINE_RATE_RELOAD (R394): A line-rate channel with changed settings finishes the old frame, reads and checks its descriptor, and restarts. -/
  | lineRateReload (n : Fin 4)
  /-- LINE_RATE_LINE (R398): A line-rate channel converts a line and writes its L*a*b* and layer rows. -/
  | lineRateLine (n : Fin 4)
  /-- FRAME_ENTRY (R399): After a tick, a channel closes the ending frame, writes its frame-table entry and signals FSYNC. -/
  | frameEntry (n : Fin 4)
  /-- DESCRIPTOR_FETCH (R420): A channel fetches and checks a descriptor, or stops in ERROR. -/
  | descriptorFetch (n : Fin 128)
  /-- DMA_BURST_GRANT (R419): A paced channel with ARMED and its line high is granted a burst and disarmed. -/
  | dmaBurstGrant (n : Fin 128)
  /-- DMA_BEAT (R421): The engine arbitrates its read and write ports and issues a beat, with pre-emption by priority. -/
  | dmaBeat (e : Fin 4)
  /-- DESCRIPTOR_COMPLETE (R425): All writes are visible: DMA_CHDONE counts, SYNC is signalled, the core is notified and the link is followed. -/
  | descriptorComplete (n : Fin 128)
  /-- DMA_KICK_WRITE (R427): A write to DMA_KICK sets RECHECK or re-reads a parked tail's link. -/
  | dmaKickWrite (src : RegSrc) (n : Fin 128)
  /-- SIGNAL (R444): A doorbell-page SIGNAL write signals a counter as the page's context. -/
  | signal (f : Fin 32) (page : Fin 256) (v : Word)
  /-- VBASE (R444): A VBASE write moves the page's counter read view. -/
  | vbase (f : Fin 32) (page : Fin 256) (v : Word)
  /-- SYN_CTL (R457): The owner's write sets the REMOTE bit of a counter. -/
  | synCtl (src : RegSrc) (n : Fin 16384) (v : Word)
  /-- WORD (R447): A write to a sender slot's WORD sends a notice or is refused. -/
  | word (c : Fin 18) (ch : Fin 64) (d : Fin 32) (v : Word)
  /-- NOTICE_DELIVERY (R448): The notice reaches the receiver slot, DB is set, RSIG is signalled and MBX may be raised. -/
  | noticeDelivery (ch : Fin 64)
  /-- DB (R449): Writing 1 to DB bits takes notices, sets the sender TAKEN and signals SSIG. -/
  | db (c : Fin 18) (ch : Fin 64) (v : Word)
  /-- MASK (R451): A MASK write masks doorbells, and clearing a bit with DB set raises MBX. -/
  | mask (c : Fin 18) (ch : Fin 64) (v : Word)
  /-- LINE_DELIVERY (R517): A camera line's last packet arrives, and the line is stamped, stored, delivered and handed to Privet. -/
  | lineDelivery (m : Fin 8) (line : CamLine)
  /-- CXP_LINK_LOST (R511): A group loses link, stops receiving and sets LINKLOST. -/
  | cxpLinkLost (m : Fin 8)
  /-- POCXP_OVERLOAD (R513): An overdraw for 10 ms or a short for 100 µs switches a port off. -/
  | pocxpOverload (p : Fin 8) (short : Bool)
  /-- WEB_VPOST (R524): A core's high-half write posts a verdict of the run. -/
  | webVpost (src : RegSrc) (v : Word)
  /-- OUTPUT_PULSE_START (R529): A queued pulse reaches its target and the output is driven active, or it is suppressed. -/
  | outputPulseStart (o : Fin 12)
  /-- OUTPUT_PULSE_END (R529): WIDTH ns after its start, the pulse returns the output to idle. -/
  | outputPulseEnd (o : Fin 12)
  /-- SCRUB_IDLE_ITEM (R475): In READY, the scrubber runs a 256 KiB item every IDLEINT × 10 µs. -/
  | scrubIdleItem
  /-- SCRUB_ITEM (R476): An admitted scrub item reads its range and corrects or poisons granules. -/
  | scrubItem
  /-- ODCNT_READ (R466): Once per second the steward reads the stack's on-die correction count into MEM_ODCNT. -/
  | odcntRead (n : Word)
  /-- COPPICE_TEST (R490): An admitted test step completes, and the test's pass or fail updates the unit's count and may confirm it. -/
  | coppiceTest (unit : Word) (failing : List Word)
  /-- DATAPATH_CHECK_FAIL (R489): A failed in-run check halts the job as a cut-off and counts a failed test. -/
  | datapathCheckFail (unit : Word)
  /-- SRAM_BANK_COPY_DONE (R497): The shadow copy of a replaced SRAM bank finishes. -/
  | sramBankCopyDone (bank : Fin 32)
  /-- FIELD_MAP_WRITE (R503): Within 1 s of a remap the steward writes the field-map entry, or logs MAP_UNSTORED. -/
  | fieldMapWrite
  /-- ETH_FRAME_RECEIVE (R536): A received Ethernet frame is answered, passed to PTP or discarded. -/
  | ethFrameReceive (port : Fin 2) (f : EthFrame)
  /-- PTP_SYNC (R540): A Sync from the master updates the servo by a step or a rate change, and TIME_FAULT is updated. -/
  | ptpSync (port : Fin 2) (offset : Int) (mpd : Word) (ppb : Int)
  /-- PTP_SYNC_TRANSMIT (R539): As master, the module sends two-step Sync at 2^LOGSYNC per second. -/
  | ptpSyncTransmit (port : Fin 2)
  /-- MASTERLOST (R540): The PTP master is lost, and module time enters holdover. -/
  | masterlost
  /-- HOLDOVER_EXPIRY (R541): Holdover lasts PTP_HOLDMS, and TIME_FAULT is raised. -/
  | holdoverExpiry
  /-- TRANSCEIVER_INSERT (R617): A transceiver inserted into a cage is identified and powered, or refused. -/
  | transceiverInsert (cage : Fin 4) (x : Transceiver)
  /-- TRANSCEIVER_OVERPOWER (R617): Overdraw for 10 ms switches the cage supply off. -/
  | transceiverOverpower (cage : Fin 4)
  /-- LINK_TRAIN (R544): A Waimaco link trains through lock, deskew, TRAIN exchange and delay measurement, then goes UP. -/
  | linkTrain (k : Fin 8) (t : TrainInfo)
  /-- LINK_TRAIN_RETRY (R544): With no partner, training restarts every 100 ms. -/
  | linkTrainRetry (k : Fin 8)
  /-- LINK_DOWN (R544): Block lock lost for 1 ms, or 16 failed replays, takes a link DOWN and discards its held frames. -/
  | linkDown (k : Fin 8)
  /-- LINK_DELAY_MEASURE (R544): Every second, an UP link measures its cable delay again. -/
  | linkDelayMeasure (k : Fin 8) (delay : Word)
  /-- LINK_FRAME_RECEIVE (R546): A link frame is checked, acknowledged or NAKed, and delivered in sequence. -/
  | linkFrameReceive (k : Fin 8) (f : LinkFrame)
  /-- NAK (R546): A received NAK makes the sender replay every frame after the last good SEQ. -/
  | nak (k : Fin 8) (seq : BitVec 12)
  /-- IDLE (R554): Every 10 µs an IDLE frame with link time is sent, and received ones discipline WML_LTIME. -/
  | idle (k : Fin 8) (recv : Bool)
  /-- ROUTE (R553): ROUTE frames are exchanged every 1 ms and on changes, and parent and PLAT are updated. -/
  | route (k : Fin 8) (recv : Bool)
  /-- JOIN (R549): A JOIN frame is relayed or answered, and the first answer decides the join. -/
  | join (k : Fin 8)
  /-- TICK_FRAME (R555): A TICK frame is forwarded to children and scheduled to fire at FIRE. -/
  | tickFrame (k : Fin 8)
  /-- DOMAIN_TICK_FIRE (R555): Link time reaches FIRE, and the member ticks, applying COMMIT, ABORT or REALIGN. -/
  | domainTickFire
  /-- LEADER_TICK_EMIT (R555): The leader takes a source event and emits a TICK frame with FIRE and the swap flags. -/
  | leaderTickEmit
  /-- CATCH_UP_TICK (R556): A member behind the domain generates catch-up ticks 1,500 ns apart. -/
  | catchUpTick
  /-- BEACON (R557): A member sends its folded beacon once every child has reported, or 2 µs after its boundary. -/
  | beacon (k : Option (Fin 8))
  /-- LEADER_LOST (R552): No leader beacon for 16 frames or 10 ms, and the lowest reachable ID becomes leader. -/
  | leaderLost
  /-- SYNC_OP (R559): A remote SIGNAL, WAIT, CANCEL or answer arrives and is applied or forwarded. -/
  | syncOp (k : Fin 8)
  /-- REMOTE_WAIT_TIMEOUT (R559): A held remote wait reaches WML_RWTO ticks, or the origin's limit, and is answered or abandoned. -/
  | remoteWaitTimeout (w : WaitRef)
  /-- CONFIG_REQUEST (R583): A PCIe configuration request is performed, or completed with CRS before readiness. -/
  | configRequest (r : ConfigReq)
  /-- BAR4_ACCESS (R575): A BAR4 read or write reaches HBM3, SRAM or core windows, or is refused. -/
  | bar4Access (r : Bar4Req)
  /-- HOST_READ_COMPLETION (R578): A completion for a module host read arrives and delivers data or fails the read. -/
  | hostReadCompletion (f : Fin 32) (addr : Dword) (r : HostAnswer)
  /-- COMPLETION_TIMEOUT (R578): A host read times out and fails from its first undelivered byte. -/
  | completionTimeout (f : Fin 32) (addr : Dword) (len : Nat)
  /-- BUS_MASTER_ENABLE (R579): Bus Master Enable or D0 returns, and held replies then messages are released. -/
  | busMasterEnable (f : Fin 32)
  /-- MSIX_UNMASK (R581): Clearing a mask or setting MSI-X Enable sends the pending vectors. -/
  | msixUnmask (f : Fin 32) (what : Unmask)
  /-- HOST_RESET (R584): PERST#, hot reset or DL_Down resets every function as by FLR and clears VF Enable. -/
  | hostReset
  /-- FLR (R585): Function-level reset: requests stop, the ring is disabled, MSI-X is masked and the contexts are destroyed. -/
  | flr (f : Fin 32)
  /-- FLR_CONFIG_RESTORED (R585): Within 1 ms the function's configuration space is at its defaults and accepts requests. -/
  | flrConfigRestored (f : Fin 32)
  /-- PCIE_LINK_UP (R583): The PCIe link trains after PERST# deassertion, with CRS until readiness. -/
  | pcieLinkUp (speed : BitVec 3) (width : BitVec 4)
  /-- REGISTER_READ (R20): A register read whose access has behaviour of its own: an RC register returns its value and clears, and a low-half read of a 64-bit register snapshots the high half. -/
  | registerRead (a : RegAccess)
  /-- CXP_PACKET_RECEIVE (R509): A CoaXPress packet that is not the last packet of a line arrives: it is counted in CXP_DISCn and discarded, ignored as a heartbeat, or starts a line. -/
  | cxpPacketReceive (m : Fin 8) (x : CxpPacket)
  /-- CXP_CAMERA_ANSWER (R514): A camera answers discovery or a control transaction, completing CXP_CONFIG or CXP_CTRL, or extends the wait with a wait acknowledgement. -/
  | cxpCameraAnswer (p : Fin 8) (x : CamAnswer)
  /-- TRANSCEIVER_REMOVE (R617): A transceiver is removed from a cage: its link drops at once, and a cage switched off for overpower may be used again. -/
  | transceiverRemove (cage : Fin 4)
  /-- ETH_LINK_STATE (R566): An Ethernet port's physical link comes up or goes down with its partner, and ETH_STATp.LINK follows. -/
  | ethLinkState (port : Fin 2) (up : Bool)
  /-- DATAGRAM_TRANSMIT (R537): A queued result-stream datagram finishes leaving its port, frees a place in the 512-datagram queue and counts in ETH_RSSENTp. -/
  | datagramTransmit (port : Fin 2)
  /-- ENCODER_COUNTING_START (R522): At 5 ms after power good, encoder counting begins from web position 0, and the encoder supplies come on. -/
  | encoderCountingStart
  /-- STEWARD_START (R590): At 40 ms after power good or after a hard reset, the steward starts, the thermal and power trips are armed, and PCIe link training is enabled. -/
  | stewardStart
deriving DecidableEq, Repr

end Sys2Proof
end

