-- ==== Sys2Proof/Config.lean ====
section
/-! DEFINITION. What one module or its surroundings fix and the manual does not state: uninterpreted constants, with no body
(log entries 3, 4 and 5). Nothing in the model depends on a value of any of them. -/

namespace Sys2Proof

/-- What Moesor Thicket's header of a program image gives (04 R127, 08 R219): the entry bundle, the vectors (0 when the
header gives none), VXM and DSPM, the parcels, where code lies (start and length in parcels), and the initialised data
sections (core address and bytes). The form of the image is not in the manual. -/
structure ProgImage where
  entry : BitVec 16
  tvec : BitVec 16
  ivec1 : BitVec 16
  ivec2 : BitVec 16
  vxm : Bool
  dspm : Bool
  parcels : List (BitVec 14)
  code : List (Nat × Nat)
  data : List (Nat × List Byte)
deriving DecidableEq, Repr, Inhabited

/-- What the digest, the signature and the header of a steward image say (22 R593). -/
structure ImageFacts where
  authentic : Bool
  security : Nat
  advance : Bool
  version : Word
deriving DecidableEq, Repr, Inhabited

/-- The byte of host memory that the module has neither written nor been given by a completion. -/
opaque Config.hostByte : Nat → Byte

/-- The program that a program image holds (R127). -/
opaque Config.progImage : List Byte → ProgImage

/-- The byte offset at which the header check of a program image fails, if it does (R127). -/
opaque Config.progCheck : List Byte → Option Nat

/-- The byte offset in a program image of a parcel of its program memory (R267). -/
opaque Config.parcelOffset : List Byte → Nat → Nat

/-- The byte offset at which the check of a model image fails, if it does (R128). -/
opaque Config.modelCheck : List Byte → Option Nat

/-- Bytes of module memory for images (R127, R128). -/
opaque Config.imageMemory : Nat

/-- The draw in mW that a powered camera port measures at a time (19 R532). -/
opaque Config.portDraw : Nat → Nat → Word

/-- What a function's configuration space holds where the manual does not say (21 R571). -/
opaque Config.configWord : Nat → Nat → Word

/-- The FP32 sum of the products of two lists of FP32 words, where the order of the additions decides it (12 R324, R325). -/
opaque Config.fp32Sum : List Word → List Word → Word

/-- A 48-bit window accumulator whose exact value lies outside its range (14 R385). -/
opaque Config.acc48 : Int → BitVec 48

/-- An output of a window pass for a channel beyond the 128 of its quantisation block (14 R385, 13 R370): descriptor, channel, row,
column. -/
opaque Config.farOutput : List Word → Nat → Nat → Nat → BitVec 16

/-- A pooled value that the manual does not state (14 R386): of a window without elements, or outside its format. -/
opaque Config.poolValue : List Word → Nat → Nat → Nat → BitVec 16

/-- Whether the line-rate first layer adds the bias of its quantisation block: its descriptor has no BIAS field (14 R397, R406). -/
opaque Config.lineBias : Bool

/-- An element of the L*a*b* planes that a layer reads while colour conversion is off (14 R395): samples, plane, column. -/
opaque Config.labValue : List Nat → Nat → Nat → BitVec 16

/-- REASON of an outcome record for a wide descriptor that passes 12 R330 and fails 13 R363 otherwise. -/
opaque Config.wideReason : List Word → BitVec 6

/-- Bytes 12 to 15 of a COL_QUERY of a context's totals (04 R122): of a slot, at a time. -/
opaque Config.queryTotals : Nat → Nat → Word

/-- The level, modulo 3, that a return sets when the ESTAT register that it restores holds LVL 3 (08 R239, R249). -/
opaque Config.restoredLevel : Word → Nat

/-- Which entry a full translation cache gives up (06 R187): the cache, the address of the new entry, the time. -/
opaque Config.victim : Nat → Nat → Nat → Nat

/-- Where the steward puts a block of memory (04 R110): what it has allocated, the size, the alignment, the time. -/
opaque Config.blockPlace : List (Nat × Nat) → Nat → Nat → Nat → Nat

/-- Which contiguous counters SYN_ALLOC gives (04 R113): the counters in use, COUNT, the time. -/
opaque Config.counterPlace : List Nat → Nat → Nat → Nat

/-- SHA-256, as eight words from the lowest address on (20 R550, R558). -/
opaque Config.sha256 : List Byte → List Word

/-- What Kindling finds in a steward image (R593). -/
opaque Config.imageFacts : List Byte → ImageFacts

/-- The module's serial number, from the secure element (R646). -/
opaque Config.serial : Dword

/-- The MAC address of an Ethernet port, from the secure element (R566). -/
opaque Config.mac : Nat → Dword

/-- The Subsystem Vendor ID and Subsystem ID in configuration flash (R571). -/
opaque Config.subsystem : Word

end Sys2Proof
end

