-- ==== Sys2Proof/Machine/Tbl.lean ====
section
/-! DEFINITION. The two shapes in which State holds much of a kind: a sparse table in one canonical form (keys strictly
rising, no entry equal to what an unlisted key reads as), and byte strings of little-endian words (spec 00 R5). -/

namespace Sys2Proof.Machine

/-- A sparse table: entries by rising key. What an unlisted key reads as is the default its reader and writer name. -/
abbrev Tbl (α : Type) := List (Nat × α)

def Tbl.find {α : Type} : Tbl α → Nat → Option α
  | [], _ => none
  | (k', v) :: t, k => if k = k' then some v else Tbl.find t k

/-- The entry of key `k`, or the default `d`. -/
def Tbl.get {α : Type} (d : α) (t : Tbl α) (k : Nat) : α := (Tbl.find t k).getD d

/-- Removes what key `k` has. -/
def Tbl.del {α : Type} (t : Tbl α) (k : Nat) : Tbl α := t.filter (fun e => e.1 ≠ k)

/-- Inserts an entry before the first of a higher key. -/
def Tbl.insert {α : Type} : Tbl α → Nat → α → Tbl α
  | [], k, v => [(k, v)]
  | (k', v') :: t, k, v => if k < k' then (k, v) :: (k', v') :: t else (k', v') :: Tbl.insert t k v

/-- Inserts or replaces the entry of key `k`. The laws of reading after writing hold on every table, canonical or not
(Laws/Tbl.lean). -/
def Tbl.put {α : Type} (t : Tbl α) (k : Nat) (v : α) : Tbl α := Tbl.insert (Tbl.del t k) k v

/-- Sets key `k` to `v`: the entry goes when `v` is the default `d`, so equal tables are equal data. -/
def Tbl.set {α : Type} [DecidableEq α] (d : α) (t : Tbl α) (k : Nat) (v : α) : Tbl α :=
  if v = d then Tbl.del t k else Tbl.put t k v

/-- Removes every entry whose key lies in `[lo, hi)`. -/
def Tbl.clearRange {α : Type} (t : Tbl α) (lo hi : Nat) : Tbl α := t.filter (fun e => !(lo ≤ e.1 && e.1 < hi))

/-- The keys rise strictly from `lo` on and no entry is the default. -/
def Tbl.okFrom {α : Type} [DecidableEq α] (d : α) : Nat → Tbl α → Bool
  | _, [] => true
  | lo, (k, v) :: t => decide (lo ≤ k) && decide (v ≠ d) && Tbl.okFrom d (k + 1) t

/-- The canonical form of a table. -/
def Tbl.wf {α : Type} [DecidableEq α] (d : α) (t : Tbl α) : Bool := Tbl.okFrom d 0 t

/-- The numbers below `n`, rising. -/
def upTo (n : Nat) : List Nat := List.range n

/-- Applies `f` for each number below `n` in turn. -/
def iter {σ : Type} (n : Nat) (f : Nat → σ → σ) (s : σ) : σ := (List.range n).foldl (fun s i => f i s) s

/-- Bits `[lo+n-1 : lo]` of a word as a number. -/
def bits {w : Nat} (x : BitVec w) (lo n : Nat) : Nat := (x.toNat >>> lo) % 2 ^ n

/-- Bit `i` of a word. -/
def bit {w : Nat} (x : BitVec w) (i : Nat) : Bool := x.getLsbD i

/-- `x` with bits `[lo+n-1 : lo]` replaced by the low bits of `v`. -/
def setBits {w : Nat} (x : BitVec w) (lo n v : Nat) : BitVec w :=
  BitVec.ofNat w (x.toNat - (bits x lo n) * 2 ^ lo + (v % 2 ^ n) * 2 ^ lo)

/-- `x` with bit `i` set to `b`. -/
def setBit {w : Nat} (x : BitVec w) (i : Nat) (b : Bool) : BitVec w := setBits x i 1 b.toNat

/-- A list with element `i` replaced (unchanged when there is none). -/
def setAt {α : Type} (l : List α) (i : Nat) (v : α) : List α := l.set i v

/-- Element `i`, or the default. -/
def nth {α : Type} (d : α) (l : List α) (i : Nat) : α := l.getD i d

/-- Element `i` changed by `f`. -/
def modAt {α : Type} (l : List α) (i : Nat) (f : α → α) : List α := l.modify i f

/-- The position of the first element that satisfies `p`. -/
def firstIdx {α : Type} (l : List α) (p : α → Bool) : Option Nat := l.findIdx? p

/-- A number as `n` bytes, least significant first (R5). -/
def bytesOf : Nat → Nat → List Byte
  | 0, _ => []
  | n + 1, v => BitVec.ofNat 8 v :: bytesOf n (v / 256)

/-- The number that bytes hold, least significant first (R5). -/
def natOf : List Byte → Nat
  | [] => 0
  | b :: t => b.toNat + 256 * natOf t

/-- `n` bytes from offset `o` of a structure, as a number; bytes past its end count as 0. -/
def fieldOf (l : List Byte) (o n : Nat) : Nat := natOf ((l.drop o).take n)

/-- A 64-bit field of a structure. -/
def dwordAt (l : List Byte) (o : Nat) : Dword := BitVec.ofNat 64 (fieldOf l o 8)

/-- A 32-bit field of a structure. -/
def wordAt (l : List Byte) (o : Nat) : Word := BitVec.ofNat 32 (fieldOf l o 4)

/-- The signed value of the low `n` bits of `v`. -/
def signed (n v : Nat) : Int := if v % 2 ^ n < 2 ^ (n - 1) then (v % 2 ^ n : Nat) else (v % 2 ^ n : Nat) - (2 ^ n : Nat)

/-- The two's complement number of `n` bits that stands for `v`. -/
def wrap (n : Nat) (v : Int) : Nat := (v % (2 ^ n : Nat)).toNat

/-- `v` held between the two bounds. -/
def clampInt (lo hi v : Int) : Int := if v < lo then lo else if hi < v then hi else v

end Sys2Proof.Machine
end

