-- ==== Sys2Proof/Machine/State.lean ====
section
/-! DEFINITION. The state of the module: plain data, every piece the manual names, grouped by block, and the state after
reset (INVENTORY.md, State, lists each with its rule and its reset value). Register numbers that the register space holds
as plain words live in `Hw.regs` by their offset (24 R632, R633). -/

namespace Sys2Proof.Machine

/-- Why a step stops: no rule of the manual stops the block, so nothing raises it (safe: it never occurs). -/
inductive Fault where
  /-- Raised by no meaning; the type is closed and this is its one name (safe). -/
  | never
deriving DecidableEq, Repr

/-- Why a command has no meaning. -/
inductive Refusal where
  /-- Raised by an arm of `exec` whose command has no meaning yet, and by nothing else (safe: the machine stops). -/
  | notModelled (mnemonic : String)
deriving DecidableEq, Repr

/-! ### Module state and memory (00 R16, 17) -/

/-- The state of the module (R16). -/
inductive ModState where
  | off | kindling | ready | run | hold | ember | tripped
deriving DecidableEq, Repr

/-- The error state of one ECC granule (R467, R468): clean, a correctable error at a byte or bit position (`hard`: the
re-read still corrects), an uncorrectable error not yet found, or the poison pattern. -/
inductive Gran where
  | clean
  | correctable (pos : Nat) (hard : Bool)
  | uncorrectable
  | poison
deriving DecidableEq, Repr

/-- One entry of the memory error log (R481). -/
structure MemLogEntry where
  addr : Nat
  kind : Nat
  sram : Bool
  agent : Nat
  loc : Nat
  row : Nat
  synd : Nat
  slot : Nat
  frame : Nat
deriving DecidableEq, Repr

/-- One tracked row of corrected errors (R478): HBM3 or SRAM, pseudo-channel or 0, bank, row, count. -/
structure RowCount where
  sram : Bool
  pc : Nat
  bank : Nat
  row : Nat
  count : Nat
deriving DecidableEq, Repr

/-- The memories behind local addresses: HBM3 and shared SRAM bytes, granule errors (keyed by granule base, core memories
at their core-window addresses), the error log, the corrected-error tables in insertion order, the rows handed over and not
yet taken by Coppice, and the scrub position and pass count (R463 to R482). -/
structure MemBlock where
  cells : List Host.Cell := []
  gran : Tbl Gran := []
  log : List MemLogEntry := []
  rows : List RowCount := []
  scrubPos : Nat := 0
  scrubPass : Word := 0
deriving DecidableEq, Repr

/-! ### Address translation (06) -/

/-- A cached leaf translation (R187): which cache (0 to 17 the cores, 18 to 21 the DMA engines, 22 the Bastaef feed, 23
Hedgerow, 24 Privet, 25 the steward), its slot, page and leaf. -/
structure LeafEntry where
  cache : Nat
  slot : Nat
  page : Nat
  size : Nat
  out : Nat
  tgt : Nat
  rd : Bool
  wr : Bool
deriving DecidableEq, Repr

/-- A cached level 1 or level 2 table pointer of the shared walk cache (R187); `entryAddr` is where the pointer stands. -/
structure WalkEntry where
  slot : Nat
  level : Nat
  index : Nat
  table : Nat
  entryAddr : Nat
deriving DecidableEq, Repr

/-- One entry of the translation fault log (R194). -/
structure XlatLogEntry where
  va : Nat
  reason : Nat
  level : Nat
  write : Bool
  agent : Nat
  handle : Word
  entry : Word
deriving DecidableEq, Repr

/-- One run of backing memory that an ATU_MAP allocated for a page of a context (R110, R179). -/
structure Backing where
  slot : Nat
  va : Nat
  size : Nat
  base : Nat
deriving DecidableEq, Repr

/-- The translation unit: leaf caches and the walk cache (oldest first), the fault log, and what the steward allocated:
level 2 and level 3 tables (slot, base) and backing (R178 to R195). -/
structure AtuBlock where
  leaves : List LeafEntry := []
  walks : List WalkEntry := []
  log : List XlatLogEntry := []
  tables : List (Nat × Nat) := []
  backing : List Backing := []
deriving DecidableEq, Repr

/-! ### Rings (03) -/

/-- What a packet that has not yet replied waits for (R75 to R81 and its opcode's subsection). -/
inductive Waiting where
  /-- CTX_RESET or CTX_DESTROY of a slot, until the reset completes (R106, R165). -/
  | ctxReset (slot : Nat)
  /-- SYN_WAIT: counter, target, ticks left (R116). -/
  | synWait (index : Nat) (target : Dword) (ticks : Nat)
  /-- MODULE_STATE to EMBER, and back to READY (R99). -/
  | emberEntry
  | emberExit
  /-- CXP_CONFIG: discovery on the group's master port (R510). -/
  | discovery (port : Nat)
  /-- CXP_CTRL: a control transaction on a port (R514). -/
  | camCtrl (port : Nat)
  /-- DOMAIN_JOIN (R549). -/
  | join
  /-- DOMAIN_SWAP_ARM (R146). -/
  | domainSwap
deriving DecidableEq, Repr

/-- A packet that a ring executes and that has not replied: the packet and what it waits for. -/
structure Exec where
  packet : Packet
  waits : Waiting
deriving DecidableEq, Repr

/-- A command ring with its completion ring (R58 to R72, R84 to R86): its parameters, positions, pass, expected sequence
number, error bits and the packet in execution. -/
structure Ring where
  live : Bool := false
  intAll : Bool := false
  sqLog : Nat := 4
  cqLog : Nat := 4
  sqBase : Dword := 0
  cqBase : Dword := 0
  vec : Nat := 0
  startSeq : Word := 0
  seq : Word := 0
  sqHead : Nat := 0
  sqTail : Nat := 0
  cqHead : Nat := 0
  cqTail : Nat := 0
  phase : Bool := true
  tailErr : Bool := false
  cheadErr : Bool := false
  fetchErr : Bool := false
  exec : Option Exec := none
deriving DecidableEq, Repr

/-! ### Contexts (05) -/

/-- The state of a context slot (R17, R154). -/
inductive CtxState where
  | free | idle | live | faulted | resetting
deriving DecidableEq, Repr

/-- An output rule (R140): BASE 1 is module time; the encoder; the offset; the width in ns. -/
structure OutRule where
  byTime : Bool
  enc : Bool
  offset : Dword
  width : Word
deriving DecidableEq, Repr

/-- The staged objects of a context (R49): job table (index to the 16 descriptor words), program and model bindings (index
to image), output policy code and output rules. The scale tables come with the model bindings (R128). -/
structure Objects where
  jobs : Tbl (List Word) := []
  progs : Tbl Nat := []
  models : Tbl Nat := []
  policy : Nat := 0
  rules : Tbl OutRule := []
deriving DecidableEq, Repr

/-- An armed swap of one context (R50, R51, R123). -/
structure Swap where
  target : Nat
  keep : Bool
  counter : Nat
  committed : Bool
deriving DecidableEq, Repr

/-- What Collier keeps per job index (R200, R202): the age, the age before the last admission, the measured cost and the run count. -/
structure JobStat where
  age : Nat := 0
  prev : Nat := 0
  measured : Nat := 0
  runs : Nat := 0
deriving DecidableEq, Repr

/-- Which event started a reset, which decides what its completion does (R154, R165, R168, R169). -/
inductive ResetKind where
  | reset | destroy | flr
deriving DecidableEq, Repr

/-- A reset in progress (R162 to R165): its kind, the boundaries it still has to pass while ticks run, the generation its
packet named, the counts of R106, and the slots of the context's ring that a destruction still has to answer (R80). -/
structure ResetInfo where
  kind : ResetKind
  boundaries : Nat
  jobs : Nat := 0
  dma : Nat := 0
  bst : Nat := 0
  waiters : Nat := 0
  notices : Nat := 0
  passes : Nat := 0
  drain : Nat := 0
deriving DecidableEq, Repr

/-- A verdict to be entered at a coming verdict step (R164, R207): its code, the job, and at how many boundaries from now. -/
structure Owed where
  slot : Nat
  job : Nat
  count : Nat
  after : Nat
deriving DecidableEq, Repr

/-- A context slot (R151 to R174). -/
structure Ctx where
  state : CtxState := .free
  gen : Nat := 0
  owner : Nat := 0
  secure : Bool := false
  cause : Nat := 0
  detail : Nat := 0
  unit : Nat := 0
  multi : Bool := false
  fva : Dword := 0
  fframe : BitVec 48 := 0
  faultAt : Nat := 0
  maxJobs : Nat := 0
  maxDma : Nat := 0
  maxMbx : Nat := 0
  maxSyn : Nat := 0
  staged : Objects := {}
  active : Objects := {}
  pendingLive : Option Bool := none
  swap : Option Swap := none
  lastSwap : Nat := 0
  swapped : Bool := false
  stats : Tbl JobStat := []
  vbase : BitVec 14 := 0
  reset : Option ResetInfo := none
deriving DecidableEq, Repr

/-! ### Frame logic (02) -/

/-- Why the next tick falls: a source event, a stall, a lost domain source, a domain tick, a catch-up tick. -/
inductive TickKind where
  | source | stall | srcLost | domain | catchUp
deriving DecidableEq, Repr

/-- The frame logic (R29 to R57). `lost` is the length of the ticks generated under R38, `tailBegun` whether this frame's
tail has begun; `due` is the tick that has been decided and not yet fallen; FRM_STAT's W1C bits and
FRM_CUTOFF are in `Hw.regs`. -/
structure FrmBlock where
  running : Bool := false
  waiting : Bool := false
  stopPending : Bool := false
  fnum : BitVec 48 := 0
  tickTime : Dword := 0
  tickPos : BitVec 48 := 0
  lastLen : Nat := 0
  countFrom : Nat := 0
  lastTick : Nat := 0
  ticked : Bool := false
  lines : Int := 0
  lastLines : Nat := 0
  due : Option (TickKind × Nat) := none
  after : Option TickKind := none
  fixedPlan : Bool := false
  longFrames : Nat := 0
  planAge : Nat := 0
  domainSeen : Bool := false
  lost : Option Nat := none
  tailBegun : Bool := false
  pendingState : Option ModState := none
deriving DecidableEq, Repr

/-! ### Collier (07) -/

/-- One admitted job (R204, R206): its units, and those of the second half when it runs paired. -/
structure Admit where
  slot : Nat
  job : Nat
  cls : Nat
  prio : Nat
  cores : List Nat
  arrays : List Nat
  cores2 : List Nat
  arrays2 : List Nat
  paired : Bool
  charge : Nat
deriving DecidableEq, Repr

/-- One item of the steward's C3 work (R206): the next steps of a Coppice test of a unit, or a scrub item of a size. -/
inductive C3Item where
  | test (unit : Nat) (steps : Nat)
  | scrub (size : Nat)
deriving DecidableEq, Repr

/-- The result of one admission, as FRAME_TAIL leaves it for the boundary (R196 to R208). -/
structure Plan where
  jobs : List Admit := []
  items : List C3Item := []
  late : List (Nat × Nat) := []
  missed : List (Nat × Nat) := []
  leftC1 : List (Nat × Nat) := []
  point : Nat := 0
  budget : Nat := 0
  palow : Nat := 0
  pred : BitVec 16 := 0
  resv : Nat := 0
  admitted : Nat := 0
  woken : List Nat := []
  tFrame : Nat := 0
deriving DecidableEq, Repr

/-- Collier: the plan of the current frame and its items not yet run in this frame, the admission made for the next, the operating point in force and one waiting for
its rail, the meters (R201), the energy attributed to each running job (key slot × 64 + job), the wake and wide energy of
the frame, each unit's idle frames (units 0 to 17 the vector units, 18 to 21 the arrays), gate and wake. -/
structure ColBlock where
  plan : Plan := {}
  itemsLeft : List C3Item := []
  itemAges : Tbl Nat := []
  next : Option Plan := none
  point : Nat := 0
  raising : Option Nat := none
  pstatic : Nat := 0
  fen : Nat := 0
  meters : List Nat := List.replicate 24 0
  atTick : List Nat := List.replicate 24 0
  history : List Nat := []
  sampledAt : Nat := 0
  sensedAt : Nat := 0
  jobEnergy : Tbl Nat := []
  frameJobs : Nat := 0
  frameWakes : Nat := 0
  frameWide : Nat := 0
  idle : Tbl Nat := []
  gated : List Nat := []
  waking : List Nat := []
  struck : Nat := 0
  hot : BitVec 16 := 0
  hotIndex : Nat := 0
  hotRaw : Option Nat := none
  plate : BitVec 16 := 0
  pred : BitVec 16 := 0
  samples : List (List (BitVec 16)) := []
  pstaticAt : Nat := 0
deriving DecidableEq, Repr

/-! ### Sync counters and mailboxes (16) -/

inductive CounterState where
  | free | owned | frozen
deriving DecidableEq, Repr

/-- A sync counter (R434, R457). -/
structure Counter where
  value : Dword := 0
  state : CounterState := .free
  slot : Nat := 0
  remote : Bool := false
deriving DecidableEq, Repr

/-- A mailbox channel (R445 to R461): who holds its endpoints, its receiver mode, the sender's slots and states, the
receiver's slots and registers, the notices accepted and not yet delivered, in order, and the slots whose notice came from a
sender that has closed since (R454). -/
structure Channel where
  sender : Option Nat := none
  receiver : Option Nat := none
  poll : Bool := false
  sptr : Tbl Dword := []
  sstate : Tbl Nat := []
  srefused : Word := 0
  ssig : Word := 0
  rptr : Tbl Dword := []
  rword : Tbl Word := []
  db : Word := 0
  mask : Word := 0
  route : Word := 0
  rsig : Word := 0
  flight : List (Nat × Dword × Word) := []
  stale : Word := 0
deriving DecidableEq, Repr

/-! ### Fintoic cores (08 to 11) -/

/-- A Bastaef tag of a core (R289 to R294). -/
inductive TagState where
  | free
  | busy
  | done (status : Word) (quiet : Bool)
deriving DecidableEq, Repr

/-- A command that `bq.issue` put in the core's queue and the feed has not bound (R290, R329): tag, the descriptor's context
virtual address, control word, its place in the core's issue order, and its issue number on its tag (R367). -/
structure QueuedCmd where
  tag : Nat
  va : Nat
  ctl : Word
  order : Nat
  nth : Nat
deriving DecidableEq, Repr

/-- An armed entry of the core's wait table (R439): the sa operand and the target. -/
structure ArmedWait where
  sa : Word
  target : Dword
deriving DecidableEq, Repr

/-- A multi-element vector instruction between its first element and its last (R242): its bundle's address and length in
parcels, the target of a branch that the bundle took, the operation, the latched base address, and the next element. -/
structure VRun where
  pc : BitVec 16
  len : Nat
  target : Option (BitVec 16)
  op : CoreOp
  base : Word
  elem : Nat
deriving DecidableEq, Repr

/-- The registers that the fast level switches (R238): s24 to s31, p1 to p7, g12 to g15 and the loop registers. -/
structure Bank where
  s : Tbl Word := []
  p : Tbl Bool := []
  g : Tbl Word := []
  lc0 : Word := 0
  lc1 : Word := 0
  ls0 : BitVec 16 := 0
  ls1 : BitVec 16 := 0
  le0 : BitVec 16 := 0
  le1 : BitVec 16 := 0
deriving DecidableEq, Repr

/-- A loop register write that end checks do not see yet (R230): selector, value and bundles to go. -/
structure LateLoop where
  sel : Nat
  value : Word
  left : Nat
deriving DecidableEq, Repr

/-- Which run a core is in: none, a job's run (R219), or a diagnostic run (R642). -/
inductive RunKind where
  | none
  | job
  | diag
deriving DecidableEq, Repr

/-- A physical Fintoic core (R219 to R251). Register files are sparse tables (unlisted: 0, false); `cr` holds the control
registers by number; `ctlNew` and `winNew` hold writes that await `csync`; `x`, `y`, `pm` are the memories and `fetch` the
program memory as instruction fetch sees it (R228); `slots` is the bundle being gathered, `stall` a bundle that stalls, `synWait` the wait
of its `syn.wait` at the SYN block, `rcLoop` the loop that the repeat cache serves, `waking` a wake that the program caused, and `synEnded` that this wait has ended (R438). -/
structure Core where
  run : RunKind := .none
  ran : Bool := false
  halted : Bool := false
  slot : Nat := 0
  job : Nat := 0
  half : Nat := 0
  rank : Nat := 0
  cores : Nat := 0
  pc : BitVec 16 := 0
  s : Tbl Word := []
  p : Tbl Bool := []
  g : Tbl Word := []
  m : Tbl Word := []
  a : Tbl (BitVec 56) := []
  lc0 : Word := 0
  lc1 : Word := 0
  ls0 : BitVec 16 := 0
  ls1 : BitVec 16 := 0
  le0 : BitVec 16 := 0
  le1 : BitVec 16 := 0
  late : List LateLoop := []
  v : Tbl Vec := []
  k : Tbl (BitVec 128) := []
  w : Tbl (BitVec 3072) := []
  shadow : Bank := {}
  cr : Tbl Word := []
  ctlNew : Option Word := none
  winNew : Tbl Word := []
  crSnap : Tbl Word := []
  crHeld : Tbl Word := []
  x : Tbl Byte := []
  y : Tbl Byte := []
  pm : Tbl (BitVec 14) := []
  fetch : Tbl (BitVec 14) := []
  image : Option Nat := none
  rcLoop : Option (Nat × Nat) := none
  rcCount : Nat := 0
  rcFull : Bool := false
  tags : Tbl TagState := []
  queue : List QueuedCmd := []
  orders : Nat := 0
  tagIssues : Tbl Nat := []
  doneOrders : List Nat := []
  waits : List ArmedWait := []
  synWait : Option (Word × Dword) := none
  synEnded : Bool := false
  slots : List Slot := []
  stall : Option (List Slot) := none
  vrun : Option VRun := none
  digest : Dword := 0
  cycleFrac : Nat := 0
  dbgPc : BitVec 16 := 0
  trapped : Bool := false
  waking : Bool := false
deriving DecidableEq, Repr

/-! ### Bastaef arrays (12, 13) -/

/-- A command bound to an array (R329): the issuing core, tag, control word, order in its core, run half, issue number on
its tag (R367), the copies of the descriptor and of the quantisation block's header, and the pages that the feed translated
(context page and local page of 4 KiB). -/
structure BstCmd where
  core : Nat
  rank : Nat
  tag : Nat
  ctl : Word
  order : Nat
  nth : Nat
  slot : Nat
  job : Nat
  half : Nat
  desc : List Word
  head : List Word
  pages : Tbl Nat
deriving DecidableEq, Repr

/-- Where a started command stands (R362 to R367): its narrow run, a request waiting for Collier, its wide run, a narrow run
that waits for its match in the other half, or everything written. -/
inductive BstPhase where
  | narrow
  | request
  | wide
  | held
  | finished
deriving DecidableEq, Repr

/-- What one run of a command, narrow or wide, leaves: its cycles and those of its tiles, the writes not yet due (time, local
address, bytes), the CRC of its C bytes, its status word, FITMISS, QNT_AMAX and what it adds to the array's counts. -/
structure BstOut where
  cycles : Nat := 0
  tiles : Nat := 0
  rows : List (Nat × Nat × List Byte) := []
  crc : Dword := 0
  status : Word := 0
  fit : Bool := false
  stats : Bool := false
  amax : Dword := 0
  escIn : Nat := 0
  unmatched : Nat := 0
  escOut : Nat := 0
  sat : Nat := 0
deriving DecidableEq, Repr

/-- A wide descriptor that passed its checks (R363): its words, its block's header and the pages translated for both. -/
structure WideCmd where
  desc : List Word
  head : List Word
  pages : Tbl Nat
deriving DecidableEq, Repr

/-- A command that runs on an array (R362 to R369): where it stands, when the run in hand started and what it leaves, the status
word to place, the CRC of its C, whether its narrow run had FITMISS, where RESULT lies; and its widening: the outcome, WIDEMISS, the reason, the cost,
the wide command and when its request was made. -/
structure BstRun where
  cmd : BstCmd
  phase : BstPhase
  startAt : Nat
  out : BstOut
  status : Word := 0
  crc : Dword := 0
  fit : Bool := false
  result : Nat := 0
  outcome : Option Nat := none
  widemiss : Bool := false
  reason : Nat := 0
  cost : Nat := 0
  wide : Option WideCmd := none
  askedAt : Nat := 0
deriving DecidableEq, Repr

/-- A command of a half of a PAIRED run that has finished its narrow run, or completed without one, and holds no array (R367). -/
structure PairEnd where
  slot : Nat
  job : Nat
  half : Nat
  rank : Nat
  tag : Nat
  nth : Nat
  fit : Bool
deriving DecidableEq, Repr

/-- A Bastaef array (R321 to R338, R346): bound commands not started, in order of binding, the running command, the rank last
served, the drain of R338, and the column registers of R351 (scale word, zero point). -/
structure BstArray where
  bound : List BstCmd := []
  run : Option BstRun := none
  lastRank : Nat := 0
  drain : Option (Nat × Nat) := none
  columns : Tbl (BitVec 24) := []
  amax : Dword := 0
  busy : Dword := 0
  stall : Dword := 0
deriving DecidableEq, Repr

/-! ### Hedgerow and Privet (14) -/

/-- A submitted pass (R375): its submitting core and run, its class, its descriptor address, its place in submission order
at its core, its words as read at acceptance (the descriptor's 32, then the 16 of its quantisation block's header for the modes that use
one), and the pages that its operands translate to. -/
structure Pass where
  slot : Nat
  job : Nat
  half : Nat
  core : Nat
  cls : Nat
  va : Nat
  order : Nat
  words : List Word
  pages : Tbl Nat
deriving DecidableEq, Repr

/-- One pipe of a window engine (R383, R390): the running pass, when it started, the output rows computed and not yet
written (completion cycle, local address, bytes), its status word, and the pass that it drains. -/
structure Pipe where
  pass : Option Pass := none
  startAt : Nat := 0
  rows : List (Nat × Nat × List Byte) := []
  status : Word := 0
  cycles : Nat := 0
  drain : Option (Nat × Nat) := none
  busy : Dword := 0
  stall : Dword := 0
deriving DecidableEq, Repr

/-- A window engine (R376, R380): submissions not yet accepted, accepted passes in order, its pipes, the submissions that
each core made and those of them that completed. -/
structure WinEngine where
  waiting : List Pass := []
  queue : List Pass := []
  pipes : List Pipe := []
  orders : Tbl Nat := []
deriving DecidableEq, Repr

/-- A line in a line-rate channel's FIFO (R394, R398): the frame it is stamped with, its width in pixels, whether its samples
are U16, its channels, and its samples in channel order. -/
structure QueuedLine where
  frame : Nat
  width : Nat
  wide : Bool
  cin : Nat
  samples : List Nat
deriving DecidableEq, Repr

/-- A Privet line-rate channel (R393 to R400, R409): the copies of its control and descriptor address that were active at the
last boundary, the descriptor and the W, Q and colour blocks as the last reload read them, the FIFO, the last rows of each
layer input channel (newest row first), the counts of R409 and of the frame in hand, the flags of that frame's entry and of
the next one's, and the frame that is to be closed; `pages` are the translated operand pages, and `stopping` says that the
channel stops when that frame is closed. -/
structure LineChan where
  running : Bool := false
  reload : Bool := false
  err : Bool := false
  reason : Nat := 0
  owner : Option Nat := none
  ctl : Word := 0
  desc : Dword := 0
  words : List Word := []
  wblk : List Byte := []
  qblk : List Byte := []
  cblk : List Byte := []
  fifo : List QueuedLine := []
  window : List (List (List Int)) := []
  rows : Dword := 0
  lines : Dword := 0
  frameRows : Nat := 0
  frameLines : Nat := 0
  flags : Nat := 0
  nextFlags : Nat := 0
  closing : Option Nat := none
  stopping : Bool := false
  pages : Tbl Nat := []
deriving DecidableEq, Repr

/-- Both window engines and the line-rate channels. -/
structure WinBlock where
  hdg : WinEngine := ⟨[], [], [⟨none, 0, [], 0, 0, none, 0, 0⟩, ⟨none, 0, [], 0, 0, none, 0, 0⟩, ⟨none, 0, [], 0, 0, none, 0, 0⟩, ⟨none, 0, [], 0, 0, none, 0, 0⟩], []⟩
  prv : WinEngine := ⟨[], [], [⟨none, 0, [], 0, 0, none, 0, 0⟩], []⟩
  chans : Tbl LineChan := []
deriving DecidableEq, Repr

/-! ### DMA (15) -/

inductive ChanState where
  | free | idle | running | parked | error
deriving DecidableEq, Repr

/-- An error found on a source or at a beat, which takes effect when the bytes before it are written (R422): a descriptor
error code, or a translation fault at an address. -/
inductive ChanErr where
  | code (c : Nat)
  | xlat (detail : Nat) (va : Nat)
deriving DecidableEq, Repr

/-- A DMA channel (R410 to R433): `words` is the copy of the descriptor in progress (empty before it is fetched), `rd` and
`wr` count stream bytes read and written, `stage` holds the beats read and not yet written, bytes with their poison, `granted`
counts the stream bytes that bursts granted so far cover, `rdLeft` and `wrLeft` the bytes left of a burst begun on a port, and
`entry` is the index table entry in use, by its number. -/
structure DmaChan where
  state : ChanState := .free
  recheck : Bool := false
  armed : Bool := false
  seenLow : Bool := false
  prio : Nat := 0
  slot : Nat := 0
  err : Nat := 0
  desc : Dword := 0
  words : List Word := []
  rd : Nat := 0
  wr : Nat := 0
  stage : List (List (Byte × Bool)) := []
  granted : Nat := 0
  rdLeft : Nat := 0
  wrLeft : Nat := 0
  entry : Option (Nat × Nat) := none
  pend : Option ChanErr := none
  done : Word := 0
deriving DecidableEq, Repr

/-- A DMA engine (R421, R432): the channel that its read and its write port served last, that of each priority, and its cycle
count. -/
structure DmaEngine where
  rdHold : Option Nat := none
  wrHold : Option Nat := none
  rdLast : Tbl Nat := []
  wrLast : Tbl Nat := []
  busy : Dword := 0
deriving DecidableEq, Repr

/-- The DMA block: channels, engines, the held lines' counts (lines 0 to 15), the cycle in which a held line dropped after a
grant, and until when a pulse line is high (R419, R431). -/
structure DmaBlock where
  chans : Tbl DmaChan := []
  engines : Tbl DmaEngine := []
  held : Tbl Nat := []
  dropped : Tbl Nat := []
  pulse : Tbl Nat := []
deriving DecidableEq, Repr

/-! ### Coppice (18) -/

/-- What Coppice holds of one unit (R490, R491): consecutive failed tests, whether an event made it suspect without a test
since, whether it is confirmed (and from which admission on it may be remapped), whether it has passed a test since
power-up, the steps left of a test begun, and whether a step of it has failed. -/
structure UnitRec where
  count : Nat := 0
  marked : Bool := false
  confirmed : Bool := false
  passed : Bool := false
  left : Nat := 0
  bad : Bool := false
deriving DecidableEq, Repr

/-- A confirmed unit waiting for its boundary (R491): `tail` tells whether a frame tail has begun since. -/
structure Remap where
  unit : Nat
  tail : Bool
deriving DecidableEq, Repr

/-- One entry of the Coppice log (R506). -/
structure CpcLogEntry where
  unit : Nat
  event : Nat
  count : Nat
  repl : Nat
  fnum : BitVec 48
deriving DecidableEq, Repr

/-- A shadow copy of an SRAM bank in progress (R497): logical bank, old and new physical bank, and whether the copy has
finished and a tail has begun since. -/
structure BankCopy where
  logical : Nat
  old : Nat
  new : Nat
  copied : Bool
  tail : Bool
deriving DecidableEq, Repr

/-- Coppice (R484 to R507). Units are keyed by unit ID (R505). `columns`, `lanes` and `banks` give the physical unit of
each logical one, keyed array × 64 + column, core × 64 + lane, bank (a missing key: no physical unit); `inService` lists the
physical cores in service and `arrays` the arrays. -/
structure CpcBlock where
  units : Tbl UnitRec := []
  suspects : List Nat := []
  factory : List Nat := []
  field : List Nat := []
  unstored : List Nat := []
  pending : List Remap := []
  columns : Tbl Nat := []
  lanes : Tbl Nat := []
  banks : Tbl Nat := []
  inService : List Nat := []
  spareCores : List Nat := []
  retired : List Nat := []
  arrays : List Nat := []
  copy : List BankCopy := []
  retiredBanks : List Nat := []
  spareRows : Tbl Nat := []
  badBanks : List Nat := []
  hbmUsed : Tbl Nat := []
  rowMap : Tbl Nat := []
  hbmRepairs : Nat := 0
  remaps : Word := 0
  usedColumns : Nat := 0
  usedLanes : Nat := 0
  usedCores : Nat := 0
  usedBanks : Nat := 0
  autoRemap : Bool := true
  testShare : Nat := 25
  sweep : Nat := 0
  log : List CpcLogEntry := []
  sysUnits : Word := 0
deriving DecidableEq, Repr

/-! ### Cameras (19) -/

/-- One stamp of a trigger (R518): module time and web position. -/
structure Stamp where
  time : Dword
  pos : BitVec 48
deriving DecidableEq, Repr

/-- A camera port (R508 to R519, R531, R532). On a group master: its owner handle, line count, the trigger stamps, the last
trigger, the division count, and the line in progress (its stamp at the first packet). -/
structure CamPort where
  link : Bool := false
  master : Bool := false
  links : Nat := 0
  speed : Nat := 0
  masterPort : Nat := 0
  powered : Bool := false
  noDev : Bool := false
  disc : Nat := 0
  owner : Word := 0
  lseq : Dword := 0
  stamps : List Stamp := []
  lastTrig : Option Nat := none
  divCount : Int := 0
  line : Option Stamp := none
  deadline : Nat := 0
  bound : Nat := 0
deriving DecidableEq, Repr

/-- The camera block: ports, the line slots and records as bytes of the CXP block (R519, R531), and the trigger packets sent,
newest first (module time and port). -/
structure CxpBlock where
  ports : Tbl CamPort := []
  bytes : Tbl Byte := []
  sent : List (Nat × Nat) := []
deriving DecidableEq, Repr

/-! ### Encoders, inputs and outputs (19) -/

/-- An encoder: its A and B levels as last valid, and its web position (R520 to R522). -/
structure Encoder where
  a : Bool := false
  b : Bool := false
  pos : BitVec 48 := 0
  edgeAt : Nat := 0
deriving DecidableEq, Repr

/-- When a pulse fires (R527): at a web position of an encoder, or at a module time. -/
inductive PulseAt where
  | position (enc : Bool) (pos : BitVec 48)
  | time (t : Dword)
deriving DecidableEq, Repr

/-- A pending output pulse (R527, R528); `due` tells that its position has been reached. -/
structure Pulse where
  at_ : PulseAt
  width : Nat
  due : Bool
deriving DecidableEq, Repr

/-- A web output (R527 to R530, R534): its bound context, a binding change waiting for the boundary,
whether the bound context is destroyed (its binding ends at the boundary), queued pulses, the end of an active pulse, and a forced level with its end (R141). -/
structure Output where
  bound : Option Nat := none
  pending : Option (Option Nat) := none
  orphan : Bool := false
  queue : List Pulse := []
  activeUntil : Option Nat := none
  forced : Option (Bool × Nat) := none
deriving DecidableEq, Repr

/-- A posted verdict of a run (R524, R533). -/
structure Post where
  slot : Nat
  job : Nat
  half : Nat
  index : Nat
  fail : Bool
  output : Nat
  ref : BitVec 48
deriving DecidableEq, Repr

/-- The last verdict of an index that was entered (R525, R526): its output and whether its action was a pulse. -/
structure LastVerdict where
  output : Nat
  pulse : Bool
deriving DecidableEq, Repr

/-- A completed run's verdicts waiting for their verdict step (R524, R525, R501, R368): complete, disputed, degraded. -/
structure RunResult where
  slot : Nat
  job : Nat
  complete : Bool
  disputed : Bool
  degraded : Bool
deriving DecidableEq, Repr

/-- A verdict as entered in the output scheduler at the last boundary: context, job, index, code of R18 as the result stream
numbers it, cause, output, REF and action (R526, R561). -/
structure Verdict where
  slot : Nat
  job : Nat
  index : Nat
  code : Nat
  cause : Nat
  output : Nat
  ref : BitVec 48
  action : Nat
deriving DecidableEq, Repr

/-- Encoders, isolated inputs (raw and filtered levels), outputs and verdicts (R520 to R534). `capture` keeps the module
time and encoder positions latched at the last ticks, newest first, for R525 and R527. -/
structure WebBlock where
  enc : Tbl Encoder := []
  counting : Bool := false
  raw : BitVec 8 := 0
  filtered : BitVec 8 := 0
  posts : List Post := []
  results : List RunResult := []
  owed : List Owed := []
  last : Tbl LastVerdict := []
  outputs : Tbl Output := []
  verdicts : List Verdict := []
  capture : List (Dword × BitVec 48 × BitVec 48) := []
deriving DecidableEq, Repr

/-! ### Ethernet, PTP and the Waimaco link (20) -/

/-- A result-stream datagram as its header and records will go out (R560, R561). -/
structure Datagram where
  dseq : Word
  fnum : BitVec 48
  tickTime : Dword
  flags : Byte
  part : Nat
  records : List (List Byte)
deriving DecidableEq, Repr

/-- An Ethernet port (R535 to R538, R566): its link, enable and rate, its result-stream destination, the datagrams queued and
the next DSEQ, whether one was lost since the last sent, and the replies sent to partners, newest first. -/
structure EthPort where
  link : Bool := false
  enabled : Bool := false
  rate : Bool := false
  destIp : Word := 0
  destUdp : Nat := 0
  queue : List Datagram := []
  dseq : Word := 0
  gap : Bool := false
  sent : List (List Byte) := []
deriving DecidableEq, Repr

/-- The PTP clock and module time (R539 to R542, R567): `time` is module time in nanoseconds and `timeFrac` the billionths of one
that the rate correction has left over. -/
structure PtpBlock where
  time : Dword := 0
  timeFrac : Int := 0
  role : Nat := 0
  peerDelay : Bool := false
  domain : Nat := 0
  mask : Nat := 0
  offset : Int := 0
  mpd : Word := 0
  freq : Int := 0
  master : Dword := 0
  hasMaster : Bool := false
  measured : Bool := false
  slavePort : Nat := 0
  fault : Bool := true
  good : Nat := 0
  holdover : Option Nat := none
  states : List Nat := [7, 7]
  announces : Nat := 0
  syncsSent : Nat := 0
deriving DecidableEq, Repr

/-- The state of a link (R544, R549). -/
inductive LinkState where
  | down | train | up | foreign
deriving DecidableEq, Repr

/-- A Waimaco link (R543 to R547, R568): state, partner, delay, the next SEQ to send and the next expected, frames sent and
not acknowledged (oldest first), failed replays in a row, credits held per virtual lane, frames waiting to be sent, credits to
return, frames accepted and not yet acted on, frames sent (newest first), the partner's last ROUTE, whether the partner is a
child and the members behind it, its last beacon, the last link time received, and the lane of 4 to 7 served last. -/
structure Link where
  state : LinkState := .down
  partner : Nat := 0
  delay : Word := 0
  txSeq : Nat := 0
  rxSeq : Nat := 0
  replay : List (Nat × LinkPayload) := []
  fails : Nat := 0
  credits : List Nat := [16, 16, 16, 16, 64, 64, 64, 64]
  waiting : List LinkPayload := []
  giveBack : List Nat := [0, 0, 0, 0, 0, 0, 0, 0]
  inbox : List LinkPayload := []
  sent : List LinkFrame := []
  neighbour : Option RoutePayload := none
  child : Bool := false
  subtree : List Nat := []
  beacon : Option BeaconPayload := none
  idleTime : Option Dword := none
  lastVl : Nat := 7
deriving DecidableEq, Repr

/-- A remote wait held for another module (R559): where it came from and on which link, its WAITID, counter, target and the
ticks it has been held. -/
structure HeldWait where
  origin : Nat
  waitId : Nat
  index : Nat
  target : Dword
  ticks : Nat
deriving DecidableEq, Repr

/-- A remote wait of this module's own (R559): its WAITID, the core whose `syn.wait` stalls or whose armed entry it serves,
the module and counter, and its ticks. -/
structure OutWait where
  waitId : Nat
  core : Nat
  armed : Bool
  sa : Word
  target : Dword
  ticks : Nat
deriving DecidableEq, Repr

/-- An armed domain swap of this module (R146, R558). -/
structure DomainSwap where
  target : Nat
  keep : Bool
  counter : Nat
  slots : List Nat
deriving DecidableEq, Repr

/-- A join in progress (R549): the module ID asked for, the links asked, the digest, and its deadline. -/
structure Joining where
  id : Nat
  links : List Nat
  digest : List Word
  deadline : Nat
deriving DecidableEq, Repr

/-- The Waimaco domain (R548 to R565, R568): membership, the tree and link time; TICK frames that wait for their FIRE, the
catch-up target, and what the tick that is due carries (`commit`, `abort`, `realign`, and `matched`: its number is this module's
next); the last ROUTE latency of each member; beacons, the domain swap, the join in progress and the joins relayed for others;
and remote waits. -/
structure WmlBlock where
  links : Tbl Link := []
  joined : Bool := false
  id : Nat := 0
  digest : List Word := []
  leader : Nat := 0
  isLeader : Bool := false
  members : List Nat := []
  plats : Tbl Nat := []
  major : Nat := 0
  minor : Nat := 0
  depth : Nat := 0
  plat : Nat := 0
  parent : Option Nat := none
  dlat : Nat := 200
  dlatNext : Nat := 200
  ltime : Dword := 0
  ticks : List TickPayload := []
  lastFire : Option Dword := none
  unsync : Bool := false
  unsyncHist : List Bool := []
  catchup : Option Nat := none
  holding : Bool := false
  commit : Bool := false
  abort : Bool := false
  realign : Bool := false
  matched : Bool := false
  sourceEvent : Option Dword := none
  heardAt : Nat := 0
  beaconAt : Nat := 0
  beaconFrames : Nat := 0
  sentBeacon : Bool := true
  down : Option BeaconPayload := none
  swap : Option DomainSwap := none
  latch : Bool := false
  lastSwap : Nat := 0
  activeSlots : List Nat := []
  joining : Option Joining := none
  leaving : Bool := false
  relays : List (Nat × Nat) := []
  held : List HeldWait := []
  outs : List OutWait := []
  nextWait : Nat := 0
deriving DecidableEq, Repr

/-! ### PCI Express host interface (21) -/

/-- An MSI-X table entry (R580, R581). -/
structure MsixEntry where
  addrLo : Word := 0
  addrHi : Word := 0
  data : Word := 0
  masked : Bool := true
deriving DecidableEq, Repr

/-- Something a function holds while it may not master the bus (R579): a reply (host address and its 32 bytes), or a request
of a vector by a reply or by a PF event. -/
inductive HeldReq where
  | reply (addr : Dword) (bytes : List Byte)
  | vector (v : Nat)
  | event (v : Nat)
deriving DecidableEq, Repr

/-- A PCIe function (R572, R579 to R586). `flr`: an FLR still has contexts to free (R586); `cfgBusy` until its
configuration space is restored (R585). -/
structure Func where
  busMaster : Bool := false
  memSpace : Bool := false
  d3hot : Bool := false
  msixOn : Bool := false
  funcMask : Bool := false
  table : Tbl MsixEntry := []
  pending : Dword := 0
  held : List HeldReq := []
  flr : Bool := false
  cfgBusy : Bool := false
deriving DecidableEq, Repr

/-- A message or write that left the module, newest first in `PciBlock.out`: an MSI-X message (address and data). -/
structure SentMessage where
  func : Nat
  addr : Dword
  data : Word
deriving DecidableEq, Repr

/-- The host interface (R569 to R589). `hostMem` is what the module has read from or written to host memory (an unlisted byte
is the host's own, `Config.hostByte`); `hostBad` the bytes whose read failed, by kind. `trainOn`: link training is enabled; `crs`: configuration requests still get CRS
(R583); `answer` is what the last configuration read returned, `bar4` what the last BAR4 read returned, with whether it was
poisoned; none for a request that was not performed. -/
structure PciBlock where
  funcs : Tbl Func := []
  up : Bool := false
  speed : Nat := 0
  width : Nat := 0
  trainOn : Bool := false
  crs : Bool := true
  vfEnable : Bool := false
  numVfs : Nat := 0
  hostMem : Tbl Byte := []
  hostBad : Tbl Nat := []
  out : List SentMessage := []
  answer : Option Word := none
  bar4 : Option (List Byte × Bool) := none
deriving DecidableEq, Repr

/-! ### Power-up, resets and the system block (22, 24) -/

/-- What Kindling found in one flash slot (R592, R593): whether an image stands there, its digest and signature verify, its
security version, whether it asks to advance the rollback counter, its firmware version and its bytes' identity. -/
structure FlashSlot where
  present : Bool := true
  authentic : Bool := true
  security : Nat := 0
  advance : Bool := false
  version : Word := 0
deriving DecidableEq, Repr

/-- One entry of the steward log (R611). -/
structure StewardEntry where
  time : Dword
  event : Nat
  detail : Nat
  data : Word
deriving DecidableEq, Repr

/-- A cage and its transceiver (R617); `off`: its supply was switched off for a draw above the declared power. -/
structure Cage where
  plugged : Option Transceiver := none
  off : Bool := false
deriving DecidableEq, Repr

/-- Power, reset and boot state (R590 to R612, R646). -/
structure SysBlock where
  state : ModState := .kindling
  booting : Bool := true
  recovery : Bool := false
  fuseFail : Bool := false
  unpowered : Bool := false
  attempts : Nat := 0
  everReady : Bool := false
  stewardOn : Bool := false
  armedTrips : Bool := false
  hardArm : Option Nat := none
  tripCause : BitVec 3 := 0
  acked : Bool := false
  clearSince : List (Option Nat) := [none, none, none]
  hotSince : Option Nat := none
  supplySince : Option Nat := none
  lossSince : Option Nat := none
  supply : BitVec 16 := 24000
  rstCause : Nat := 0
  hardResets : Nat := 0
  bootSlot : Bool := false
  fallback : Bool := false
  bootErr : Nat := 0
  retries : Nat := 0
  fwVersion : Word := 0
  slotA : FlashSlot := {}
  slotB : FlashSlot := {}
  activeB : Bool := false
  rollback : Nat := 0
  heartbeat : Word := 0
  log : List StewardEntry := []
  rcvLen : Nat := 0
  rcvBytes : List Byte := []
  rcvErr : Bool := false
  ctxSel : Nat := 0
  emberLeaving : Bool := false
  powerGoodAt : Nat := 0
  cages : Tbl Cage := []
deriving DecidableEq, Repr

/-! ### The whole block -/

/-- Everything but the queue. `now` counts fabric cycles (1 ns) since power good; `regs` holds the registers that are plain
words, by register-space offset (the staged copy of an RB register; the per-context copies of R638 at
(slot + 1) × 2^26 + offset), and `act` the active copies; an unlisted register holds its reset value. `helds` and `snaps` are the
held low halves and the high-half snapshots of R11, keyed source × 2^26 + offset of the low half. `degraded` and `fitDiff` name the runs of this frame
that are marked degraded (slot, job, half; R368) and the paired runs whose FITMISS bits differ (R501); `pairEnds` are the commands
of paired runs whose match may still come (R367). `images` are program and
model images in module memory. -/
structure Hw where
  now : Nat := 0
  sys : SysBlock := {}
  regs : Tbl Word := []
  act : Tbl Word := []
  helds : Tbl Word := []
  snaps : Tbl Word := []
  mem : MemBlock := {}
  atu : AtuBlock := {}
  fnRings : Tbl Ring := []
  ctxRings : Tbl Ring := []
  rotor : Nat := 0
  ctxs : Tbl Ctx := []
  images : Tbl (List Byte) := []
  nextImage : Nat := 1
  frm : FrmBlock := {}
  col : ColBlock := {}
  counters : Tbl Counter := []
  channels : Tbl Channel := []
  cores : Tbl Core := []
  arrays : Tbl BstArray := []
  wpool : Nat := 0
  wspent : Dword := 0
  degraded : List (Nat × Nat × Nat) := []
  fitDiff : List (Nat × Nat) := []
  pairEnds : List PairEnd := []
  win : WinBlock := {}
  dma : DmaBlock := {}
  cpc : CpcBlock := {}
  cxp : CxpBlock := {}
  web : WebBlock := {}
  eth : Tbl EthPort := []
  ptp : PtpBlock := {}
  wml : WmlBlock := {}
  pci : PciBlock := {}
deriving DecidableEq, Repr

/-- The state of the block: the hardware, and the commands that wait, first in, first out. -/
structure State where
  hw : Hw
  pending : List Instr
deriving DecidableEq, Repr

/-- The hardware right after power good (R590, R609): the module is in KINDLING, every register at its reset value, both
memories as the steward will have zeroed them, nothing connected and nothing in progress. -/
def Hw.reset : Hw := {}

/-- The state after reset: power good, with no command waiting. -/
def State.reset : State := ⟨Hw.reset, []⟩

end Sys2Proof.Machine
end

