-- ==== Sys2Proof/Machine/Ops.lean ====
section
/-! DEFINITION. The named operations on the state: reading and changing one object of a kind, the clock, and the plain words
of the register space with their reset values (00 R10 to R20, 24 R632, R633). -/

namespace Sys2Proof.Machine

/-! ### One object of a kind -/

def Hw.ctx (h : Hw) (n : Nat) : Ctx := Tbl.get {} h.ctxs n
def Hw.setCtx (h : Hw) (n : Nat) (c : Ctx) : Hw := { h with ctxs := Tbl.set {} h.ctxs n c }
def Hw.modCtx (h : Hw) (n : Nat) (f : Ctx → Ctx) : Hw := h.setCtx n (f (h.ctx n))

def Hw.core (h : Hw) (n : Nat) : Core := Tbl.get {} h.cores n
def Hw.setCore (h : Hw) (n : Nat) (c : Core) : Hw := { h with cores := Tbl.set {} h.cores n c }
def Hw.modCore (h : Hw) (n : Nat) (f : Core → Core) : Hw := h.setCore n (f (h.core n))

/-- Changes every core. -/
def Hw.mapCores (h : Hw) (f : Core → Core) : Hw :=
  { h with cores := List.map (fun (e : Nat × Core) => (e.1, f e.2)) h.cores }

def Hw.array (h : Hw) (n : Nat) : BstArray := Tbl.get {} h.arrays n
def Hw.setArray (h : Hw) (n : Nat) (c : BstArray) : Hw := { h with arrays := Tbl.set {} h.arrays n c }
def Hw.modArray (h : Hw) (n : Nat) (f : BstArray → BstArray) : Hw := h.setArray n (f (h.array n))

def Hw.counter (h : Hw) (n : Nat) : Counter := Tbl.get {} h.counters n
def Hw.setCounter (h : Hw) (n : Nat) (c : Counter) : Hw := { h with counters := Tbl.set {} h.counters n c }

def Hw.channel (h : Hw) (n : Nat) : Channel := Tbl.get {} h.channels n
def Hw.setChannel (h : Hw) (n : Nat) (c : Channel) : Hw := { h with channels := Tbl.set {} h.channels n c }
def Hw.modChannel (h : Hw) (n : Nat) (f : Channel → Channel) : Hw := h.setChannel n (f (h.channel n))

def Hw.dmaChan (h : Hw) (n : Nat) : DmaChan := Tbl.get {} h.dma.chans n
def Hw.setDmaChan (h : Hw) (n : Nat) (c : DmaChan) : Hw := { h with dma.chans := Tbl.set {} h.dma.chans n c }
def Hw.modDmaChan (h : Hw) (n : Nat) (f : DmaChan → DmaChan) : Hw := h.setDmaChan n (f (h.dmaChan n))

def Hw.dmaEngine (h : Hw) (n : Nat) : DmaEngine := Tbl.get {} h.dma.engines n
def Hw.setDmaEngine (h : Hw) (n : Nat) (c : DmaEngine) : Hw := { h with dma.engines := Tbl.set {} h.dma.engines n c }

def Hw.lineChan (h : Hw) (n : Nat) : LineChan := Tbl.get {} h.win.chans n
def Hw.setLineChan (h : Hw) (n : Nat) (c : LineChan) : Hw := { h with win.chans := Tbl.set {} h.win.chans n c }
def Hw.modLineChan (h : Hw) (n : Nat) (f : LineChan → LineChan) : Hw := h.setLineChan n (f (h.lineChan n))

def Hw.engine (h : Hw) : Engine → WinEngine
  | .hdg => h.win.hdg
  | .prv => h.win.prv
def Hw.setEngine (h : Hw) (e : Engine) (w : WinEngine) : Hw :=
  match e with
  | .hdg => { h with win.hdg := w }
  | .prv => { h with win.prv := w }

def Hw.ring (h : Hw) : RingId → Ring
  | .fn f => Tbl.get {} h.fnRings f
  | .ctx n => Tbl.get {} h.ctxRings n
def Hw.setRing (h : Hw) (r : RingId) (x : Ring) : Hw :=
  match r with
  | .fn f => { h with fnRings := Tbl.set {} h.fnRings f x }
  | .ctx n => { h with ctxRings := Tbl.set {} h.ctxRings n x }
def Hw.modRing (h : Hw) (r : RingId) (f : Ring → Ring) : Hw := h.setRing r (f (h.ring r))

def Hw.func (h : Hw) (n : Nat) : Func := Tbl.get {} h.pci.funcs n
def Hw.setFunc (h : Hw) (n : Nat) (c : Func) : Hw := { h with pci.funcs := Tbl.set {} h.pci.funcs n c }
def Hw.modFunc (h : Hw) (n : Nat) (f : Func → Func) : Hw := h.setFunc n (f (h.func n))

def Hw.port (h : Hw) (n : Nat) : CamPort := Tbl.get {} h.cxp.ports n
def Hw.setPort (h : Hw) (n : Nat) (c : CamPort) : Hw := { h with cxp.ports := Tbl.set {} h.cxp.ports n c }
def Hw.modPort (h : Hw) (n : Nat) (f : CamPort → CamPort) : Hw := h.setPort n (f (h.port n))

def Hw.encoder (h : Hw) (n : Nat) : Encoder := Tbl.get {} h.web.enc n
def Hw.setEncoder (h : Hw) (n : Nat) (c : Encoder) : Hw := { h with web.enc := Tbl.set {} h.web.enc n c }

def Hw.output (h : Hw) (n : Nat) : Output := Tbl.get {} h.web.outputs n
def Hw.setOutput (h : Hw) (n : Nat) (c : Output) : Hw := { h with web.outputs := Tbl.set {} h.web.outputs n c }
def Hw.modOutput (h : Hw) (n : Nat) (f : Output → Output) : Hw := h.setOutput n (f (h.output n))

def Hw.ethPort (h : Hw) (n : Nat) : EthPort := Tbl.get {} h.eth n
def Hw.setEthPort (h : Hw) (n : Nat) (c : EthPort) : Hw := { h with eth := Tbl.set {} h.eth n c }
def Hw.modEthPort (h : Hw) (n : Nat) (f : EthPort → EthPort) : Hw := h.setEthPort n (f (h.ethPort n))

def Hw.link (h : Hw) (n : Nat) : Link := Tbl.get {} h.wml.links n
def Hw.setLink (h : Hw) (n : Nat) (c : Link) : Hw := { h with wml.links := Tbl.set {} h.wml.links n c }
def Hw.modLink (h : Hw) (n : Nat) (f : Link → Link) : Hw := h.setLink n (f (h.link n))

def Hw.unitRec (h : Hw) (u : Nat) : UnitRec := Tbl.get {} h.cpc.units u
def Hw.setUnitRec (h : Hw) (u : Nat) (r : UnitRec) : Hw := { h with cpc.units := Tbl.set {} h.cpc.units u r }

def Hw.cage (h : Hw) (n : Nat) : Cage := Tbl.get {} h.sys.cages n
def Hw.setCage (h : Hw) (n : Nat) (c : Cage) : Hw := { h with sys.cages := Tbl.set {} h.sys.cages n c }

/-! ### Plain registers: offsets and reset values -/

def Reg.sysRegerr : Nat := 0x8
def Reg.sysRegerri : Nat := 0xC
def Reg.sysRegerra : Nat := 0x10
def Reg.sysLoglost : Nat := 0x68
def Reg.frmSrc : Nat := 0x1004
def Reg.frmFl : Nat := 0x1008
def Reg.frmPeriod : Nat := 0x100C
def Reg.frmPhase : Nat := 0x1010
def Reg.frmMaxp : Nat := 0x1014
def Reg.frmStat : Nat := 0x103C
def Reg.frmCutoff : Nat := 0x1040
def Reg.ctxFlima (f : Nat) : Nat := 0x4100 + 0x10 * f
def Reg.ctxFlimb (f : Nat) : Nat := 0x4104 + 0x10 * f
def Reg.atuLoglost : Nat := 0x801C
def Reg.atuWalks : Nat := 0x8020
def Reg.atuFaults : Nat := 0x8024
def Reg.colCfg : Nat := 0x9000
def Reg.colCap : Nat := 0x9004
def Reg.colStat : Nat := 0x9008
def Reg.colC1miss : Nat := 0x900C
def Reg.thmTgt : Nat := 0xA000
def Reg.thmTrip : Nat := 0xA004
def Reg.thmRth : Nat := 0xA008
def Reg.thmTau : Nat := 0xA00C
def Reg.thmHzn : Nat := 0xA010
def Reg.thmStat : Nat := 0xA020
def Reg.thmSens (n : Nat) : Nat := 0xA100 + 4 * n
def Reg.pwrTriplvl : Nat := 0xB004
def Reg.pwrStat : Nat := 0xB008
def Reg.bstCmds (a : Nat) : Nat := 0x10008 + 0x100 * a
def Reg.bstFaults (a : Nat) : Nat := 0x1000C + 0x100 * a
def Reg.qntCfg : Nat := 0x11000
def Reg.qntWreq : Nat := 0x11018
def Reg.qntWgrant : Nat := 0x1101C
def Reg.qntWdeny : Nat := 0x11020
def Reg.qntDegr : Nat := 0x11024
def Reg.qntEscin (a : Nat) : Nat := 0x11408 + 0x400 * a
def Reg.qntUnmatch (a : Nat) : Nat := 0x1140C + 0x400 * a
def Reg.qntEscout (a : Nat) : Nat := 0x11410 + 0x400 * a
def Reg.qntSatcnt (a : Nat) : Nat := 0x11414 + 0x400 * a
def Reg.qntFitmiss (a : Nat) : Nat := 0x11418 + 0x400 * a
def Reg.winErr : Engine → Nat
  | .hdg => 0x1300C
  | .prv => 0x1400C
def Reg.winErrva : Engine → Nat
  | .hdg => 0x13010
  | .prv => 0x14010
def Reg.winPasses : Engine → Nat
  | .hdg => 0x13018
  | .prv => 0x14018
def Reg.winRefused : Engine → Nat
  | .hdg => 0x1301C
  | .prv => 0x1401C
def Reg.prvLrctl (n : Nat) : Nat := 0x14100 + 0x40 * n
def Reg.prvLrdesc (n : Nat) : Nat := 0x14108 + 0x40 * n
def Reg.prvLrdrop (n : Nat) : Nat := 0x14128 + 0x40 * n
def Reg.prvLrerrl (n : Nat) : Nat := 0x1412C + 0x40 * n
def Reg.dmaReqovf : Nat := 0x18008
def Reg.dmaEngpre (e : Nat) : Nat := 0x18108 + 0x10 * e
def Reg.dmaNotelost (n : Nat) : Nat := 0x19020 + 0x40 * n
def Reg.mbxDeny : Nat := 0x1C100
def Reg.memCfg : Nat := 0x1D000
def Reg.memStat : Nat := 0x1D004
def Reg.memCe (sram : Bool) : Nat := if sram then 0x1D00C else 0x1D008
def Reg.memUe : Nat := 0x1D010
def Reg.memPoisonw : Nat := 0x1D014
def Reg.memPoisonr : Nat := 0x1D018
def Reg.memLoglost : Nat := 0x1D020
def Reg.memHandoff : Nat := 0x1D024
def Reg.memScrubcfg : Nat := 0x1D028
def Reg.memOdcnt : Nat := 0x1D040
def Reg.cpcStat : Nat := 0x1E000
def Reg.cpcTests : Nat := 0x1E008
def Reg.cpcFails : Nat := 0x1E00C
def Reg.cpcLoglost : Nat := 0x1E01C
def Reg.webEnccfg (e : Nat) : Nat := 0x1F000 + 0x20 * e
def Reg.webPosset (e : Nat) : Nat := 0x1F010 + 0x20 * e
def Reg.webEncerr (e : Nat) : Nat := 0x1F018 + 0x20 * e
def Reg.webEncstat (e : Nat) : Nat := 0x1F01C + 0x20 * e
def Reg.webIncfg (i : Nat) : Nat := 0x1F048 + 4 * i
def Reg.webVerr : Nat := 0x1F088
def Reg.webOcfg (o : Nat) : Nat := 0x1F100 + 0x20 * o
def Reg.webOevt (o : Nat) : Nat := 0x1F108 + 0x20 * o
def Reg.webOcnt (o : Nat) : Nat := 0x1F10C + 0x20 * o
def Reg.ethCfg (p : Nat) : Nat := 0x20004 + 0x100 * p
def Reg.ethIp (p : Nat) : Nat := 0x20010 + 0x100 * p
def Reg.ethAcl (p : Nat) : Nat := 0x20020 + 0x100 * p
def Reg.ethMgmtudp (p : Nat) : Nat := 0x20028 + 0x100 * p
def Reg.ethRxdisc (p : Nat) : Nat := 0x20030 + 0x100 * p
def Reg.ethRsdrop (p : Nat) : Nat := 0x20034 + 0x100 * p
def Reg.ethRssent (p : Nat) : Nat := 0x20038 + 0x100 * p
def Reg.ethMgmtdeny (p : Nat) : Nat := 0x2003C + 0x100 * p
def Reg.ptpCfg : Nat := 0x21000
def Reg.ptpEvt : Nat := 0x21008
def Reg.ptpHoldms : Nat := 0x21028
def Reg.wmlDstat : Nat := 0x22020
def Reg.wmlRwto : Nat := 0x22024
def Reg.wmlRwfull : Nat := 0x2202C
def Reg.wmlTlate : Nat := 0x22030
def Reg.wmlLost : Nat := 0x22034
def Reg.wmlPcfg (p : Nat) : Nat := 0x22040 + 4 * p
def Reg.wmlLrep (k : Nat) : Nat := 0x22108 + 0x20 * k
def Reg.wmlLcrc (k : Nat) : Nat := 0x2210C + 0x20 * k
def Reg.wmlLfec (k : Nat) : Nat := 0x22110 + 0x20 * k
def Reg.wmlDcfg (i : Nat) : Nat := 0x22400 + 4 * i
def Reg.pciStat : Nat := 0x30004
def Reg.pciEvcfg : Nat := 0x30008
def Reg.pciEvstat : Nat := 0x3000C
def Reg.pciHrdaddr : Nat := 0x30018
def Reg.pciHrdfail : Nat := 0x30020
def Reg.pciHwrdrop : Nat := 0x30024
def Reg.pciBadaddr : Nat := 0x30028
def Reg.pciHrdinfo : Nat := 0x3002C
def Reg.synDeny : Nat := 0xC0004
def Reg.synDenyrec : Nat := 0xC0008
def Reg.synOvf : Nat := 0xC000C
def Reg.cxpEvt (n : Nat) : Nat := 0x2000004 + 0x40 * n
def Reg.cxpPbud (n : Nat) : Nat := 0x2000008 + 0x40 * n
def Reg.cxpTrig (n : Nat) : Nat := 0x2000010 + 0x40 * n
def Reg.cxpErrl (n : Nat) : Nat := 0x2000020 + 0x40 * n
def Reg.cxpDisc (n : Nat) : Nat := 0x2000024 + 0x40 * n

/-- The reset value of a register that the state holds as a plain word (02 R56, 05 R171, 07 R214 to R218, 13 R374, 17 R482,
R483, 19 R532, R534, 20 R566 to R568); 0 for every other. -/
def Reg.resetValue (off : Nat) : Word :=
  if off = Reg.frmFl then 1
  else if off = Reg.frmPeriod then 1000000
  else if off = Reg.frmMaxp then 1000000000
  else if 0x4100 ≤ off ∧ off < 0x4300 ∧ off % 0x10 = 0 then 0x10000100
  else if 0x4100 ≤ off ∧ off < 0x4300 ∧ off % 0x10 = 4 then 0x40008080
  else if off = Reg.colCfg then 0x04050083
  else if off = Reg.colCap then 150000
  else if off = Reg.thmTgt then 1600
  else if off = Reg.thmTrip then 1760
  else if off = Reg.thmRth then 400
  else if off = Reg.thmTau then 8000
  else if off = Reg.thmHzn then 2000
  else if off = Reg.pwrTriplvl then 170000
  else if off = Reg.qntCfg then 1
  else if off = Reg.memCfg then 0x110
  else if off = Reg.memScrubcfg then 0xA01
  else if off = Reg.webEnccfg 0 ∨ off = Reg.webEnccfg 1 then 0x202
  else if 0x1F048 ≤ off ∧ off < 0x1F068 then 10
  else if off = Reg.ethCfg 0 ∨ off = Reg.ethCfg 1 then 1
  else if off = Reg.ethMgmtudp 0 ∨ off = Reg.ethMgmtudp 1 then 7280
  else if off = Reg.ptpCfg then 0x00FFFF00
  else if off = Reg.ptpHoldms then 1000
  else if off = Reg.wmlRwto then 16
  else if off = Reg.wmlPcfg 0 ∨ off = Reg.wmlPcfg 1 then 1
  else if 0x2000008 ≤ off ∧ off < 0x2000200 ∧ off % 0x40 = 8 then 13000
  else 0

/-- The key of a context's own copy of a register of R638. -/
def Reg.ofCtx (slot off : Nat) : Nat := (slot + 1) * 0x4000000 + off

/-- The register a table key stands for. -/
def Reg.ofKey (key : Nat) : Nat := key % 0x4000000

/-- A plain register, or the staged copy of an RB register. -/
def Hw.reg (h : Hw) (key : Nat) : Word := Tbl.get (Reg.resetValue (Reg.ofKey key)) h.regs key

def Hw.setReg (h : Hw) (key : Nat) (v : Word) : Hw :=
  { h with regs := Tbl.set (Reg.resetValue (Reg.ofKey key)) h.regs key v }

/-- The active copy of an RB register (R12). -/
def Hw.actReg (h : Hw) (key : Nat) : Word := Tbl.get (Reg.resetValue (Reg.ofKey key)) h.act key

/-- Adds to a counter register, which wraps (R15, R20). -/
def Hw.bump (h : Hw) (key n : Nat) : Hw := h.setReg key (h.reg key + BitVec.ofNat 32 n)

/-- Sets one bit of a register. -/
def Hw.setRegBit (h : Hw) (key i : Nat) : Hw := h.setReg key (h.reg key ||| (1 <<< i))

/-- A 64-bit register that the state holds as two plain words. -/
def Hw.reg64 (h : Hw) (off : Nat) : Dword := dword (h.reg off) (h.reg (off + 4))

def Hw.setReg64 (h : Hw) (off : Nat) (v : Dword) : Hw := (h.setReg off (lowHalf v)).setReg (off + 4) (highHalf v)

/-! ### The module state and the clock -/

/-- Whether ticks run (02 R33, 22 R596): the tick runs and the first one has fallen. -/
def Hw.ticksRun (h : Hw) : Bool := h.frm.running && !h.frm.waiting

def Hw.isState (h : Hw) (s : ModState) : Bool := decide (h.sys.state = s)

/-- The code of a module state (R150, R609). -/
def ModState.code : ModState → Nat
  | .off => 0
  | .kindling => 1
  | .ready => 2
  | .run => 3
  | .hold => 4
  | .ember => 5
  | .tripped => 6

/-- The code of a context state (R150). -/
def CtxState.code : CtxState → Nat
  | .free => 0
  | .idle => 1
  | .live => 2
  | .faulted => 3
  | .resetting => 4

/-- The Fintoic clock of a point in MHz (07 R208). -/
def fintoicMhz : Nat → Nat
  | 0 => 1600
  | 1 => 1440
  | 2 => 1280
  | 3 => 1120
  | 4 => 960
  | _ => 800

/-- The Bastaef clock of a point in MHz (R208). -/
def bastaefMhz : Nat → Nat
  | 0 => 2000
  | 1 => 1800
  | 2 => 1600
  | 3 => 1400
  | 4 => 1200
  | _ => 1000

/-- PWR_ESCALE of a point (R208). -/
def escale : Nat → Nat
  | 0 => 1024
  | 1 => 930
  | 2 => 845
  | 3 => 765
  | 4 => 690
  | _ => 625

/-- A core's FTC_CYCLE after `n` ns at `mhz` (08, At the edges: it counts core cycles from the run's first bundle). -/
def Core.advance (c : Core) (n mhz : Nat) : Core :=
  if c.run = .none ∨ c.halted ∨ !c.ran then c
  else
    let acc := c.cycleFrac + n * mhz
    let old := dword (Tbl.get 0 c.cr 24) (Tbl.get 0 c.cr 25)
    let new := old + BitVec.ofNat 64 (acc / 1000)
    { c with cycleFrac := acc % 1000, cr := Tbl.set 0 (Tbl.set 0 c.cr 24 (lowHalf new)) 25 (highHalf new) }

/-- Module time after `n` ns at the servo's rate (20 R539, R540). -/
def PtpBlock.advance (p : PtpBlock) (n : Nat) : PtpBlock :=
  let acc : Int := p.timeFrac + n * p.freq
  { p with time := p.time + BitVec.ofInt 64 (n + acc / 1000000000), timeFrac := acc % 1000000000 }

/-- Time passes: `n` fabric cycles. -/
def Hw.pass (h : Hw) (n : Nat) : Hw :=
  { h with
    now := h.now + n
    ptp := h.ptp.advance n
    wml.ltime := h.wml.ltime + BitVec.ofNat 64 n
    cores := h.cores.map (fun e => (e.1, e.2.advance n (fintoicMhz h.col.point))) }

/-- The clock moves on to `t`, the time at which the manual says an event comes at the earliest; it never moves back. -/
def Hw.advanceTo (h : Hw) (t : Nat) : Hw := if h.now < t then h.pass (t - h.now) else h

/-- The frame number that a log entry carries: 0 while no ticks run (R481, R506). -/
def Hw.logFrame (h : Hw) : BitVec 48 := if h.ticksRun then h.frm.fnum else 0

/-- A meaning that changes the hardware and nothing of the queue: every command goes on to a next state. -/
def lift (f : Hw → Hw) (s : State) : Host.Outcome State Fault Refusal := .next { s with hw := f s.hw }

end Sys2Proof.Machine
end

