-- ==== Sys2Proof/Machine/Flags.lean ====
section
/-! DEFINITION. Status and event flags, interrupts and logs: every flag the block computes is set through here. Register
errors (24 R645 to R648), MSI-X and PF events (21 R579 to R582), the steward log and module state changes (22 R596, R611), the
Coppice counts and log (18 R489, R490, R504), the memory error log (17 R477, R481), and a core's interrupt sources
(08 R235). -/

namespace Sys2Proof.Machine

/-! ### Interrupt messages (R579 to R582) -/

/-- Whether the module may issue requests for the function (R579). -/
def Func.mayMaster (f : Func) : Bool := f.busMaster && !f.d3hot

/-- Whether the MSI-X entry of vector `v` is unmasked (R581). -/
def Func.unmasked (f : Func) (v : Nat) : Bool := !(Tbl.get {} f.table v).masked && !f.funcMask

/-- A vector that is not held: the message goes out, or the pending bit is set (R581). -/
def Hw.deliverVector (h : Hw) (f v : Nat) : Hw :=
  let c := h.func f
  if c.unmasked v then
    let e := Tbl.get {} c.table v
    { h with pci.out := ⟨f, dword e.addrLo e.addrHi, e.data⟩ :: h.pci.out }
  else h.setFunc f { c with pending := c.pending ||| (1 <<< v) }

/-- A request of a vector (R581): discarded while MSI-X Enable is 0, held as `r` under R579, else delivered. -/
def Hw.request (h : Hw) (f v : Nat) (r : HeldReq) : Hw :=
  let c := h.func f
  if !c.msixOn then h
  else if !c.mayMaster then h.setFunc f { c with held := c.held ++ [r] }
  else h.deliverVector f v

/-- A reply's vector is requested of a function. -/
def Hw.requestVector (h : Hw) (f v : Nat) : Hw := h.request f v (.vector v)

/-- An event of PCI_EVSTAT (R582): its bit is set, and the PF's vector is requested when the bit rises with its enable 1. -/
def Hw.pciEvent (h : Hw) (i : Nat) : Hw :=
  let rose := !bit (h.reg Reg.pciEvstat) i
  let h := h.setRegBit Reg.pciEvstat i
  let cfg := h.reg Reg.pciEvcfg
  if rose && bit cfg (8 + i) then h.request 0 (bits cfg 0 6) (.event (bits cfg 0 6)) else h

/-! ### The steward log and the module state (R596, R611, R612) -/

/-- Adds a steward log entry; a full log of 64 loses its oldest (22, At the edges). -/
def Hw.stewardLog (h : Hw) (event detail : Nat) (data : Word) : Hw :=
  let e : StewardEntry := ⟨h.ptp.time, event, detail, data⟩
  let h := if h.sys.log.length < 64 then { h with sys.log := h.sys.log ++ [e] }
    else ({ h with sys.log := h.sys.log.drop 1 ++ [e] }).bump Reg.sysLoglost 1
  h.pciEvent 5

/-- No output stays forced outside READY (19 R530). -/
def Hw.endForces (h : Hw) : Hw :=
  { h with web.outputs := List.map (fun (e : Nat × Output) => (e.1, { e.2 with forced := none })) h.web.outputs }

/-- The module changes its state (R596): PCI_EVSTAT.STATE and a STATE entry. -/
def Hw.enterState (h : Hw) (s : ModState) : Hw :=
  if h.sys.state = s then h
  else
    let h := ({ h.endForces with sys.state := s }).pciEvent 0
    h.stewardLog 2 s.code (BitVec.ofNat 32 h.frm.fnum.toNat)

/-! ### Register errors (R645 to R648) -/

/-- The context slot of an agent's access: its core's run or its channel. -/
def Hw.slotOf (h : Hw) : RegSrc → Nat
  | .core c => (h.core c).slot
  | .dma n => (h.dmaChan n).slot
  | _ => 0

def srcCode : RegSrc → Nat
  | .pf => 0
  | .vf _ => 1
  | .page _ _ => 2
  | .core _ => 3
  | .dma _ => 3
  | .steward => 4

def srcFunc : RegSrc → Nat
  | .vf f => f
  | .page f _ => f
  | _ => 0

/-- The number of a source for its held low halves and snapshots (R640). -/
def srcIndex : RegSrc → Nat
  | .pf => 0
  | .vf f => f
  | .core c => 32 + c
  | .dma n => 64 + n
  | .steward => 192
  | .page f s => 256 + 256 * f + s

/-- A discard that a chapter attributes to SYS_REGERR (R645, R647), by a source code, slot and function; KIND 1 WIDTH,
2 VALUE, 3 STATE, 4 AGENT (R648). -/
def Hw.regErrBy (h : Hw) (code slot func : Nat) (write : Bool) (kind addr : Nat) : Hw :=
  if bit (h.reg Reg.sysRegerr) 0 then h.setRegBit Reg.sysRegerr 1
  else
    let info := write.toNat + code * 2 + kind * 16 + slot * 256 + func * 65536
    (((h.setRegBit Reg.sysRegerr 0).setReg Reg.sysRegerri (BitVec.ofNat 32 info))).setReg64 Reg.sysRegerra
      (BitVec.ofNat 64 addr)

/-- A discard of an access from one of the sources of R640. -/
def Hw.regErr (h : Hw) (src : RegSrc) (write : Bool) (kind addr : Nat) : Hw :=
  h.regErrBy (srcCode src) (if srcCode src = 3 then h.slotOf src else 0) (srcFunc src) write kind addr

/-! ### Coppice: counts, suspects and log (R489 to R491, R504 to R506) -/

/-- Adds a Coppice log entry under the replacement rule of R504. -/
def Hw.cpcLog (h : Hw) (unit event count repl : Nat) : Hw :=
  let e : CpcLogEntry := ⟨unit, event, count, repl, h.logFrame⟩
  let l := h.cpc.log
  if l.length < 64 then { h with cpc.log := l ++ [e] }
  else
    let h := h.bump Reg.cpcLoglost 1
    if event = 1 then h
    else
      match firstIdx l (fun x => x.event = 1) with
      | none => h
      | some i => { h with cpc.log := l.eraseIdx i ++ [e] }

/-- Whether a unit is suspect (R490). -/
def UnitRec.suspect (r : UnitRec) : Bool := !r.confirmed && (r.marked || 0 < r.count)

/-- Records a unit's new state, keeping the order in which units became suspect (R488). -/
def Hw.setUnit (h : Hw) (u : Nat) (r : UnitRec) : Hw :=
  let was := h.cpc.suspects.contains u
  let h := h.setUnitRec u r
  if r.suspect && !was then { h with cpc.suspects := h.cpc.suspects ++ [u] }
  else if !r.suspect && was then { h with cpc.suspects := h.cpc.suspects.filter (· ≠ u) }
  else h

/-- An event makes a unit suspect without a failed test (R489). -/
def Hw.cpcSuspect (h : Hw) (u : Nat) : Hw :=
  let r := h.unitRec u
  if r.confirmed then h else h.setUnit u { r with marked := true }

/-- One failed test of a unit (R490); the third confirms it and leaves a remap pending (R491). -/
def Hw.cpcFailed (h : Hw) (u event : Nat) : Hw :=
  let r := h.unitRec u
  if r.confirmed then h
  else
    let n := r.count + 1
    let h := (h.setUnit u { r with count := n, marked := false, confirmed := n = 3, left := 0 }).cpcLog u event n 0xFFFF
    if n = 3 then
      let h := h.cpcLog u 3 3 0xFFFF
      { h with cpc.pending := h.cpc.pending ++ [⟨u, false⟩] }
    else h

/-- One passed test of a unit (R490). -/
def Hw.cpcPassed (h : Hw) (u : Nat) : Hw :=
  let r := h.unitRec u
  if r.confirmed then h else h.setUnit u { r with count := 0, marked := false, passed := true, left := 0 }

/-- Sets a bit of CPC_STAT, an event of PCI_EVSTAT.CPC (R507, R588). -/
def Hw.cpcEvent (h : Hw) (i : Nat) : Hw := (h.setRegBit Reg.cpcStat i).pciEvent 3

/-! ### The memory error log (R477, R481) -/

/-- Adds a memory error log entry (R477): a correctable one only while MEM_CFG.CELOG = 1; in a full log of 128 a new UE or
poison entry replaces the newest correctable one. -/
def Hw.memLog (h : Hw) (e : MemLogEntry) : Hw :=
  let ce := e.kind ≤ 2
  if ce && !bit (h.reg Reg.memCfg) 8 then h
  else
    let l := h.mem.log
    if l.length < 128 then { h with mem.log := l ++ [e] }
    else
      let h := (h.setRegBit Reg.memStat 4).bump Reg.memLoglost 1
      if ce then h
      else
        match firstIdx l.reverse (fun x => x.kind ≤ 2) with
        | none => h
        | some i => { h with mem.log := l.eraseIdx (l.length - 1 - i) ++ [e] }

/-! ### A core's interrupt sources (R235) -/

/-- Sets a pending bit of FTC_IPEND: 0 BQ, 1 SYN, 2 MBX, 3 DMA, 4 TAIL, 5 SOFT, 6 TIMER. -/
def Core.raise (c : Core) (i : Nat) : Core :=
  { c with cr := Tbl.set 0 c.cr 3 (Tbl.get 0 c.cr 3 ||| (1 <<< i)) }

/-- Raises a source on a core that is in a job's run. -/
def Hw.raise (h : Hw) (c i : Nat) : Hw :=
  if (h.core c).run = .none then h else h.modCore c (·.raise i)

end Sys2Proof.Machine
end

