-- ==== Sys2Proof/Machine/Link.lean ====
section
/-! DEFINITION. Sending on a Waimaco link: virtual lanes, credits, the replay buffer, and routes up and down the tree
(20 R545 to R547, R553, R562). -/

namespace Sys2Proof.Machine

/-- The virtual lane of a sequenced frame (R547). -/
def vlOf : LinkPayload → Option Nat
  | .idle _ => none
  | .train => none
  | .other => none
  | .tick _ => some 0
  | .beacon _ => some 1
  | .join _ => some 2
  | .route _ => some 3
  | .syncOp o => some (4 + o.index.toNat % 4)

/-- Payload bytes of a frame (R563, R564). -/
def payloadBytes : LinkPayload → Nat
  | .idle _ => 16
  | .train => 0
  | .other => 0
  | .tick _ => 24
  | .beacon _ => 64
  | .join _ => 48
  | .route _ => 16
  | .syncOp _ => 32

/-- Credits a frame takes (R547). -/
def creditsOf (p : LinkPayload) : Nat := (20 + payloadBytes p + 63) / 64

/-- The order in which lanes are taken: 0 to 3 in priority, then 4 to 7 round-robin after the lane served last (R547). -/
def Link.lanes (l : Link) : List Nat := [0, 1, 2, 3] ++ (List.range 4).map (fun i => 4 + (l.lastVl - 4 + 1 + i) % 4)

/-- The next frame that may be sent: its lane and its position among those that wait. -/
def Link.nextToSend (l : Link) : Option (Nat × Nat × LinkPayload) :=
  (l.lanes).findSome? (fun vl =>
    match firstIdx l.waiting (fun p => vlOf p = some vl) with
    | none => none
    | some i =>
      match l.waiting[i]? with
      | none => none
      | some p => if creditsOf p ≤ nth 0 l.credits vl then some (vl, i, p) else none)

/-- The header of a frame that goes out now: it acknowledges the last frame accepted and returns the credits of one lane
(R546, R547, R562). -/
def Link.frame (l : Link) (nak : Bool) (seq : Nat) (p : LinkPayload) : Link × LinkFrame :=
  let vl := (firstIdx l.giveBack (fun n => 0 < n)).getD 0
  ({ l with giveBack := l.giveBack.set vl 0 },
   ⟨nak, BitVec.ofNat 12 seq, BitVec.ofNat 12 (l.rxSeq + 4095), true, BitVec.ofNat 3 vl, BitVec.ofNat 12 (nth 0 l.giveBack vl),
    true, true, p⟩)

/-- Sends a frame at once. -/
def Link.transmit (l : Link) (nak : Bool) (seq : Nat) (p : LinkPayload) : Link :=
  let r := l.frame nak seq p
  { r.1 with sent := r.2 :: r.1.sent }

/-- Sends what may be sent: at most 2,048 frames stay unacknowledged (R545). -/
def Link.pump (l : Link) : Nat → Link
  | 0 => l
  | n + 1 =>
    if 2048 ≤ l.replay.length then l
    else
      match l.nextToSend with
      | none => l
      | some (vl, i, p) =>
        let l := { l with
          waiting := l.waiting.eraseIdx i
          credits := modAt l.credits vl (· - creditsOf p)
          replay := l.replay ++ [(l.txSeq, p)]
          lastVl := if 4 ≤ vl then vl else l.lastVl }
        Link.pump { l.transmit false l.txSeq p with txSeq := (l.txSeq + 1) % 4096 } n

/-- Sends a frame on a link: sequenced frames wait for credits, IDLE and TRAIN go at once; a FOREIGN link carries only
those two (R545, R549). -/
def Hw.linkSend (h : Hw) (k : Nat) (p : LinkPayload) : Hw :=
  let l := h.link k
  match l.state, vlOf p with
  | .down, _ => h
  | _, none => h.setLink k (l.transmit false 0 p)
  | .up, some _ => h.setLink k (Link.pump { l with waiting := l.waiting ++ [p] } (l.waiting.length + 1))
  | _, some _ => h

/-- The links of the module. -/
def allLinks : List Nat := List.range 8

/-- The link towards a member: the child link whose subtree holds it, else the parent (R553). -/
def Hw.routeTo (h : Hw) (m : Nat) : Option Nat :=
  match allLinks.find? (fun k => (h.link k).child && (h.link k).subtree.contains m) with
  | some k => some k
  | none => h.wml.parent

/-- Members in this module's subtree, by its children's latest beacons (R557). -/
def Hw.subtreeCount (h : Hw) : Nat :=
  1 + (allLinks.map (fun k => match (h.link k).child, (h.link k).beacon with
    | true, some b => b.subcnt.toNat
    | _, _ => 0)).sum

/-- Sends a SYNC_OP frame to a member (R559). -/
def Hw.sendSync (h : Hw) (dst : Nat) (o : SyncPayload) : Hw :=
  match h.routeTo dst with
  | some k => h.linkSend k (.syncOp o)
  | none => h

/-- Answers a wait held for another module (R559). -/
def Hw.answerWait (h : Hw) (w : HeldWait) (op : Byte) (value : Dword) : Hw :=
  h.sendSync w.origin ⟨op, BitVec.ofNat 14 w.index, BitVec.ofNat 14 w.origin, BitVec.ofNat 14 w.origin, w.target,
    BitVec.ofNat 32 w.waitId, value⟩

/-! ### The tree (R553, R555) -/

/-- The tick latency of the domain that the leader works out (R555). -/
def Hw.dlatOf (h : Hw) : Nat :=
  let worst := (h.wml.plats.filter (fun e => h.wml.members.contains e.1)).foldl (fun m e => max m e.2) 0
  max ((worst + 203) / 4 * 4) (h.reg (Reg.wmlDcfg 5)).toNat

/-- The links whose partner is a joined neighbour, with its depth and latency. -/
def Hw.candidateParents (h : Hw) : List (Nat × Nat × Nat × Nat) :=
  allLinks.filterMap (fun k =>
    let l := h.link k
    match decide (l.state = .up), l.neighbour with
    | true, some r => if r.joined && !r.leaving && !l.child then some (r.depth.toNat, l.partner, k, r.plat.toNat) else none
    | _, _ => none)

/-- The order of candidates: least depth, then lower module ID, then lower link. -/
def parentLe (a b : Nat × Nat × Nat × Nat) : Bool :=
  a.1 < b.1 || (a.1 = b.1 && (a.2.1 < b.2.1 || (a.2.1 = b.2.1 && a.2.2.1 ≤ b.2.2.1)))

/-- The parent, the depth and the path latency follow from what the neighbours last said (R553). -/
def Hw.reroute (h : Hw) : Hw :=
  let w := h.wml
  if !w.joined then h
  else if w.isLeader then { h with wml.parent := none, wml.depth := 0, wml.plat := 0, wml.dlatNext := h.dlatOf }
  else
    match h.candidateParents.mergeSort parentLe with
    | [] => { h with wml.parent := none }
    | (d, _, k, p) :: _ =>
      { h with wml.parent := some k, wml.depth := d + 1, wml.plat := p + (h.link k).delay.toNat + 300 }

/-- A link goes DOWN (R544, R546): the frames held for it are discarded and counted. -/
def Hw.linkDown (h : Hw) (k : Nat) : Hw :=
  let l := h.link k
  if l.state = .down then h
  else
    let h := (h.setLink k { ({} : Link) with inbox := l.inbox, sent := l.sent }).bump Reg.wmlLost (l.replay.length + l.waiting.length)
    let h := { h with wml.members := h.wml.members.filter (fun m => !(l.child && l.subtree.contains m)) }
    h.reroute

/-- Whether a port's mode gives it a link `k` (R543). -/
def Hw.linkEnabled (h : Hw) (k : Nat) : Bool :=
  let m := bits (h.reg (Reg.wmlPcfg (k / 4))) 0 2
  m = 2 || (m = 1 && k % 4 = 0)

/-- Every link of a port goes DOWN, because its mode changes. -/
def Hw.portDown (h : Hw) (p : Nat) : Hw := (List.range 4).foldl (fun (h : Hw) i => h.linkDown (4 * p + i)) h

end Sys2Proof.Machine
end

