-- ==== Sys2Proof/Machine/Memory.lean ====
section
/-! DEFINITION. The memories behind local addresses and host memory: bytes in one canonical form, ECC granules with their
outcomes, partial writes, poison, corrected-error tables and hand-off (17 R463 to R478), and host reads and writes
(21 R577 to R579). -/

namespace Sys2Proof.Machine

/-! ### Address regions (06 R183, 08 R226, 17 R463, R464) -/

def hbmEnd : Nat := 0x600000000
def sramBase : Nat := 0x10000000000
def sramEnd : Nat := 0x10003000000
def coreBase : Nat := 0x11000000000
def coreEnd : Nat := 0x11001200000
def regBase : Nat := 0x20000000000
def mbxBase : Nat := 0x21000000000
def pageBase : Nat := 0x22000000000
def drmBase : Nat := 0x20000000000
def drmLimit : Nat := 0x2FFFFFFFFFF

def inHbm (a : Nat) : Bool := a < hbmEnd
def inSram (a : Nat) : Bool := sramBase ≤ a && a < sramEnd
def inAperture (a : Nat) : Bool := drmBase ≤ a && a ≤ drmLimit

/-! ### Bytes -/

/-- What a byte of HBM3 or shared SRAM that nothing has written reads as: the steward zeroes both memories before READY
(22 R590). -/
def Mem.unlisted : Byte := 0

def Mem.get (m : List Host.Cell) (a : Nat) : Byte := Tbl.get Mem.unlisted m a
def Mem.put (m : List Host.Cell) (a : Nat) (b : Byte) : List Host.Cell := Tbl.set Mem.unlisted m a b

/-- The canonical form of the memory: addresses strictly rising and no entry that equals what an unlisted byte reads as. -/
def Mem.wf (m : List Host.Cell) : Bool := Tbl.wf Mem.unlisted m

def Mem.getN (m : List Host.Cell) (a : Nat) : Nat → List Byte
  | 0 => []
  | n + 1 => Mem.get m a :: Mem.getN m (a + 1) n

def Mem.putN (m : List Host.Cell) (a : Nat) : List Byte → List Host.Cell
  | [] => m
  | b :: t => Mem.putN (Mem.put m a b) (a + 1) t

/-! ### Granules -/

/-- The size of an ECC granule at a local address (R466). -/
def granSize (a : Nat) : Nat := if inHbm a then 32 else 8
def granBase (a : Nat) : Nat := a - a % granSize a

def Hw.gran (h : Hw) (g : Nat) : Gran := Tbl.get .clean h.mem.gran g
def Hw.setGran (h : Hw) (g : Nat) (x : Gran) : Hw := { h with mem.gran := Tbl.set .clean h.mem.gran g x }

/-- Pseudo-channel, bank and row of an HBM3 address (R463). -/
def hbmPlace (a : Nat) : Nat × Nat × Nat :=
  let line := a / 256
  let pc := (line % 32) ^^^ ((line / 32) % 32)
  let off := (line / 32) * 256 + a % 256
  (pc, (off / 1024) % 48, (off / 1024) / 48)

/-- Logical bank and row of a shared SRAM address (R464): lines of 64 bytes interleave over 32 banks, rows hold 512 bytes. -/
def sramPlace (a : Nat) : Nat × Nat :=
  let line := (a - sramBase) / 64
  (line % 32, (line / 32) / 8)

/-- The physical bank that carries a logical SRAM bank (18 R485): its own number unless Coppice moved it. -/
def Hw.physBank (h : Hw) (b : Nat) : Nat := Tbl.get b h.cpc.banks b

/-- The tracked physical row of a granule: SRAM or HBM3, pseudo-channel, bank, row (a repaired SRAM row is its spare). -/
def Hw.rowOf (h : Hw) (a : Nat) : Bool × Nat × Nat × Nat :=
  if inHbm a then
    let p := hbmPlace a
    (false, p.1, p.2.1, p.2.2)
  else
    let p := sramPlace a
    let b := h.physBank p.1
    (true, 0, b, Tbl.get p.2 h.cpc.rowMap (b * 4096 + p.2))

/-- The unit ID of a memory row (18 R505). -/
def rowUnit (r : Bool × Nat × Nat × Nat) : Nat :=
  if r.1 then 0x50000000 + r.2.2.1 * 4096 + r.2.2.2
  else 0x70000000 + r.2.1 * 0x100000 + r.2.2.1 * 0x4000 + r.2.2.2

/-- The log entry of a granule event (R481). SLOT is 0xFF for the steward, the scrubber and the host. -/
def Hw.granEntry (h : Hw) (g kind agent slot synd : Nat) : MemLogEntry :=
  let hbm := inHbm g
  let core := coreBase ≤ g && g < coreEnd
  let r := h.rowOf g
  { addr := g, kind := kind, sram := !hbm, agent := agent,
    loc := if core then 63 else if hbm then r.2.1 + r.2.2.1 * 32 else r.2.2.1,
    row := if core then 0 else r.2.2.2, synd := synd,
    slot := if agent = 0 ∨ agent = 6 ∨ agent = 7 then 0xFF else slot, frame := h.logFrame.toNat % 65536 }

/-- A row goes to Coppice (R478, 18 R489): for an uncorrectable error one failed test, at the threshold suspect only. -/
def Hw.handOff (h : Hw) (r : Bool × Nat × Nat × Nat) (ue : Bool) : Hw :=
  let h := (h.bump Reg.memHandoff 1).setRegBit Reg.memStat 5
  if ue then h.cpcFailed (rowUnit r) 2 else h.cpcSuspect (rowUnit r)

/-- Where a new row enters a full table: the entry of lowest count, the oldest of them (R478). -/
def lowestRow (l : List RowCount) (sram : Bool) : Option Nat :=
  let mine := l.filter (·.sram = sram)
  match mine.map (·.count) |>.min? with
  | none => none
  | some m => firstIdx l (fun x => x.sram = sram && x.count = m)

/-- Counts a corrected error of a row (R478). -/
def Hw.trackRow (h : Hw) (r : Bool × Nat × Nat × Nat) (n : Nat) : Hw :=
  let l := h.mem.rows
  let i := firstIdx l (fun x => x.sram = r.1 && x.pc = r.2.1 && x.bank = r.2.2.1 && x.row = r.2.2.2)
  let count := (match i with | some j => (nth ⟨false, 0, 0, 0, 0⟩ l j).count | none => 0) + n
  let l' := match i with | some j => l.eraseIdx j | none => l
  if bits (h.reg Reg.memCfg) 0 8 ≤ count then ({ h with mem.rows := l' }).handOff r false
  else
    let e : RowCount := ⟨r.1, r.2.1, r.2.2.1, r.2.2.2, count⟩
    match i with
    | some j => { h with mem.rows := setAt l j e }
    | none =>
      if (l.filter (·.sram = r.1)).length < 64 then { h with mem.rows := l ++ [e] }
      else
        match lowestRow l r.1 with
        | some j => { h with mem.rows := l.eraseIdx j ++ [e] }
        | none => h

/-- Whether a granule belongs to a Fintoic memory, which no row table tracks. -/
def coreGran (g : Nat) : Bool := coreBase ≤ g

/-- A correctable error is found and written back corrected (R467, R470). -/
def Hw.correct (h : Hw) (g pos : Nat) (hard : Bool) (agent slot : Nat) : Hw :=
  let h := ((h.setGran g .clean).bump (Reg.memCe (!inHbm g)) 1).setRegBit Reg.memStat 0
  let h := h.memLog (h.granEntry g (if hard then 2 else 1) agent slot pos)
  if coreGran g then h else h.trackRow (h.rowOf g) (if hard then 4 else 1)

/-- An uncorrectable error is found (R467): counted, logged, its row handed over; PCI_EVSTAT.MEMUE (R588). -/
def Hw.foundUe (h : Hw) (g agent slot : Nat) : Hw :=
  let h := ((h.bump Reg.memUe 1).setRegBit Reg.memStat 1).pciEvent 2
  let h := h.memLog (h.granEntry g 3 agent slot 0xFF)
  if coreGran g then h else h.handOff (h.rowOf g) true

/-- A granule is written as poisoned, logged as `kind` (R468, R471). -/
def Hw.poison (h : Hw) (g kind agent slot : Nat) : Hw :=
  let h := ((h.setGran g .poison).bump Reg.memPoisonw 1).setRegBit Reg.memStat 2
  h.memLog (h.granEntry g kind agent slot 0xFF)

/-- An agent consumes poison (R472). -/
def Hw.poisonRead (h : Hw) (g agent slot : Nat) : Hw :=
  let h := (h.bump Reg.memPoisonr 1).setRegBit Reg.memStat 3
  h.memLog (h.granEntry g 4 agent slot 0xFF)

/-- A read of one granule by an agent (R467): the new state, and whether the reader receives poison. -/
def Hw.readGran (h : Hw) (g agent slot : Nat) : Hw × Bool :=
  match h.gran g with
  | .clean => (h, false)
  | .correctable pos hard => (h.correct g pos hard agent slot, false)
  | .uncorrectable => (((h.foundUe g agent slot).setGran g .poison).bump Reg.memPoisonw 1 |>.setRegBit Reg.memStat 2 |>.poisonRead g agent slot, true)
  | .poison => (h.poisonRead g agent slot, true)

/-- What a write does to a granule's error state (R469, R473): `whole` when one access covers every byte of it. -/
def Hw.writeGran (h : Hw) (g : Nat) (whole : Bool) (agent slot : Nat) : Hw :=
  if whole then h.setGran g .clean
  else
    match h.gran g with
    | .clean => h
    | .correctable pos hard => h.correct g pos hard agent slot
    | .uncorrectable => (h.foundUe g agent slot).poison g 5 agent slot
    | .poison => h.poison g 5 agent slot

/-- The granules that `[a, a + n)` touches, rising (`n` above 0). -/
def granules (a n : Nat) : List Nat :=
  let s := granSize a
  let first := a / s
  if n = 0 then [] else (List.range ((a + n - 1) / s - first + 1)).map (fun i => (first + i) * s)

/-- Reads granules in turn up to the first that gives poison, which it answers (R467, R472). -/
def Hw.readGrans (h : Hw) (agent slot : Nat) : List Nat → Hw × Option Nat
  | [] => (h, none)
  | g :: t =>
    let y := h.readGran g agent slot
    if y.2 then (y.1, some g) else y.1.readGrans agent slot t

/-- Writes into granules in turn; the access covers `[a, b)`. -/
def Hw.writeGrans (h : Hw) (agent slot a b : Nat) : List Nat → Hw
  | [] => h
  | g :: t => (h.writeGran g (a ≤ g && g + granSize g ≤ b) agent slot).writeGrans agent slot a b t

/-- Reads `n` bytes at a local address; on poison, the address of the first poisoned granule (R467, R472). -/
def Hw.memRead (h : Hw) (agent slot a n : Nat) : Hw × Except Nat (List Byte) :=
  match h.readGrans agent slot (granules a n) with
  | (h, some g) => (h, .error g)
  | (h, none) => (h, .ok (Mem.getN h.mem.cells a n))

/-- Writes bytes at a local address in one access (R469, R473). -/
def Hw.memWrite (h : Hw) (agent slot a : Nat) (bytes : List Byte) : Hw :=
  let n := bytes.length
  let h := h.writeGrans agent slot a (a + n) (granules a n)
  { h with mem.cells := Mem.putN h.mem.cells a bytes }

/-- The steward writes zeros over whole pages (04 R110, 22 R590): fresh check bits, so no granule keeps an error (R473). -/
def Hw.memZero (h : Hw) (a n : Nat) : Hw :=
  { h with mem.cells := Tbl.clearRange h.mem.cells a (a + n), mem.gran := Tbl.clearRange h.mem.gran a (a + n) }

/-! ### Host memory (R577 to R579, R589) -/

def hostFailCode : HostFail → Nat
  | .ur => 0
  | .ca => 1
  | .poisoned => 2
  | .timeout => 3
  | .notIssued => 4

/-- A failed host read is recorded (R578). -/
def Hw.hostReadFailed (h : Hw) (f addr kind : Nat) : Hw :=
  (((h.setRegBit Reg.pciStat 1).bump Reg.pciHrdfail 1).setReg Reg.pciHrdinfo (BitVec.ofNat 32 (f + 32 * kind))).setReg64
    Reg.pciHrdaddr (BitVec.ofNat 64 addr)

/-- The byte of host memory at an address. -/
def Hw.hostByte (h : Hw) (a : Nat) : Byte := (Tbl.find h.pci.hostMem a).getD (Config.hostByte a)

/-- Reads host memory for a function: the bytes before the first one not delivered, and whether it failed there (R578). A
failed byte fails this read only. -/
def Hw.hostRead (h : Hw) (f a : Nat) : Nat → Hw × List Byte × Bool
  | 0 => (h, [], false)
  | n + 1 =>
    if !(h.func f).mayMaster then (h.hostReadFailed f a 4, [], true)
    else
      match Tbl.find h.pci.hostBad a with
      | some _ => ({ h with pci.hostBad := Tbl.del h.pci.hostBad a }, [], true)
      | none =>
        let r := h.hostRead f (a + 1) n
        (r.1, h.hostByte a :: r.2.1, r.2.2)

/-- Bytes land in host memory. -/
def Hw.hostPut (h : Hw) (a : Nat) : List Byte → Hw
  | [] => h
  | b :: t => ({ h with pci.hostMem := Tbl.put h.pci.hostMem a b }).hostPut (a + 1) t

/-- A context's write to host memory: posted, or discarded and counted while the function may not master (R579). -/
def Hw.hostWrite (h : Hw) (f a : Nat) (bytes : List Byte) : Hw :=
  if (h.func f).mayMaster then h.hostPut a bytes
  else (h.bump Reg.pciHwrdrop 1).setRegBit Reg.pciStat 2

end Sys2Proof.Machine
end

