-- ==== Sys2Proof/Machine/Rings.lean ====
section
/-! DEFINITION. Command rings: positions, the completion entry, and the reply of a packet (03 R58 to R88). -/

namespace Sys2Proof.Machine

/-! ### Status codes (04 R149) -/

def Status.ok : Nat := 0
def Status.unknownOpcode : Nat := 0x100
def Status.reservedNonzero : Nat := 0x101
def Status.badLength : Nat := 0x102
def Status.staleHandle : Nat := 0x103
def Status.noResource : Nat := 0x104
def Status.notPermitted : Nat := 0x105
def Status.outOfRange : Nat := 0x106
def Status.wrongState : Nat := 0x107
def Status.swapPending : Nat := 0x108
def Status.ctxResetting : Nat := 0x109
def Status.domainDisagree : Nat := 0x10A
def Status.swapAborted : Nat := 0x10B
def Status.faulted : Nat := 0x200
def Status.aborted : Nat := 0x300
def Status.syncAbandoned : Nat := 0x301
def Status.widenDenied : Nat := 0x400

/-! ### Positions (R60) -/

def Ring.sqSize (r : Ring) : Nat := 2 ^ r.sqLog
def Ring.cqSize (r : Ring) : Nat := 2 ^ r.cqLog

/-- The slots published and not consumed (R60). -/
def Ring.published (r : Ring) : Nat := (r.sqTail + r.sqSize - r.sqHead) % r.sqSize

/-- The replies that host software has not read (R60). -/
def Ring.unread (r : Ring) : Nat := (r.cqTail + r.cqSize - r.cqHead) % r.cqSize

/-- CQFULL (R64). -/
def Ring.cqFull (r : Ring) : Bool := r.unread = r.cqSize - 1

/-- The function whose bus and vectors a ring uses (R67). -/
def Hw.ringFunc (h : Hw) : RingId → Nat
  | .fn f => f
  | .ctx n => (h.ctx n).owner

/-- 16 result bytes from their fields: offset, length in bytes, value. -/
def resultOf (fs : List (Nat × Nat × Nat)) : List Byte :=
  bytesOf 16 (fs.foldl (fun acc f => acc ||| ((f.2.2 % 256 ^ f.2.1) <<< (8 * f.1))) 0)

/-- A completion entry (R88). -/
def replyEntry (p : Packet) (status : Nat) (phase : Bool) (head : Nat) (result : List Byte) : List Byte :=
  bytesOf 4 p.seq.toNat ++ bytesOf 4 (status + p.opcode.toNat * 65536) ++ bytesOf 4 p.handle.toNat ++
    bytesOf 4 (head % 65536 + phase.toNat * 2 ^ 31) ++ (result ++ List.replicate 16 0).take 16

/-- The module writes the reply of a packet, moves the completion tail on and sends the vector (R64 to R67, R579). -/
def Hw.reply (h : Hw) (rid : RingId) (p : Packet) (status : Nat) (result : List Byte) : Hw :=
  let r := h.ring rid
  let f := h.ringFunc rid
  let addr := r.cqBase + BitVec.ofNat 64 (32 * r.cqTail)
  let entry := replyEntry p status r.phase r.sqHead result
  let wraps := r.cqTail + 1 = r.cqSize
  let h := h.setRing rid { r with
    cqTail := (r.cqTail + 1) % r.cqSize
    phase := if wraps then !r.phase else r.phase
    exec := none }
  let h := if (h.func f).mayMaster then h.hostPut addr.toNat entry
    else h.modFunc f (fun x => { x with held := x.held ++ [.reply addr entry] })
  if bit p.flags 0 || r.intAll then h.requestVector f r.vec else h

/-- The rings' executing packets, as (ring, packet, what it waits for), in rotation order. -/
def Hw.execs (h : Hw) : List (RingId × Exec) :=
  (List.finRange 32).filterMap (fun f => (h.ring (.fn f)).exec.map (fun e => (RingId.fn f, e))) ++
  (List.finRange 256).filterMap (fun n => (h.ring (.ctx n)).exec.map (fun e => (RingId.ctx n, e)))

end Sys2Proof.Machine
end

