-- ==== Sys2Proof/Machine/Sync.lean ====
section
/-! DEFINITION. Sync counters and mailbox channels as shared operations: the permission test, signals and the waiters they
wake, freezing and freeing, remote operations, notices and closing endpoints (16). -/

namespace Sys2Proof.Machine

/-! ### Counters (R434 to R440) -/

/-- Whether a context may use a counter (R435). -/
def Hw.mayUse (h : Hw) (slot n : Nat) : Bool :=
  let c := h.counter n
  c.state = .owned && (c.slot = slot ||
    ((h.ctx slot).owner = (h.ctx c.slot).owner && ((h.ctx slot).secure || !(h.ctx c.slot).secure)))

/-- Who signals or waits (R458): context slot and source code; code 9 is a remote module. -/
structure SigSrc where
  slot : Nat
  code : Nat

/-- A signal or wait is refused at the SYN block: counted and recorded (R436, R458). -/
def Hw.synRefuse (h : Hw) (s : SigSrc) (n : Nat) (wait : Bool) : Hw :=
  let slot := if s.code = 9 then 0 else s.slot
  (h.bump Reg.synDeny 1).setReg Reg.synDenyrec
    (BitVec.ofNat 32 (n % 16384 + slot * 65536 + s.code * 2 ^ 24 + wait.toNat * 2 ^ 28))

/-- The check of a signal or wait at the block: R435 for a context, R443 for a remote module. -/
def Hw.synAllowed (h : Hw) (s : SigSrc) (n : Nat) : Bool :=
  if s.code = 9 then decide ((h.counter n).state = .owned) && (h.counter n).remote else h.mayUse s.slot n

/-- The counter that an sa operand names on this module, the member and index it names elsewhere, or neither (R442). -/
inductive SynDest where
  | local_ (n : Nat)
  | remote (m n : Nat)
  | nobody (n : Nat)
deriving DecidableEq, Repr

def Hw.synDest (h : Hw) (sa : Word) : SynDest :=
  let n := bits sa 0 14
  let m := bits sa 14 14
  if !bit sa 28 then .local_ n
  else if !h.wml.joined then .nobody n
  else if m = h.wml.id then .local_ n
  else if h.wml.members.contains m then .remote m n
  else .nobody n

/-- A core's waits on a local counter that have ended: each armed one sets SYN, a stalled `syn.wait` ends (R438, R440). -/
def Core.wake (c : Core) (hit : Word → Dword → Bool) : Core :=
  let fired := c.waits.any (fun w => hit w.sa w.target)
  let c := { c with waits := c.waits.filter (fun w => !hit w.sa w.target) }
  let c := if fired then c.raise 1 else c
  match c.synWait with
  | some w => if hit w.1 w.2 then { c with synWait := none, synEnded := true } else c
  | none => c

/-- Answers the SYN_WAIT packets of a counter that have ended (R116). -/
def Hw.wakePackets (h : Hw) (n : Nat) (ends : Dword → Bool) (status ok : Nat) : Hw :=
  h.execs.foldl (fun h (x : RingId × Exec) =>
    match x.2.waits with
    | .synWait i t _ =>
      if i = n && ends t then h.reply x.1 x.2.packet status (resultOf [(0, 8, (h.counter n).value.toNat), (8, 1, ok)]) else h
    | _ => h) h

/-- Answers the remote waits held on a counter that have ended (R559). -/
def Hw.wakeRemote (h : Hw) (n : Nat) (ends : Dword → Bool) (op : Byte) : Hw :=
  let done := h.wml.held.filter (fun w => w.index = n && ends w.target)
  let h := { h with wml.held := h.wml.held.filter (fun w => !(w.index = n && ends w.target)) }
  done.foldl (fun h w => h.answerWait w op (h.counter n).value) h

/-- Every waiter on counter `n` whose target is met wakes (R438). -/
def Hw.wake (h : Hw) (n : Nat) : Hw :=
  let v := (h.counter n).value
  let hit (sa : Word) (t : Dword) : Bool := h.synDest sa = .local_ n && t ≤ v
  let h := h.mapCores (·.wake hit)
  (h.wakePackets n (fun t => t ≤ v) Status.ok 1).wakeRemote n (fun t => t ≤ v) 4

/-- A signal reaches the block (R436). The Bool: it was added. -/
def Hw.signalAt (h : Hw) (s : SigSrc) (n : Nat) (inc : Dword) : Hw × Bool :=
  let c := h.counter n
  if !h.synAllowed s n then (h.synRefuse s n false, false)
  else if 2 ^ 64 ≤ c.value.toNat + inc.toNat then
    (if s.code = 0 then h else h.bump Reg.synOvf 1, false)
  else if inc = 0 then (h, true)
  else ((h.setCounter n { c with value := c.value + inc }).wake n, true)

def Hw.signal (h : Hw) (s : SigSrc) (n : Nat) (inc : Dword) : Hw := (h.signalAt s n inc).1

/-- Waiters on counter `n` that belong to other contexts than `slot`, for the reset's count (R106). -/
def Hw.otherWaiters (h : Hw) (slot n : Nat) : Nat :=
  let here (c : Core) (sa : Word) : Bool := c.slot ≠ slot && h.synDest sa = .local_ n
  (h.cores.map (fun e => (e.2.waits.filter (fun w => here e.2 w.sa)).length +
    (match e.2.synWait with | some w => (here e.2 w.1).toNat | none => 0))).sum +
  (h.execs.filter (fun x => x.1 ≠ RingId.ctx (Fin.ofNat 256 slot) &&
    (match x.2.waits with | .synWait i _ _ => i = n | _ => false))).length +
  (h.wml.held.filter (fun w => w.index = n)).length

/-- A counter is frozen, every wait on it is abandoned, and it returns to the pool (R434, R440). -/
def Hw.releaseCounter (h : Hw) (n : Nat) : Hw :=
  let h := h.setCounter n { h.counter n with state := .frozen }
  let hit (sa : Word) (_ : Dword) : Bool := h.synDest sa = .local_ n
  let h := h.mapCores (·.wake hit)
  let h := (h.wakePackets n (fun _ => true) Status.syncAbandoned 0).wakeRemote n (fun _ => true) 5
  h.setCounter n { h.counter n with state := .free, slot := 0 }

/-- The counters a context owns. -/
def Hw.ownedCounters (h : Hw) (slot : Nat) : List Nat :=
  (h.counters.filter (fun e => e.2.state = .owned && e.2.slot = slot)).map (·.1)

/-- A signal by a `syn.sig` operand: local, over the link, or to nobody (R436, R442). -/
def Hw.signalBy (h : Hw) (slot : Nat) (sa : Word) (inc : Dword) : Hw :=
  match h.synDest sa with
  | .local_ n => h.signal ⟨slot, 2⟩ n inc
  | .remote m n => h.sendSync m ⟨1, BitVec.ofNat 14 n, BitVec.ofNat 14 h.wml.id, BitVec.ofNat 14 m, inc, 0, 0⟩
  | .nobody n => h.synRefuse ⟨slot, 2⟩ n false

/-- A remote wait of a core goes out; false when it is abandoned at once: the 256 are in use (R559). -/
def Hw.remoteWait (h : Hw) (core m n : Nat) (armed : Bool) (sa : Word) (target : Dword) : Hw × Bool :=
  if 256 ≤ h.wml.outs.length then (h, false)
  else
    let id := h.wml.nextWait
    let h := { h with
      wml.nextWait := (id + 1) % 2 ^ 32
      wml.outs := h.wml.outs ++ [OutWait.mk id core armed sa target 0] }
    (h.sendSync m ⟨2, BitVec.ofNat 14 n, BitVec.ofNat 14 h.wml.id, BitVec.ofNat 14 m, target, BitVec.ofNat 32 id, 0⟩, true)

/-- An outgoing wait ends: its armed entry sets SYN, or its `syn.wait` ends (R438, R559). -/
def Hw.endOut (h : Hw) (w : OutWait) : Hw :=
  let h := { h with wml.outs := h.wml.outs.filter (fun x => x.waitId ≠ w.waitId) }
  h.modCore w.core (fun c =>
    if w.armed then
      let i := firstIdx c.waits (fun x => x.sa = w.sa && x.target = w.target)
      match i with
      | some j => { c with waits := c.waits.eraseIdx j }.raise 1
      | none => c
    else { c with synWait := none, synEnded := true })

/-- When a core's run ends, its outgoing waits are cancelled (R559); when only its `syn.wait` ends (`armed` false), that one. -/
def Hw.cancelOuts (h : Hw) (core : Nat) (armed : Bool) : Hw :=
  let out (w : OutWait) : Bool := w.core = core && (armed || !w.armed)
  let mine := h.wml.outs.filter out
  let h := { h with wml.outs := h.wml.outs.filter (fun w => !out w) }
  mine.foldl (fun h w =>
    let m := BitVec.ofNat 14 (bits w.sa 14 14)
    h.sendSync m.toNat ⟨3, BitVec.ofNat 14 (bits w.sa 0 14), BitVec.ofNat 14 h.wml.id, m, w.target,
      BitVec.ofNat 32 w.waitId, 0⟩) h

/-! ### Mailbox channels (R445 to R454) -/

/-- A signal of RSIG or SSIG as the endpoint's holder: [13:0] counter, [31] EN. -/
def Hw.mbxSignal (h : Hw) (holder : Option Nat) (reg : Word) : Hw :=
  match holder with
  | some slot => if bit reg 31 then h.signal ⟨slot, 8⟩ (bits reg 0 14) 1 else h
  | none => h

/-- The core of the run that a receiver's ROUTE names, if that run is in progress (R451). -/
def Hw.routeCore (h : Hw) (ch : Channel) : Option Nat :=
  match ch.receiver with
  | none => none
  | some slot =>
    if ch.poll || !bit ch.route 0 then none
    else (List.range 18).find? (fun c =>
      let x := h.core c
      x.run = .job && x.slot = slot && x.job = bits ch.route 1 6 && x.rank = bits ch.route 7 4 &&
        x.half = bits ch.route 11 1)

/-- Sets FTC_IPEND.MBX on the ROUTE core (R451). -/
def Hw.raiseRoute (h : Hw) (ch : Channel) : Hw :=
  match h.routeCore ch with
  | some c => h.raise c 2
  | none => h

/-- A receiver endpoint is closed (R454): its notices are discarded, each PENDING slot of the sender becomes ABORTED and
SSIG is signalled once per slot. Answers the number of notices aborted. -/
def Hw.closeReceiver (h : Hw) (n : Nat) : Hw × Nat :=
  let ch := h.channel n
  let slots := if ch.sender.isSome then (List.range 32).filter (fun d => Tbl.get 0 ch.sstate d = 1) else []
  let h := h.setChannel n { ch with
    receiver := none, db := 0, flight := [], stale := 0, poll := false
    sstate := slots.foldl (fun t d => Tbl.set 0 t d 3) ch.sstate }
  (slots.foldl (fun h _ => h.mbxSignal ch.sender ch.ssig) h, slots.length)

/-- A sender endpoint is closed: the notices it sent stay, and their takes change no state of a later sender (R454). -/
def Hw.closeSender (h : Hw) (n : Nat) : Hw :=
  h.modChannel n (fun ch => { ch with
    sender := none, stale := ch.flight.foldl (fun (m : Word) x => m ||| (1 <<< x.1)) ch.db })

/-- Closes every endpoint a context holds, and answers the notices aborted (R163). -/
def Hw.closeEndpoints (h : Hw) (slot : Nat) : Hw × Nat :=
  (List.range 64).foldl (fun (x : Hw × Nat) n =>
    let ch := x.1.channel n
    let y := if ch.receiver = some slot then x.1.closeReceiver n else (x.1, 0)
    (if ch.sender = some slot then y.1.closeSender n else y.1, x.2 + y.2)) (h, 0)

end Sys2Proof.Machine
end

