-- ==== Sys2Proof/Machine/Translate.lean ====
section
/-! DEFINITION. Address translation (06): the walk and its checks, the leaf and walk caches, the translation fault log, and
accesses to context virtual addresses page by page. -/

namespace Sys2Proof.Machine

/-- What translating one address answers: a target (0 HBM3, 1 SRAM, 2 host) with its address, or a reason of R193. -/
inductive Xlat where
  | ok (tgt addr : Nat)
  | fail (reason : Nat)
deriving DecidableEq, Repr

def Xlat.walkDevice : Nat := 1
def Xlat.walkPoison : Nat := 2
def Xlat.notValid : Nat := 3
def Xlat.permission : Nat := 4
def Xlat.reservedBits : Nat := 5
def Xlat.badLeaf : Nat := 6
def Xlat.tableOutside : Nat := 7

/-- DETAIL of a translation fault (R185). -/
def xlatDetail (reason : Nat) : Nat := if reason = 1 then 1 else if reason = 2 then 2 else 3

/-- Status code of a translation fault in a reply (R185): WALK_DEVICE, WALK_POISON, TRANSLATION. -/
def xlatStatus (reason : Nat) : Nat := 0x200 + xlatDetail reason

/-- Entries of a leaf cache (R187). -/
def cacheSize (cache : Nat) : Nat :=
  if cache < 18 then 32 else if cache < 22 then 128 else if cache = 22 then 64 else if cache = 23 then 32 else 16

/-- The translation caches' numbers: cores 0 to 17, DMA engines 18 to 21, then these. -/
def bstCache : Nat := 22
def hdgCache : Nat := 23
def prvCache : Nat := 24
def stewardCache : Nat := 25

/-- The current handle of a slot (R151). -/
def Hw.handleOf (h : Hw) (slot : Nat) : Word := BitVec.ofNat 32 ((h.ctx slot).gen * 65536 + slot)

/-- The root table of a slot (R178). -/
def rootOf (slot : Nat) : Nat := 0x5E0000000 + slot * 0x200000

/-- A translation fault: counted and logged; a full log of 64 discards the entry (R185, R194). -/
def Hw.xlatFault (h : Hw) (agent slot va level reason entryAddr : Nat) (write : Bool) : Hw :=
  let h := h.bump Reg.atuFaults 1
  if h.atu.log.length < 64 then
    let e : XlatLogEntry := ⟨va % 2 ^ 48, reason, level, write, agent, h.handleOf slot,
      BitVec.ofNat 32 (entryAddr / 8 % 2 ^ 32)⟩
    { h with atu.log := h.atu.log ++ [e] }
  else h.bump Reg.atuLoglost 1

/-- Page size and index shift of a level (R177). -/
def levelShift (level : Nat) : Nat := if level = 1 then 30 else if level = 2 then 21 else 12
def levelIndex (level va : Nat) : Nat := (va >>> levelShift level) % (if level = 1 then 262144 else 512)

/-- The reserved bits of an entry by its layout (R190, R191). -/
def entryReserved (e : Dword) (level : Nat) : Bool :=
  if bit e 1 then bits e 2 10 ≠ 0 else bits e 6 6 ≠ 0 || bits e 12 (levelShift level - 12) ≠ 0

/-- Whether a leaf's output range lies in its target and the target is allowed at the level (R182, R192). -/
def leafBad (level tgt out size : Nat) : Bool :=
  match tgt with
  | 0 => !(out + size ≤ hbmEnd)
  | 1 => level = 1 || !(sramBase ≤ out && out + size ≤ sramEnd)
  | 2 => false
  | _ => true

/-- What one walk finds: the leaf, or a reason with the level and the address of the entry at fault. `ptrs` are the table
pointers it read on its way. -/
structure WalkResult where
  hw : Hw
  leaf : Option LeafEntry
  reason : Nat
  level : Nat
  entry : Nat
  ptrs : List WalkEntry

/-- The walk from `level` on at `table`; `from_` is where the pointer to the table stands (R181). `n` counts levels left. -/
def Hw.walk (h : Hw) (cache slot va : Nat) (write : Bool) (level table from_ : Nat) (ptrs : List WalkEntry) :
    Nat → WalkResult
  | 0 => ⟨h, none, Xlat.badLeaf, 3, from_, []⟩
  | n + 1 =>
    if inAperture table then ⟨h, none, Xlat.walkDevice, level, from_, []⟩
    else if !inHbm table then ⟨h, none, Xlat.tableOutside, level, from_, []⟩
    else
      let ea := table + levelIndex level va * 8
      match h.memRead 8 slot ea 8 with
      | (h, .error _) => ⟨h, none, Xlat.walkPoison, level, ea, []⟩
      | (h, .ok bs) =>
        let e := BitVec.ofNat 64 (natOf bs)
        if !bit e 0 then ⟨h, none, Xlat.notValid, level, ea, []⟩
        else if bit e 1 && level = 3 then ⟨h, none, Xlat.badLeaf, level, ea, []⟩
        else if entryReserved e level then ⟨h, none, Xlat.reservedBits, level, ea, []⟩
        else if bit e 1 then
          let next := e.toNat / 4096 * 4096
          h.walk cache slot va write (level + 1) next ea
            (ptrs ++ [⟨slot, level, va >>> levelShift level, next, ea⟩]) n
        else
          let size := 2 ^ levelShift level
          let out := e.toNat / 4096 * 4096
          let tgt := bits e 4 2
          let leaf : LeafEntry := ⟨cache, slot, va / size * size, size, out, tgt, bit e 2, bit e 3⟩
          if leafBad level tgt out size then ⟨h, none, Xlat.badLeaf, level, ea, []⟩
          else if !(if write then leaf.wr else leaf.rd) then ⟨h, none, Xlat.permission, level, ea, []⟩
          else ⟨h, some leaf, 0, level, ea, ptrs⟩

/-- Adds to a cache of `size` entries, those of a list that `p` names; a full cache loses the entry that `v` chooses (log entry 12). -/
def cacheAdd {α : Type} (l : List α) (p : α → Bool) (size v : Nat) (e : α) : List α :=
  let mine := (List.range l.length).filter (fun i => (l[i]?.map p).getD false)
  let l := if mine.length < size then l else l.eraseIdx (nth 0 mine (v % mine.length))
  l ++ [e]

/-- Translates one address for an agent (R181 to R187). Device aperture accesses never come here (R176). -/
def Hw.translate (h : Hw) (cache agent slot va : Nat) (write : Bool) : Hw × Xlat :=
  match h.atu.leaves.find? (fun e => e.cache = cache && e.slot = slot && e.page ≤ va && va < e.page + e.size) with
  | some e =>
    if (if write then e.wr else e.rd) then (h, .ok e.tgt (e.out + (va - e.page)))
    else (h.xlatFault agent slot va 0 Xlat.permission 0 write, .fail Xlat.permission)
  | none =>
    let h := h.bump Reg.atuWalks 1
    if 2 ^ 48 ≤ va then (h.xlatFault agent slot va 1 Xlat.notValid 0 write, .fail Xlat.notValid)
    else
      let find (level : Nat) := h.atu.walks.find? (fun e => e.slot = slot && e.level = level && e.index = va >>> levelShift level)
      let r : WalkResult :=
        match find 2 with
        | some e => h.walk cache slot va write 3 e.table e.entryAddr [] 1
        | none =>
          match find 1 with
          | some e => h.walk cache slot va write 2 e.table e.entryAddr [] 2
          | none => h.walk cache slot va write 1 (rootOf slot) 0 [] 3
      let h := r.hw
      match r.leaf with
      | none => (h.xlatFault agent slot va r.level r.reason r.entry write, .fail r.reason)
      | some leaf =>
        let h := { h with
          atu.leaves := cacheAdd h.atu.leaves (fun e => e.cache = cache) (cacheSize cache)
            (Config.victim cache leaf.page h.now) leaf
          atu.walks := r.ptrs.foldl (fun l p => cacheAdd l (fun _ => true) 512 (Config.victim 26 p.entryAddr h.now) p) h.atu.walks }
        (h, .ok leaf.tgt (leaf.out + (va - leaf.page)))

/-! ### Accesses to context addresses (R186) -/

/-- Why an access stopped: a translation fault, poison, or a host read that failed, each with the context address at which
it stopped. -/
inductive AccFail where
  | xlat (reason va : Nat)
  | poison (va : Nat)
  | host (va : Nat)
deriving DecidableEq, Repr

/-- The context address at which an access stopped. -/
def AccFail.va : AccFail → Nat
  | .xlat _ v => v
  | .poison v => v
  | .host v => v

/-- Reads `n` bytes at a context address, page by page, for `f` pages; the bytes before a failure stand. In the device
aperture (R176) an agent whose own words do not go there is admitted nowhere (24 R636). -/
def Hw.vaReadLoop (h : Hw) (cache agent slot va n : Nat) : Nat → Hw × List Byte × Option AccFail
  | 0 => (h, [], none)
  | f + 1 =>
    if n = 0 then (h, [], none)
    else
      let k := min n (4096 - va % 4096)
      if inAperture va then
        let t := (h.regErrBy 3 slot 0 false 4 va).vaReadLoop cache agent slot (va + k) (n - k) f
        (t.1, List.replicate k 0 ++ t.2.1, t.2.2)
      else
      match h.translate cache agent slot va false with
      | (h, .fail r) => (h, [], some (.xlat r va))
      | (h, .ok tgt a) =>
        if tgt = 2 then
          let r := h.hostRead (h.ctx slot).owner a k
          if r.2.2 then (r.1, r.2.1, some (.host (va + r.2.1.length)))
          else
            let t := r.1.vaReadLoop cache agent slot (va + k) (n - k) f
            (t.1, r.2.1 ++ t.2.1, t.2.2)
        else
          match h.memRead agent slot a k with
          | (h, .error g) =>
            let o := g - a
            (h, Mem.getN h.mem.cells a o, some (.poison (va + o)))
          | (h, .ok bs) =>
            let t := h.vaReadLoop cache agent slot (va + k) (n - k) f
            (t.1, bs ++ t.2.1, t.2.2)

/-- Reads `n` bytes at a context address. -/
def Hw.vaRead (h : Hw) (cache agent slot va n : Nat) : Hw × List Byte × Option AccFail :=
  h.vaReadLoop cache agent slot va n (n / 4096 + 2)

/-- Writes bytes at a context address, page by page; the bytes before a failure stand. -/
def Hw.vaWriteLoop (h : Hw) (cache agent slot va : Nat) (bytes : List Byte) : Nat → Hw × Option AccFail
  | 0 => (h, none)
  | f + 1 =>
    if bytes.isEmpty then (h, none)
    else
      let k := min bytes.length (4096 - va % 4096)
      if inAperture va then (h.regErrBy 3 slot 0 true 4 va).vaWriteLoop cache agent slot (va + k) (bytes.drop k) f
      else
      match h.translate cache agent slot va true with
      | (h, .fail r) => (h, some (.xlat r va))
      | (h, .ok tgt a) =>
        let h := if tgt = 2 then h.hostWrite (h.ctx slot).owner a (bytes.take k) else h.memWrite agent slot a (bytes.take k)
        h.vaWriteLoop cache agent slot (va + k) (bytes.drop k) f

def Hw.vaWrite (h : Hw) (cache agent slot va : Nat) (bytes : List Byte) : Hw × Option AccFail :=
  h.vaWriteLoop cache agent slot va bytes (bytes.length / 4096 + 2)

/-- Removes every cached leaf of a slot that overlaps a range, and every walk pointer of the slot (R188). -/
def Hw.invalidate (h : Hw) (slot va n : Nat) : Hw :=
  { h with
    atu.leaves := h.atu.leaves.filter (fun e => !(e.slot = slot && e.page < va + n && va < e.page + e.size))
    atu.walks := h.atu.walks.filter (fun e => e.slot ≠ slot) }

end Sys2Proof.Machine
end

