-- ==== Sys2Proof/Machine/Stop.lean ====
section
/-! DEFINITION. Ending work before its end: a core's run, the Bastaef commands, passes and channels of a context, context
faults, and the start of a context reset (02 R45, 05 R159 to R164, 12 R338, 14 R390). -/

namespace Sys2Proof.Machine

/-- Host addresses stand above this tag where one number names a place in local or host memory. -/
def hostTag : Nat := 2 ^ 64

/-- Writes to a translated place: local memory, or host memory above `hostTag`. -/
def Hw.placeWrite (h : Hw) (agent slot a : Nat) (bytes : List Byte) : Hw :=
  if hostTag ≤ a then h.hostWrite (h.ctx slot).owner (a - hostTag) bytes else h.memWrite agent slot a bytes

/-- Bits of a job descriptor (07 R213): the words as JOB_DEFINE carried them. -/
def jobField (d : List Word) (w lo n : Nat) : Nat := bits (nth 0 d w) lo n

def jobClass (d : List Word) : Nat := jobField d 0 0 2
def jobVcount (d : List Word) : Nat := jobField d 7 0 8

/-- The active descriptor of a job of a context; empty when the entry is. -/
def Hw.activeJob (h : Hw) (slot job : Nat) : List Word := Tbl.get [] (h.ctx slot).active.jobs job

/-- A core's run stops: its tags, queue and waits go, and the core idles (R163, 10 R289, 16 R441). -/
def Hw.stopCore (h : Hw) (c : Nat) : Hw :=
  (h.cancelOuts c true).modCore c (fun x => { x with
    run := .none, halted := true, tags := [], queue := [], waits := [], slots := [], stall := none, vrun := none
    synWait := none, synEnded := false })

/-- The rows of a stopped command or pass that are due by now are written; the others are not (R338, R390). -/
def Hw.writeDue (h : Hw) (agent slot : Nat) (rows : List (Nat × Nat × List Byte)) : Hw :=
  rows.foldl (fun h r => if r.1 ≤ h.now then h.placeWrite agent slot r.2.1 r.2.2 else h) h

/-- Counts that a reset reply carries for the engines: Bastaef commands removed and passes ended. -/
structure Stopped where
  hw : Hw
  bst : Nat
  passes : Nat

/-- Array `a` drops the commands of the runs that `sel` names; an active one leaves a tile to drain (R338). -/
def Hw.cutArray (h : Hw) (sel : Nat → Nat → Bool) (a : Nat) : Hw × Nat :=
  let x := h.array a
  let gone := x.bound.filter (fun c => sel c.slot c.job)
  let h := h.setArray a { x with bound := x.bound.filter (fun c => !sel c.slot c.job) }
  match x.run with
  | none => (h, gone.length)
  | some r =>
    if sel r.cmd.slot r.cmd.job then
      let h := h.writeDue 3 r.cmd.slot r.out.rows
      let running := r.phase = .narrow || r.phase = .wide
      let spent := if running then min r.out.tiles ((h.now - r.startAt) * bastaefMhz h.col.point / 1000) else 0
      (h.modArray a (fun x => { x with
        run := none, drain := if running then some (r.cmd.slot, r.cmd.job) else none
        busy := x.busy + BitVec.ofNat 64 spent }), gone.length)
    else (h, gone.length)

/-- One pipe ends its pass if `sel` names its run (R390). -/
def Hw.cutPipe (h : Hw) (e : Engine) (sel : Nat → Nat → Bool) (i : Nat) : Hw × Nat :=
  match (h.engine e).pipes[i]? with
  | none => (h, 0)
  | some p =>
    match p.pass with
    | none => (h, 0)
    | some q =>
      if sel q.slot q.job then
        let h := h.writeDue (if e = .hdg then 4 else 5) q.slot p.rows
        let w := h.engine e
        (h.setEngine e { w with pipes := setAt w.pipes i { p with
          pass := none, rows := [], drain := some (q.slot, q.job)
          busy := p.busy + BitVec.ofNat 64 (min p.cycles (h.now - p.startAt)) } }, 1)
      else (h, 0)

/-- A window engine drops the passes of the runs that `sel` names (R390). -/
def Hw.cutEngine (h : Hw) (e : Engine) (sel : Nat → Nat → Bool) : Hw × Nat :=
  let w := h.engine e
  let keep (p : Pass) : Bool := !sel p.slot p.job
  let n := (w.waiting.filter (fun p => sel p.slot p.job)).length + (w.queue.filter (fun p => sel p.slot p.job)).length
  let h := h.setEngine e { w with waiting := w.waiting.filter keep, queue := w.queue.filter keep }
  (List.range w.pipes.length).foldl (fun x i =>
    let y := x.1.cutPipe e sel i
    (y.1, x.2 + y.2)) (h, n)

/-- Stops every run that `sel` names (by slot and job) on cores, arrays and window engines. -/
def Hw.stopRuns (h : Hw) (sel : Nat → Nat → Bool) : Stopped :=
  let r := (List.range 18).foldl (fun (x : Hw × Nat) c =>
    let k := x.1.core c
    if k.run = .job && sel k.slot k.job then (x.1.stopCore c, x.2 + k.queue.length) else x) (h, 0)
  let r := (List.range 4).foldl (fun (x : Hw × Nat) a =>
    let y := x.1.cutArray sel a
    (y.1, x.2 + y.2)) r
  let w := r.1.cutEngine .hdg sel
  let v := w.1.cutEngine .prv sel
  ⟨v.1, r.2, w.2 + v.2⟩

/-- A channel stops at a beat boundary: what it read and did not write is discarded (R159, R163, 15 R427). -/
def DmaChan.stopped (c : DmaChan) : DmaChan :=
  { c with state := .idle, recheck := false, armed := false, seenLow := false, err := 0, stage := [], granted := 0
           rdLeft := 0, wrLeft := 0, entry := none, pend := none }

/-- The DMA channels a context owns. -/
def Hw.ownedChans (h : Hw) (slot : Nat) : List Nat :=
  (h.dma.chans.filter (fun e => e.2.state ≠ .free && e.2.slot = slot)).map (·.1)

def ChanState.busy : ChanState → Bool
  | .running => true
  | .parked => true
  | _ => false

/-- Every channel of a context stops; the number that ran is counted (R106). -/
def Hw.stopChans (h : Hw) (slot : Nat) : Hw × Nat :=
  (h.ownedChans slot).foldl (fun (x : Hw × Nat) n =>
    let c := x.1.dmaChan n
    let m := x.2 + c.state.busy.toNat
    (x.1.setDmaChan n c.stopped, m)) (h, 0)

/-- A context fault stops the channels that run or are parked: they stay in ERROR until a reset or DMA_STOP (15 R424). -/
def Hw.faultChans (h : Hw) (slot : Nat) : Hw :=
  (h.ownedChans slot).foldl (fun (h : Hw) n =>
    let c := h.dmaChan n
    if c.state.busy then h.setDmaChan n { c.stopped with state := .error } else h) h

/-- The line-rate channels of a context stop processing lines (R163). -/
def Hw.stopLines (h : Hw) (slot : Nat) : Hw × Nat :=
  (List.range 4).foldl (fun (x : Hw × Nat) n =>
    let c := x.1.lineChan n
    if c.owner = some slot && (c.running || c.reload) then
      (x.1.setLineChan n { c with running := false, reload := false, fifo := [], window := [], closing := none },
        x.2 + c.running.toNat) else x) (h, 0)

/-- Whether an admitted job of the current frame has not ended yet. -/
def Hw.unfinished (h : Hw) (slot job : Nat) : Bool :=
  h.col.plan.jobs.any (fun a => a.slot = slot && a.job = job) &&
    !h.web.results.any (fun r => r.slot = slot && r.job = job)

/-- The jobs of a context that are admitted and have not ended. -/
def Hw.runningJobs (h : Hw) (slot : Nat) : List Nat :=
  (h.col.plan.jobs.filter (fun a => a.slot = slot && h.unfinished slot a.job)).map (·.job)

/-- The verdicts a context owes become LATE (R159, R164): those of a run that is stopped at the next boundary, those of the
frame being captured at the boundary after it. -/
def Hw.oweLate (h : Hw) (slot : Nat) : Hw :=
  let c := h.ctx slot
  let stopped := (h.runningJobs slot).map (fun j => RunResult.mk slot j false false false)
  let c0 := if h.ticksRun && c.state = .live then c.active.jobs.filter (fun e => jobClass e.2 = 0) else []
  let owed := c0.map (fun e => Owed.mk slot e.1 (jobVcount e.2) 2)
  { h with web.results := h.web.results ++ stopped, web.owed := h.web.owed ++ owed }

/-- The packet that the context ring of a slot executes is answered (R79, R159). -/
def Hw.endExec (h : Hw) (slot status : Nat) : Hw :=
  let rid := RingId.ctx (Fin.ofNat 256 slot)
  match (h.ring rid).exec with
  | some e => h.reply rid e.packet status []
  | none => h

/-- A further fault of a FAULTED context (R160): MULTI, and of several faults raised in one fabric clock the lowest cause stands. -/
def Ctx.again (c : Ctx) (now cause detail unit fva : Nat) : Ctx :=
  if c.faultAt = now && cause < c.cause then
    { c with cause := cause, detail := detail, unit := unit, fva := BitVec.ofNat 64 fva, multi := true }
  else { c with multi := true }

/-- A context fault (R159, R160). -/
def Hw.ctxFault (h : Hw) (slot cause detail unit fva : Nat) : Hw :=
  let c := h.ctx slot
  match c.state with
  | .faulted => h.setCtx slot (c.again h.now cause detail unit fva)
  | .idle | .live =>
    let h := h.oweLate slot
    let h := h.setCtx slot { c with
      state := .faulted, cause := cause, detail := detail, unit := unit, multi := false
      fva := BitVec.ofNat 64 fva, fframe := h.frm.fnum, faultAt := h.now, pendingLive := none }
    let h := (h.stopRuns (fun s _ => s = slot)).hw
    let h := h.faultChans slot
    let h := (h.stopLines slot).1
    h.endExec slot Status.faulted
  | _ => h

/-- A translation fault of the context's own activity (R185). -/
def Hw.xlatCtxFault (h : Hw) (slot unit reason va : Nat) : Hw := h.ctxFault slot 2 (xlatDetail reason) unit va

/-- Boundaries that a reset starting now has to pass: none without ticks, one, or two when the tail has begun (R165). -/
def Hw.resetBoundaries (h : Hw) : Nat := if !h.ticksRun then 0 else if h.frm.tailBegun then 2 else 1

/-- A reset of a context starts (R162, R163). Counters are released and endpoints closed at once; the completion is a
command of its own. -/
def Hw.startReset (h : Hw) (slot : Nat) (kind : ResetKind) : Hw :=
  let c := h.ctx slot
  match c.state with
  | .idle | .live | .faulted =>
    let jobs := (h.runningJobs slot).length
    let h := h.endExec slot Status.aborted
    let h := h.oweLate slot
    let h := h.setCtx slot { h.ctx slot with state := .resetting, pendingLive := none, swap := none }
    let h := { h with wml.swap := h.wml.swap.map (fun (d : DomainSwap) => { d with slots := d.slots.filter (· ≠ slot) }) }
    let r := h.stopRuns (fun s _ => s = slot)
    let d := r.hw.stopChans slot
    let l := d.1.stopLines slot
    let own := l.1.ownedCounters slot
    let w := (own.map (l.1.otherWaiters slot)).sum
    let h := own.foldl (fun (h : Hw) n => h.releaseCounter n) l.1
    let m := h.closeEndpoints slot
    m.1.modCtx slot (fun c => { c with
      reset := some ⟨kind, m.1.resetBoundaries, jobs, d.2, r.bst, w, m.2, r.passes + l.2,
        if kind = .destroy then (m.1.ring (.ctx (Fin.ofNat 256 slot))).published else 0⟩ })
  | _ => h

end Sys2Proof.Machine
end

