-- ==== Sys2Proof/Machine/Feed.lean ====
section
/-! DEFINITION. How the engines read operands and write results: every page translated once, before the work starts, then bytes
through the translated pages (12 R326, 14 R377, 17 R472). -/

namespace Sys2Proof.Machine

/-- Why reading operands stops: a page that the reader may not use, a translation fault, or poison, each with its address. -/
inductive FeedFail where
  | reason (code : Nat)
  | xlat (reason va : Nat)
  | poison (va : Nat)
deriving DecidableEq, Repr

/-- NOT_SRAM (12 R342) and NOT_LOCAL (14 R405): a page that the reader may not use. -/
def notLocal : Nat := 6

/-- Who reads operands: its leaf cache, its agent code, and whether HBM3 pages are open to it. -/
structure Feed where
  cache : Nat
  agent : Nat
  hbm : Bool

/-- Translates every page of a range, rising, and adds it to the pages; `n` bytes, `f` pages at most. -/
def Hw.feedPages (h : Hw) (g : Feed) (slot va n : Nat) (write : Bool) (pages : Tbl Nat) : Nat → Hw × Except FeedFail (Tbl Nat)
  | 0 => (h, .ok pages)
  | f + 1 =>
    if n = 0 then (h, .ok pages)
    else if inAperture va then (h, .error (.reason notLocal))
    else
      let k := min n (4096 - va % 4096)
      match h.translate g.cache g.agent slot va write with
      | (h, .fail r) => (h, .error (.xlat r va))
      | (h, .ok tgt a) =>
        if tgt ≠ 1 && !(tgt = 0 && g.hbm) then (h, .error (.reason notLocal))
        else h.feedPages g slot (va + k) (n - k) write (Tbl.put pages (va / 4096) (a / 4096)) f

/-- Translates ranges (address, bytes, write) in order. -/
def Hw.feedRanges (h : Hw) (g : Feed) (slot : Nat) (pages : Tbl Nat) : List (Nat × Nat × Bool) → Hw × Except FeedFail (Tbl Nat)
  | [] => (h, .ok pages)
  | (va, n, write) :: t =>
    match h.feedPages g slot va n write pages (n / 4096 + 2) with
    | (h, .error e) => (h, .error e)
    | (h, .ok p) => h.feedRanges g slot p t

/-- The local address of a translated context address. -/
def placeOf (pages : Tbl Nat) (va : Nat) : Nat := Tbl.get 0 pages (va / 4096) * 4096 + va % 4096

/-- Reads bytes through translated pages; the address of poison where the feed meets it (17 R472). -/
def Hw.feedBytes (h : Hw) (g : Feed) (slot : Nat) (pages : Tbl Nat) (va n : Nat) : Nat → Hw × Except Nat (List Byte)
  | 0 => (h, .ok [])
  | f + 1 =>
    if n = 0 then (h, .ok [])
    else
      let k := min n (4096 - va % 4096)
      let a := placeOf pages va
      match h.memRead g.agent slot a k with
      | (h, .error b) => (h, .error (va + (b - a)))
      | (h, .ok bs) =>
        match h.feedBytes g slot pages (va + k) (n - k) f with
        | (h, .ok t) => (h, .ok (bs ++ t))
        | x => x

def Hw.feedRead (h : Hw) (g : Feed) (slot : Nat) (pages : Tbl Nat) (va n : Nat) : Hw × Except Nat (List Byte) :=
  h.feedBytes g slot pages va n (n / 4096 + 2)

/-- Goes on with what a read of the feed gave. -/
def feedThen {α β : Type} (r : Hw × Except Nat α) (f : Hw → α → Hw × Except Nat β) : Hw × Except Nat β :=
  match r with
  | (h, .ok x) => f h x
  | (h, .error e) => (h, .error e)

/-- Splits bytes at a context address into writes to local pages. -/
def pieces (pages : Tbl Nat) (va : Nat) (bs : List Byte) : Nat → List (Nat × List Byte)
  | 0 => []
  | f + 1 =>
    if bs.isEmpty then []
    else
      let k := min bs.length (4096 - va % 4096)
      (placeOf pages va, bs.take k) :: pieces pages (va + k) (bs.drop k) f

end Sys2Proof.Machine
end

