-- ==== Sys2Proof/Machine/Coppice.lean ====
section
/-! DEFINITION. Coppice: the defect maps at power-up, tests and their results, and remaps at a boundary (18 R484 to R507,
01 R28). Failed and passed tests and the log itself are in Flags.lean. -/

namespace Sys2Proof.Machine

/-! ### Unit IDs (R505) -/

def columnUnit (a c : Nat) : Nat := 0x10000000 + a * 256 + c
def laneUnit (core l : Nat) : Nat := 0x20000000 + core * 256 + l
def coreUnit (c : Nat) : Nat := 0x30000000 + c
def arrayUnit (a : Nat) : Nat := 0x40000000 + a
def bankUnit (b : Nat) : Nat := 0x60000000 + b

/-- KIND of a unit ID. -/
def unitKind (u : Nat) : Nat := u / 0x10000000 % 16

/-- The unit that a column or lane is part of; any other unit is its own. -/
def wholeOf (u : Nat) : Nat :=
  if unitKind u = 1 then arrayUnit (u / 256 % 4) else if unitKind u = 2 then coreUnit (u / 256 % 32) else u

/-! ### Units in service -/

/-- The units that a defect map names. -/
def Hw.mapped (h : Hw) (u : Nat) : Bool := h.cpc.factory.contains u || h.cpc.field.contains u

/-- A unit is healthy when it is not confirmed defective (R484). -/
def Hw.healthy (h : Hw) (u : Nat) : Bool := !h.mapped u && !(h.unitRec u).confirmed

/-- A part has passed a test since power-up (R486): in a test of its whole at which it did not fail. -/
def Hw.tested (h : Hw) (u : Nat) : Bool :=
  (h.unitRec u).passed || (u ≠ wholeOf u && (h.unitRec (wholeOf u)).passed && (h.unitRec u).count = 0)

/-- Logical columns of an array that have a physical column. -/
def Hw.columnsOf (h : Hw) (a : Nat) : Nat :=
  (h.cpc.columns.filter (fun e => a * 64 ≤ e.1 && e.1 < a * 64 + 64)).length

/-- Logical lanes of a core that have a physical lane. -/
def Hw.lanesOf (h : Hw) (c : Nat) : Nat :=
  (h.cpc.lanes.filter (fun e => c * 64 ≤ e.1 && e.1 < c * 64 + 64)).length

/-- An array in service with fewer than 64 columns runs half-width (12 R336). -/
def Hw.halfWidth (h : Hw) (a : Nat) : Bool := h.columnsOf a < 64

/-- SYS_UNITS as the units in service give it (01 R28, R499). -/
def Hw.unitsWord (h : Hw) : Word :=
  let cores := h.cpc.inService.length
  let arrays := h.cpc.arrays.length
  let cols := ((h.cpc.arrays.map h.columnsOf).min?).getD 0
  let banks := (h.cpc.banks.filter (fun e => !h.cpc.badBanks.contains e.2)).length
  let degraded := cores < 16 || arrays < 4 || cols < 64
  BitVec.ofNat 32 (cores + arrays * 32 + cols * 256 + banks * 65536 + degraded.toNat * 2 ^ 22)

def Hw.updateUnits (h : Hw) : Hw := { h with cpc.sysUnits := h.unitsWord }

/-- Gives the logical units `base` to `base + n - 1` the lowest-numbered physical units of a list (R485). -/
def placeUnits (t : Tbl Nat) (base n : Nat) (phys : List Nat) : Tbl Nat :=
  (List.zip (List.range n) phys).foldl (fun t x => Tbl.put t (base + x.1) x.2) t

/-- A mapped SRAM row is redirected to the lowest spare row of its bank (R485, R496). -/
def Hw.mapRow (h : Hw) (u : Nat) : Hw :=
  let b := u / 4096 % 64
  let n := Tbl.get 0 h.cpc.spareRows b
  if n < 16 then
    { h with cpc.spareRows := Tbl.set 0 h.cpc.spareRows b (n + 1), cpc.rowMap := Tbl.put h.cpc.rowMap (u % 0x40000) (3072 + n) }
  else { h with cpc.badBanks := if h.cpc.badBanks.contains b then h.cpc.badBanks else h.cpc.badBanks ++ [b] }

/-- The SRAM rows that the maps name, rising. -/
def Hw.mappedRows (h : Hw) : List Nat :=
  ((h.cpc.factory ++ h.cpc.field).eraseDups.filter (fun u => unitKind u = 5)).mergeSort (· ≤ ·)

/-- Kindling applies both maps (R485): the lowest healthy units enter service, the rest are spares. -/
def Hw.applyMaps (h : Hw) : Hw :=
  let ok (u : Nat) : Bool := !h.mapped u
  let columns := (List.range 4).foldl (fun t a =>
    placeUnits t (a * 64) 64 ((List.range 68).filter (fun c => ok (columnUnit a c)))) []
  let lanes := (List.range 18).foldl (fun t c =>
    placeUnits t (c * 64) 64 ((List.range 68).filter (fun l => ok (laneUnit c l)))) []
  let h := { h with
    cpc.columns := columns
    cpc.lanes := lanes
    cpc.banks := placeUnits [] 0 32 ((List.range 34).filter (fun b => ok (bankUnit b))) }
  let h := h.mappedRows.foldl (fun (h : Hw) u => h.mapRow u) { h with cpc.spareRows := [], cpc.rowMap := [], cpc.badBanks := [] }
  let cores := (List.range 18).filter (fun c => ok (coreUnit c) && h.lanesOf c = 64)
  { h with
    cpc.inService := cores.take 16
    cpc.spareCores := cores.drop 16
    cpc.arrays := (List.range 4).filter (fun a => ok (arrayUnit a) && 32 ≤ h.columnsOf a) }.updateUnits

/-! ### Tests (R486 to R490) -/

/-- A completed test of a unit (R489, R490): each failing part counts a failed test, every other part and, unless it is itself
among the failing, the unit a passed one. -/
def Hw.testDone (h : Hw) (unit : Nat) (failing : List Nat) : Hw :=
  let h := (h.bump Reg.cpcTests 1)
  let h := if failing.isEmpty then h else h.bump Reg.cpcFails 1
  let parts := (h.cpc.units.filter (fun e => wholeOf e.1 = unit && e.1 ≠ unit)).map (·.1)
  let h := (parts.filter (fun u => !failing.contains u)).foldl (fun (h : Hw) u => h.cpcPassed u) h
  let h := failing.foldl (fun (h : Hw) u =>
    let was := h.tested u
    let h := h.cpcFailed u 1
    h.setUnitRec u { h.unitRec u with passed := was }) h
  if failing.contains unit then h else h.cpcPassed unit

/-- The full test of every core and array before READY (R486); `failing` names the units and parts that fail. -/
def Hw.fullTests (h : Hw) (failing : List Nat) : Hw :=
  ((List.range 18).map coreUnit ++ (List.range 4).map arrayUnit).foldl (fun (h : Hw) u =>
    h.testDone u (failing.filter (fun x => wholeOf x = u))) h

/-! ### Remaps (R491 to R498) -/

/-- A remap has been applied: counted, logged, and to be stored in the field map (R503, R504). -/
def Hw.remapped (h : Hw) (u event repl : Nat) : Hw :=
  let h := h.cpcLog u event (h.unitRec u).count repl
  { h with cpc.remaps := h.cpc.remaps + 1, cpc.unstored := h.cpc.unstored ++ [u] }

/-- A replacement that finds no spare (R493). -/
def Hw.spareOut (h : Hw) (u : Nat) : Hw := (h.cpcEvent 2).remapped u 6 0xFFFF

/-- Clears the measured cost and run count of every active job with arrays (R500). -/
def Hw.rescale (h : Hw) : Hw :=
  { h with ctxs := List.map (fun (e : Nat × Ctx) => (e.1, { e.2 with
      stats := e.2.active.jobs.foldl (fun t j =>
        if jobField j.2 0 21 3 = 0 then t
        else Tbl.set {} t j.1 { Tbl.get {} t j.1 with measured := 0, runs := 0 }) e.2.stats })) h.ctxs }

/-- An array with fewer than 32 columns, or confirmed itself, leaves service (R336, R492). -/
def Hw.dropArray (h : Hw) (a : Nat) : Hw := { h with cpc.arrays := h.cpc.arrays.filter (· ≠ a) }.rescale

/-- The repeating plan's jobs after a unit is replaced, or struck when it is not (R494). -/
def Hw.replaceInPlan (h : Hw) (core : Bool) (old : Nat) (new : Option Nat) : Hw :=
  if !h.frm.fixedPlan then h
  else
    let has (a : Admit) : Bool := if core then a.cores.contains old || a.cores2.contains old
      else a.arrays.contains old || a.arrays2.contains old
    match new with
    | some n =>
      let sub (l : List Nat) : List Nat := l.map (fun x => if x = old then n else x)
      { h with col.plan.jobs := h.col.plan.jobs.map (fun a =>
          if core then { a with cores := sub a.cores, cores2 := sub a.cores2 }
          else { a with arrays := sub a.arrays, arrays2 := sub a.arrays2 }) }
    | none =>
      let lost := h.col.plan.jobs.filter has
      let c0 := lost.filter (·.cls = 0)
      let h := { h with
        col.plan.jobs := h.col.plan.jobs.filter (fun a => !has a)
        col.plan.late := h.col.plan.late ++ c0.map (fun a => (a.slot, a.job)) }
      if c0.isEmpty then h else h.setRegBit Reg.colStat 1

/-- A core is retired; the lowest-numbered healthy, tested spare core enters service (R492, R493). -/
def Hw.retireCore (h : Hw) (c : Nat) : Hw :=
  let u := coreUnit c
  if h.cpc.inService.contains c then
    let spare := h.cpc.spareCores.find? (fun s => h.healthy (coreUnit s) && h.tested (coreUnit s))
    let h := { h with
      cpc.inService := h.cpc.inService.filter (· ≠ c)
      cpc.retired := h.cpc.retired ++ [c] }
    let h := h.replaceInPlan true c spare
    match spare with
    | some s =>
      { h with
        cpc.inService := (List.range 18).filter (fun x => x = s || h.cpc.inService.contains x)
        cpc.spareCores := h.cpc.spareCores.filter (· ≠ s)
        cpc.usedCores := h.cpc.usedCores + 1 }.remapped u 5 s
    | none => h.spareOut u
  else
    { h with
      cpc.spareCores := h.cpc.spareCores.filter (· ≠ c)
      cpc.retired := if h.cpc.retired.contains c then h.cpc.retired else h.cpc.retired ++ [c] }.remapped u 5 0xFFFF

/-- A column or lane remap: the logical unit that `phys` serves moves to the lowest-numbered healthy, tested spare. -/
def moveLogical (t : Tbl Nat) (base phys : Nat) (spare : Option Nat) : Tbl Nat :=
  match t.find? (fun e => base ≤ e.1 && e.1 < base + 64 && e.2 = phys) with
  | none => t
  | some e => match spare with
    | some s => Tbl.put t e.1 s
    | none => Tbl.del t e.1

/-- The physical units of a group that serve a logical unit. -/
def inUse (t : Tbl Nat) (base : Nat) : List Nat := (t.filter (fun e => base ≤ e.1 && e.1 < base + 64)).map (·.2)

/-- The remap of one confirmed unit at its boundary step (R492 to R498). -/
def Hw.remapUnit (h : Hw) (u : Nat) : Hw :=
  match unitKind u with
  | 1 =>
    let a := u / 256 % 4
    let c := u % 128
    let used := inUse h.cpc.columns (a * 64)
    if !used.contains c then h.remapped u 4 0xFFFF
    else
      let spare := (List.range 68).find? (fun s => !used.contains s && h.healthy (columnUnit a s) && h.tested (columnUnit a s))
      let full := !h.halfWidth a
      let h := { h with cpc.columns := moveLogical h.cpc.columns (a * 64) c spare }
      match spare with
      | some s => { h with cpc.usedColumns := h.cpc.usedColumns + 1 }.remapped u 4 s
      | none =>
        let h := h.spareOut u
        if h.columnsOf a < 32 && h.cpc.arrays.contains a then (h.dropArray a).replaceInPlan false a none
        else if full then h.rescale else h
  | 2 =>
    let c := u / 256 % 32
    let l := u % 128
    let used := inUse h.cpc.lanes (c * 64)
    if !used.contains l then h.remapped u 4 0xFFFF
    else
      let spare := (List.range 68).find? (fun s => !used.contains s && h.healthy (laneUnit c s) && h.tested (laneUnit c s))
      let h := { h with cpc.lanes := moveLogical h.cpc.lanes (c * 64) l spare }
      match spare with
      | some s => { h with cpc.usedLanes := h.cpc.usedLanes + 1 }.remapped u 4 s
      | none => (h.spareOut u).retireCore c
  | 3 => h.retireCore (u % 32)
  | 4 =>
    let a := u % 4
    if h.cpc.arrays.contains a then ((h.dropArray a).replaceInPlan false a none).remapped u 5 0xFFFF else h
  | 5 =>
    let b := u / 4096 % 64
    let n := Tbl.get 0 h.cpc.spareRows b
    if n < 16 then
      { h with
        cpc.spareRows := Tbl.set 0 h.cpc.spareRows b (n + 1)
        cpc.rowMap := Tbl.put h.cpc.rowMap (u % 0x40000) (3072 + n) }.remapped u 4 n
    else
      let h := h.cpcLog u 7 (h.unitRec u).count 0xFFFF
      let h := { h with cpc.badBanks := if h.cpc.badBanks.contains b then h.cpc.badBanks else h.cpc.badBanks ++ [b] }
      let r := h.unitRec (bankUnit b)
      if r.confirmed then h
      else
        let h := (h.setUnit (bankUnit b) { r with confirmed := true }).cpcLog (bankUnit b) 3 r.count 0xFFFF
        { h with cpc.pending := h.cpc.pending ++ [⟨bankUnit b, false⟩] }
  | 6 =>
    let b := u % 64
    match h.cpc.banks.find? (fun e => e.2 = b) with
    | none => h.remapped u 4 0xFFFF
    | some e =>
      let busy (s : Nat) : Bool := h.cpc.banks.any (fun x => x.2 = s) || h.cpc.copy.any (fun x => x.new = s)
      match (List.range 34).find? (fun s => !busy s && h.healthy (bankUnit s) && !h.cpc.retiredBanks.contains s) with
      | some s => { h with cpc.copy := h.cpc.copy ++ [⟨e.1, b, s, false, false⟩] }
      | none => h.spareOut u
  | 7 =>
    let key := u / 0x4000 % 0x800
    let n := Tbl.get 0 h.cpc.hbmUsed key
    if n < 2 then
      { h with cpc.hbmUsed := Tbl.set 0 h.cpc.hbmUsed key (n + 1), cpc.hbmRepairs := h.cpc.hbmRepairs + 1 }.remapped u 4 0xFFFF
    else h.cpcLog u 7 (h.unitRec u).count 0xFFFF
  | _ => h

/-- A shadow copy that has finished before the tail moves its logical bank (R497). -/
def Hw.moveBank (h : Hw) (c : BankCopy) : Hw :=
  if c.copied && c.tail then
    { h with
      cpc.banks := Tbl.put h.cpc.banks c.logical c.new
      cpc.retiredBanks := h.cpc.retiredBanks ++ [c.old]
      cpc.copy := h.cpc.copy.filter (· ≠ c)
      cpc.usedBanks := h.cpc.usedBanks + 1 }.remapped (bankUnit c.old) 4 c.new
  else h

/-- Whether a remap waits for the boundary after (R493): a column of an array that drains. -/
def Hw.remapWaits (h : Hw) (u : Nat) : Bool := unitKind u = 1 && (h.array (u / 256 % 4)).drain.isSome

/-- The window step of Coppice (02 R41): due remaps apply, columns of one array in ascending order, and SYS_UNITS follows. -/
def Hw.applyRemaps (h : Hw) : Hw :=
  let due := h.cpc.pending.filter (fun r => r.tail && !h.remapWaits r.unit)
  if due.isEmpty && h.cpc.copy.isEmpty then h
  else
    let h := { h with cpc.pending := h.cpc.pending.filter (fun r => !(r.tail && !h.remapWaits r.unit)) }
    let h := ((due.map (·.unit)).mergeSort (· ≤ ·)).foldl (fun (h : Hw) u => h.remapUnit u) h
    let h := h.cpc.copy.foldl (fun (h : Hw) c => h.moveBank c) h
    h.updateUnits

/-- A frame tail begins: what was confirmed or copied before it acts at its boundary (R491, R497). -/
def Hw.markTail (h : Hw) : Hw :=
  { h with
    cpc.pending := if h.cpc.autoRemap then h.cpc.pending.map (fun r => { r with tail := true }) else h.cpc.pending
    cpc.copy := List.map (fun (c : BankCopy) => if c.copied then { c with tail := true } else c) h.cpc.copy }

end Sys2Proof.Machine
end

