-- ==== Sys2Proof/Machine/Collier.lean ====
section
/-! DEFINITION. Collier's admission (07): budget, thermal allowance, costs, durations, unit assignment, the choice of the
operating point, first-fit admission, and what each boundary does with plans, ages, gates and strikes. -/

namespace Sys2Proof.Machine

/-! ### Prediction and budget (02 R47, 07 R196, R198) -/

/-- The predicted length of the next frame (R196): the staged period for TIMER and PTP, else the last measured length, which
for encoders is scaled by the rate at which the last frame's lines came; at least 1,500 ns and at most FRM_MAXP. -/
def Hw.frameLength (h : Hw) : Nat :=
  let sel := bits (h.reg Reg.frmSrc) 0 3
  let most := bits (h.reg Reg.frmMaxp) 0 30
  if h.frm.fixedPlan then h.frm.lastLen
  else if sel = 3 ∨ sel = 4 then bits (h.reg Reg.frmPeriod) 0 30
  else if h.frm.lastLen = 0 then most
  else if (sel = 1 ∨ sel = 2) ∧ 0 < h.frm.lastLines then
    max 1500 (min (h.frm.lastLen * bits (h.reg Reg.frmFl) 0 16 / h.frm.lastLines) most)
  else max 1500 (min h.frm.lastLen most)

/-- The thermal model's numbers: target, THM_HOT, plate in 1/16 °C, RTH, and the times τ and h in ns (R198). -/
structure Thermal where
  tgt : Int
  hot : Int
  plate : Int
  rth : Int
  tau : Int
  hzn : Int

def Hw.thermal (h : Hw) (tFrame : Nat) : Thermal :=
  { tgt := bits (h.reg Reg.thmTgt) 0 16, hot := signed 16 h.col.hot.toNat, plate := signed 16 h.col.plate.toNat
    rth := bits (h.reg Reg.thmRth) 0 14, tau := (h.reg Reg.thmTau).toNat * 1000
    hzn := max tFrame ((h.reg Reg.thmHzn).toNat * 1000) }

/-- The thermal allowance in mW (R198). -/
def Thermal.allowance (t : Thermal) : Nat :=
  ((t.tgt * (t.tau + t.hzn) - t.hot * t.tau - t.plate * t.hzn) * 1000000 / (16 * t.rth * t.hzn)).toNat

/-- The temperature predicted at the end of the horizon at `p` mW (R198). -/
def Thermal.predict (t : Thermal) (p : Nat) : Int :=
  (t.hot * t.tau * 1000000 + t.hzn * (t.plate * 1000000 + 16 * t.rth * p)) / (1000000 * (t.tau + t.hzn))

def Hw.allowance (h : Hw) (tFrame : Nat) : Nat := min (bits (h.reg Reg.colCap) 0 18) (h.thermal tFrame).allowance

/-- The budget in nJ (R196). -/
def Hw.budget (h : Hw) (tFrame : Nat) : Nat := (h.allowance tFrame - h.col.pstatic) * tFrame / 1000

/-! ### Candidates (R199, R200) -/

/-- A candidate job: its context, index, descriptor and what Collier keeps of it. -/
structure Cand where
  slot : Nat
  job : Nat
  desc : List Word
  stat : JobStat

/-- Whether a context's swap applies at the next boundary (R50), a committed domain swap included (20 R558). -/
def Hw.swapDue (h : Hw) (slot : Nat) (frame : Nat) : Bool :=
  (match (h.ctx slot).swap with
   | some w => w.committed || w.target = frame
   | none => false) ||
  (h.wml.commit && (match h.wml.swap with | some d => d.slots.contains slot | none => false))

/-- The number of the frame that the next boundary opens. -/
def Hw.nextFrame (h : Hw) : Nat := (h.frm.fnum + 1).toNat

/-- The candidates of the admission for the next boundary: every job of every context that is LIVE there. -/
def Hw.candidates (h : Hw) : List Cand :=
  h.ctxs.flatMap (fun (e : Nat × Ctx) =>
    let c := e.2
    let live := match c.state, c.pendingLive with
      | .live, some b => b
      | .live, none => true
      | .idle, some b => b
      | _, _ => false
    if !live then []
    else
      let swaps := h.swapDue e.1 h.nextFrame
      let jobs := if swaps then c.staged.jobs else c.active.jobs
      jobs.map (fun j =>
        let st := Tbl.get {} c.stats j.1
        ⟨e.1, j.1, j.2, if swaps && Tbl.get [] c.active.jobs j.1 ≠ j.2 then { st with measured := 0, runs := 0 } else st⟩))

def Cand.cls (c : Cand) : Nat := jobClass c.desc
def Cand.paired (c : Cand) : Bool := jobField c.desc 0 5 1 = 1
def Cand.overdue (c : Cand) : Bool := jobField c.desc 0 8 8 < c.stat.age

/-! ### Unit assignment (R204) -/

/-- Free units of an admission. -/
structure Free where
  cores : List Nat
  arrays : List Nat

/-- Awake units before gated ones, lower numbers first (`off` is 0 for cores and 18 for arrays, as units are numbered). -/
def Hw.awakeFirst (h : Hw) (off : Nat) (l : List Nat) : List Nat :=
  l.filter (fun u => !h.col.gated.contains (u + off)) ++ l.filter (fun u => h.col.gated.contains (u + off))

/-- Takes `n` units of a list, if it has them. -/
def takeUnits (l : List Nat) (n : Nat) : Option (List Nat) := if n ≤ l.length then some (l.take n) else none

/-- Assigns one set of units to a job. -/
def Hw.assignSet (h : Hw) (f : Free) (d : List Word) : Option (List Nat × List Nat × Free) :=
  match takeUnits (h.awakeFirst 0 f.cores) (jobField d 0 16 5), takeUnits (h.awakeFirst 18 f.arrays) (jobField d 0 21 3) with
  | some cs, some as => some (cs, as, ⟨f.cores.filter (fun c => !cs.contains c), f.arrays.filter (fun a => !as.contains a)⟩)
  | _, _ => none

/-- Assigns a job's units: a PAIRED job takes two disjoint sets, or runs unpaired on one (R204, R207). -/
def Hw.assignUnits (h : Hw) (f : Free) (c : Cand) : Option (Admit × Free) :=
  match h.assignSet f c.desc with
  | none => none
  | some (cs, as, f1) =>
    let one : Admit := ⟨c.slot, c.job, c.cls, jobField c.desc 0 2 3, cs, as, [], [], false, 0⟩
    if c.paired then
      match h.assignSet f1 c.desc with
      | some (cs2, as2, f2) => some ({ one with cores2 := cs2, arrays2 := as2, paired := true }, f2)
      | none => some (one, f1)
    else some (one, f1)

/-- All cores and arrays of an admitted job, as unit numbers. -/
def Admit.units (a : Admit) : List Nat := a.cores ++ a.cores2 ++ (a.arrays ++ a.arrays2).map (· + 18)

/-! ### Costs and durations (R203, R207, R500) -/

/-- Wake energy of the gated units among a list (R203). -/
def Hw.wakeEnergy (h : Hw) (units : List Nat) : Nat :=
  ((units.filter h.col.gated.contains).map (fun u => if u < 18 then 180 else 2400)).sum

/-- Whether a job's set has a half-width array (R500). -/
def Hw.slow (h : Hw) (a : Admit) : Bool := (a.arrays ++ a.arrays2).any h.halfWidth

/-- The charge of a job at a point (R203). -/
def Hw.charge (h : Hw) (c : Cand) (a : Admit) (p : Nat) : Nat :=
  let declared := (nth 0 c.desc 1).toNat * (if h.slow a then 2 else 1)
  let base := if c.stat.runs < 8 then declared else if c.cls = 0 then max declared c.stat.measured else c.stat.measured
  let e := base * escale p / 1024
  let cost := (if a.paired then 2 * e else e) + h.wakeEnergy a.units
  if c.cls = 0 then cost * (64 + bits (h.reg Reg.colCfg) 4 6) / 64 else cost

/-- Clock ratio of a point, in tenths (R208). -/
def ratio (p : Nat) : Nat := 10 - p

/-- A duration as a fraction: numerator and denominator. -/
abbrev Frac := Nat × Nat

/-- Duration of `dur` ns of P0 work at point `p` when `q` is in force (R207). -/
def scaledDur (dur p q : Nat) : Frac :=
  if p < q then
    if 2000 * ratio q ≤ dur * 10 then (dur * 10 + 2000 * (ratio p - ratio q), ratio p) else (dur * 10, ratio q)
  else (dur * 10, ratio p)

/-- The longest wake among gated units (R205, R207): 48 core cycles or 256 ns. -/
def Hw.longestWake (h : Hw) (units : List Nat) (p : Nat) : Frac :=
  let g := units.filter h.col.gated.contains
  let mhz := fintoicMhz (if p < h.col.point then h.col.point else p)
  if g.any (18 ≤ ·) then (256, 1) else if g.isEmpty then (0, 1) else (48000, mhz)

/-- Whether a duration and a wake fit in a frame (R207). -/
def fits (d w : Frac) (tFrame : Nat) : Bool := d.1 * w.2 + w.1 * d.2 + 96 * d.2 * w.2 ≤ tFrame * d.2 * w.2

/-- `fits_time` of a job (R207). -/
def Hw.fitsTime (h : Hw) (c : Cand) (a : Admit) (p tFrame : Nat) : Bool :=
  let dur := jobField c.desc 2 0 30 * (if h.slow a then 2 else 1)
  fits (scaledDur dur p h.col.point) (h.longestWake a.units p) tFrame

/-! ### Order (R206) -/

/-- A stable order by a key, greatest first; candidates come by slot and index, so ties fall to the lower of these. -/
def byKey {α : Type} (key : α → Nat) (l : List α) : List α := l.mergeSort (fun a b => key b ≤ key a)

/-- C1 candidates: overdue first, then by age. -/
def c1Order (l : List Cand) : List Cand := byKey (fun c => (if c.overdue then 65536 else 0) + c.stat.age) (l.filter (·.cls = 1))

/-- C2 candidates: by PRIO, then by age. -/
def c2Order (l : List Cand) : List Cand := byKey (fun c => jobField c.desc 0 2 3 * 65536 + c.stat.age) (l.filter (·.cls = 2))

/-- Assigns units in order; jobs that find none are left out. -/
def Hw.assignAll (h : Hw) (f : Free) : List Cand → List (Cand × Admit) × List Cand × Free
  | [] => ([], [], f)
  | c :: t =>
    match h.assignUnits f c with
    | some (a, f1) =>
      let r := h.assignAll f1 t
      ((c, a) :: r.1, r.2.1, r.2.2)
    | none =>
      let r := h.assignAll f t
      (r.1, c :: r.2.1, r.2.2)

/-- The operating point (R208). -/
def Hw.choosePoint (h : Hw) (c0 c1 : List (Cand × Admit)) (budget tFrame : Nat) : Nat :=
  if h.frm.fixedPlan then h.col.point
  else
    let cfg := h.reg Reg.colCfg
    let lo := bits cfg 12 3
    let range := (List.range 6).filter (fun p => lo ≤ p && p ≤ bits cfg 16 3)
    let total (p : Nat) := ((c0 ++ c1).map (fun x => h.charge x.1 x.2 p)).sum
    match range.find? (fun p => total p ≤ budget) with
    | some p => p
    | none =>
      match range.reverse.find? (fun p => c0.all (fun x => h.fitsTime x.1 x.2 p tFrame)) with
      | some p => p
      | none => lo

/-! ### Module C3 work (17 R474, 18 R488) -/

/-- One offer of the steward: the item, its P0 cost, and the core or array that it needs. -/
structure Offer where
  item : C3Item
  cost : Nat
  unit : Option Nat

/-- Whole-test time at P0, declared cost, and whether the time is scaled by r (R487). -/
def testFacts (u : Nat) : Nat × Nat × Bool :=
  match unitKind u with
  | 4 => (4000, 120000, true)
  | 1 => (4000, 120000, true)
  | 3 => (6400, 40000, true)
  | 2 => (6400, 40000, true)
  | 5 => (64, 40, false)
  | 6 => (64, 40, false)
  | _ => (1000, 900, false)

/-- The unit number that a test occupies. -/
def testUnit (u : Nat) : Option Nat :=
  match unitKind (wholeOf u) with
  | 3 => some (u % 32 + 0)
  | 4 => some (18 + u % 4)
  | _ => none

/-- An offer of one test: the largest number of remaining steps that fits, at least one (R488). -/
def Hw.testOffer (h : Hw) (u p tFrame : Nat) : Offer :=
  let w := wholeOf u
  let f := testFacts w
  let left := if (h.unitRec w).left = 0 then 16 else (h.unitRec w).left
  let units := (testUnit w).toList
  let ok (k : Nat) : Bool :=
    let d : Frac := if f.2.2 then scaledDur (f.1 * k / 16) p h.col.point else (f.1 * k, 16)
    fits d (h.longestWake units p) tFrame
  let steps := ((List.range left).reverse.find? (fun k => ok (k + 1))).elim 1 (· + 1)
  ⟨.test w steps, f.2.1 * steps / 16, testUnit w⟩

/-- Whether a confirmed or mapped whole unit may not be tested any more (R490). -/
def Hw.testable (h : Hw) (u : Nat) : Bool := h.healthy u && h.healthy (wholeOf u)

/-- Bytes from the scrub position to the end of its memory (R474). -/
def Hw.scrubRoom (h : Hw) : Nat := if h.mem.scrubPos < hbmEnd then hbmEnd - h.mem.scrubPos else sramEnd - h.mem.scrubPos

/-- nJ per 4 KiB at the scrub position (R482). -/
def Hw.scrubNj (h : Hw) : Nat := if h.mem.scrubPos < hbmEnd then 140 else 24

/-- The scrub offer: the largest size that fits, cut short at the end of its memory (R474). -/
def Hw.scrubOffer (h : Hw) (tFrame : Nat) : List Offer :=
  if !bit (h.reg Reg.memScrubcfg) 0 then []
  else
    match [262144, 65536, 16384, 4096].find? (fun s => fits (s, 64) (0, 1) tFrame) with
    | some s =>
      let n := min s h.scrubRoom
      [⟨.scrub n, n / 4096 * h.scrubNj, none⟩]
    | none => []

/-- The key under which an item's age is kept: the unit of a test, 0 for the scrub item. -/
def C3Item.key : C3Item → Nat
  | .test u _ => u
  | .scrub _ => 0

/-- Everything offered to an admission, in offer order (R488): suspects, the sweep from where it stands, one scrub item. -/
def Hw.offers (h : Hw) (p tFrame : Nat) : List Offer :=
  let sus := (h.cpc.suspects.filter h.testable).map (fun u => wholeOf u)
  let all := (List.range 18).map coreUnit ++ (List.range 4).map arrayUnit
  let sweep := (all.drop h.cpc.sweep ++ all.take h.cpc.sweep).filter (fun u => h.testable u && !sus.contains u)
  (sus.eraseDups ++ sweep).map (fun u => h.testOffer u p tFrame) ++ h.scrubOffer tFrame

/-- The age of an offered item: the frames since it was last admitted (R200, R206). -/
def Hw.offerAge (h : Hw) (o : Offer) : Nat := Tbl.get 0 h.col.itemAges o.item.key

/-! ### Admission (R206) -/

/-- The running totals of an admission. -/
structure Adm where
  free : Free
  left : Nat
  jobs : List Admit
  charges : Nat
  missed : List (Nat × Nat)

/-- `try_admit` of a job (R206); an overdue C1 job that is not admitted is noted as missed. -/
def Hw.tryAdmit (h : Hw) (excess : Bool) (p tFrame : Nat) (s : Adm) (c : Cand) : Adm :=
  let miss : Adm := if c.cls = 1 && c.overdue then { s with missed := s.missed ++ [(c.slot, c.job)] } else s
  match h.assignUnits s.free c with
  | none => miss
  | some (a, f) =>
    let cost := h.charge c a p
    if excess || s.left < cost || !h.fitsTime c a p tFrame then miss
    else { s with free := f, left := s.left - cost, jobs := s.jobs ++ [{ a with charge := cost }], charges := s.charges + cost }

/-- Whether a needed unit is free, and the free units after it is taken. -/
def Free.takeUnit (f : Free) : Option Nat → Option Free
  | none => some f
  | some u =>
    if u < 18 then if f.cores.contains u then some { f with cores := f.cores.filter (· ≠ u) } else none
    else if f.arrays.contains (u - 18) then some { f with arrays := f.arrays.filter (· ≠ u - 18) } else none

/-- Admits module C3 items while their total stays within the share (R206). -/
def Hw.tryOffers (h : Hw) (p : Nat) : Adm → Nat → List Offer → Adm × List C3Item
  | s, _, [] => (s, [])
  | s, share, o :: t =>
    let cost := o.cost * escale p / 1024 + h.wakeEnergy o.unit.toList
    match s.free.takeUnit o.unit with
    | some f =>
      if cost ≤ share && cost ≤ s.left then
        let r := h.tryOffers p { s with free := f, left := s.left - cost, charges := s.charges + cost } (share - cost) t
        (r.1, o.item :: r.2)
      else h.tryOffers p s share t
    | none => h.tryOffers p s share t

/-- The spare cores join the units that a test may occupy: they run no job. -/
def Hw.spareFree (h : Hw) (f : Free) : Free :=
  { f with cores := f.cores ++ h.cpc.spareCores.filter (fun c => h.healthy (coreUnit c)) }

/-- Sets a COL_STAT bit when a condition holds. -/
def Hw.colStatIf (h : Hw) (b : Bool) (i : Nat) : Hw := if b then h.setRegBit Reg.colStat i else h

/-- One admission (R206 to R208): the plan it leaves, with COL_STAT's events. -/
def Hw.admitJobs (h : Hw) : Hw × Plan :=
  let t := h.frameLength
  let after := h.applyRemaps
  let free : Free := ⟨after.cpc.inService.filter (fun c => h.healthy (coreUnit c)),
    after.cpc.arrays.filter (fun a => h.healthy (arrayUnit a))⟩
  let budget := h.budget t
  let cands := h.candidates
  let c0 := h.assignAll free (cands.filter (·.cls = 0))
  let c1 := c1Order cands
  let od := h.assignAll c0.2.2 (c1.filter Cand.overdue)
  let p := h.choosePoint c0.1 od.1 budget t
  let charged := c0.1.map (fun x => { x.2 with charge := h.charge x.1 x.2 p })
  let resv := (charged.map (·.charge)).sum
  let excess : Bool := budget < resv
  let s : Adm := ⟨c0.2.2, budget - resv, charged, resv, []⟩
  let s := (c1 ++ c2Order cands).foldl (h.tryAdmit excess p t) s
  let share := s.left * h.cpc.testShare / 100
  let m := if excess then (s, []) else
    h.tryOffers p { s with free := h.spareFree s.free } share (byKey h.offerAge (h.offers p t))
  let s : Adm := { m.1 with free := { m.1.free with cores := m.1.free.cores.filter free.cores.contains } }
  let s := (byKey (fun c => c.stat.age) (cands.filter (·.cls = 3))).foldl (h.tryAdmit excess p t) s
  let h := h.colStatIf excess 0
  let h := h.colStatIf (!c0.2.1.isEmpty) 1
  let h := h.colStatIf (c0.1.any (fun x => !h.fitsTime x.1 x.2 p t)) 2
  let h := h.colStatIf (c0.1.any (fun x => x.1.paired && !x.2.paired)) 3
  let h := h.bump Reg.colC1miss s.missed.length
  (h, { jobs := s.jobs, items := m.2, late := c0.2.1.map (fun c => (c.slot, c.job)), missed := s.missed, point := p
        leftC1 := (c1.filter (fun c => !s.jobs.any (fun a => a.slot = c.slot && a.job = c.job))).map (fun c => (c.slot, c.job))
        budget := budget, palow := h.allowance t
        pred := BitVec.ofInt 16 ((h.thermal t).predict (h.allowance t))
        resv := resv, admitted := s.charges
        woken := (s.jobs.flatMap Admit.units).filter h.col.gated.contains, tFrame := t })

/-! ### Attribution and measured costs (R201, R202) -/

def jobKey (slot job : Nat) : Nat := slot * 64 + job

/-- The energy of a run normalised to P0 (R201): halved for a paired run. -/
def Hw.runEnergy (h : Hw) (slot job : Nat) (paired : Bool) : Nat :=
  let e := Tbl.get 0 h.col.jobEnergy (jobKey slot job)
  e * 1024 / (escale h.col.point * (if paired then 2 else 1))

/-- The measured cost after a completed run (R202). -/
def JobStat.complete (s : JobStat) (sample ewma : Nat) : JobStat :=
  if s.runs = 0 then { s with measured := sample, runs := 1 }
  else
    let d : Int := (sample : Int) - s.measured
    { s with measured := ((s.measured : Int) + d / (2 ^ ewma : Nat)).toNat, runs := s.runs + 1 }

def Hw.modStat (h : Hw) (slot job : Nat) (f : JobStat → JobStat) : Hw :=
  h.modCtx slot (fun c => { c with stats := Tbl.set {} c.stats job (f (Tbl.get {} c.stats job)) })

end Sys2Proof.Machine
end

