-- ==== Sys2Proof/Machine/Web.lean ====
section
/-! DEFINITION. Request lines, camera triggers, encoders, source events of the tick, verdicts and output pulses as shared
operations (02 R29 to R37, 15 R419, R431, 19 R515 to R530). -/

namespace Sys2Proof.Machine

/-! ### DMA request lines (R419, R431) -/

/-- The request line that a channel's descriptor paces on (R429). -/
def DmaChan.line (c : DmaChan) : Option Nat :=
  if c.words = [] then none
  else
    let w := nth 0 c.words 0
    if bit w 14 then some (bits w 8 6) else none

/-- A line rises: every running channel that paces on it and has seen it low is armed again (R419). -/
def Hw.lineRise (h : Hw) (k : Nat) : Hw :=
  { h with dma.chans := List.map (fun (e : Nat × DmaChan) =>
      if e.2.line = some k && e.2.state = .running && !e.2.armed && e.2.seenLow then
        (e.1, { e.2 with armed := true, seenLow := false }) else e) h.dma.chans }

/-- A line falls: the channels that pace on it have seen it low. -/
def Hw.lineFall (h : Hw) (k : Nat) : Hw :=
  { h with dma.chans := List.map (fun (e : Nat × DmaChan) =>
      if e.2.line = some k && !e.2.armed then (e.1, { e.2 with seenLow := true }) else e) h.dma.chans }

/-- An event of a held line: counted up to 255, else dropped and recorded (R419). -/
def Hw.heldEvent (h : Hw) (k : Nat) : Hw :=
  let n := Tbl.get 0 h.dma.held k
  if 255 ≤ n then h.setRegBit Reg.dmaReqovf k
  else
    let h := { h with dma.held := Tbl.set 0 h.dma.held k (n + 1) }
    if n = 0 then h.lineRise k else h

/-- An event of a pulse line: high for 16 ns; events less than 32 ns apart merge (R419). -/
def Hw.pulseEvent (h : Hw) (k : Nat) : Hw :=
  match Tbl.find h.dma.pulse k with
  | some e =>
    if h.now < e + 16 then h
    else ({ h with dma.pulse := Tbl.put h.dma.pulse k (h.now + 16) }.lineFall k).lineRise k
  | none => ({ h with dma.pulse := Tbl.put h.dma.pulse k (h.now + 16) }.lineFall k).lineRise k

/-- Whether the module has reached READY, so that inputs act (R523). -/
def Hw.inputsAct (h : Hw) : Bool := h.sys.everReady

/-- The level of a request line now (R419, R431). -/
def Hw.lineHigh (h : Hw) (k : Nat) : Bool :=
  if k < 16 then 0 < Tbl.get 0 h.dma.held k && Tbl.find h.dma.dropped k ≠ some h.now
  else if k < 20 then (match Tbl.find h.dma.pulse k with | some e => decide (h.now < e) | none => false)
  else if k < 28 then h.inputsAct && bit h.web.filtered (k - 20)
  else false

/-! ### Camera triggers (R515) -/

/-- The owner's slot of a group, if it has an owner. -/
def CamPort.ownerSlot (p : CamPort) : Option Nat := if p.owner = 0 then none else some (bits p.owner 0 8)

/-- The active trigger settings of a group: its owner's copy (R515); 0 without an owner. -/
def Hw.trigOf (h : Hw) (m : Nat) : Word :=
  match (h.port m).ownerSlot with
  | some s => h.actReg (Reg.ofCtx s (Reg.cxpTrig m))
  | none => 0

/-- The position of an encoder. -/
def Hw.posOf (h : Hw) (e : Nat) : BitVec 48 := (h.encoder e).pos

/-- A group sends a trigger packet, unless one went out too shortly before or the stamp FIFO is full (R515, R518). -/
def Hw.sendTrigger (h : Hw) (m : Nat) : Hw :=
  let p := h.port m
  if !(p.link && p.master) then h
  else
    let gap := if 10 ≤ p.speed then 1000 else 2000
    let soon := match p.lastTrig with | some t => decide (h.now < t + gap) | none => false
    if soon || 64 ≤ p.stamps.length then h.setRegBit (Reg.cxpEvt m) 3
    else
      let s : Stamp := ⟨h.ptp.time, h.posOf (bits (h.trigOf m) 6 1)⟩
      let h := h.setPort m { p with lastTrig := some h.now, stamps := p.stamps ++ [s] }
      { h with cxp.sent := (h.now, m) :: h.cxp.sent }

/-- Triggers of every group whose active settings select source `src` (and, for INPUT, input `insel`). -/
def Hw.triggerAll (h : Hw) (src insel : Nat) : Hw :=
  (List.range 8).foldl (fun (h : Hw) m =>
    let t := h.trigOf m
    if bit t 0 && bits t 1 2 = src && (src ≠ 3 || bits t 3 3 = insel) then h.sendTrigger m else h) h

/-- One line of an encoder for the triggers that divide it (R515). -/
def Hw.triggerLine (h : Hw) (e : Nat) (d : Int) : Hw :=
  (List.range 8).foldl (fun (h : Hw) m =>
    let t := h.trigOf m
    if bit t 0 && bits t 1 2 = e then
      let n := (h.port m).divCount + d
      if (bits t 16 16 : Int) ≤ n then (h.modPort m (fun p => { p with divCount := 0 })).sendTrigger m
      else h.modPort m (fun p => { p with divCount := n })
    else h) h

/-! ### Source events of the tick (02 R29 to R37) -/

/-- A source event whose tick falls `lat` ns later; a tick less than 1,500 ns after the previous one is held (R31, R36). One
whose tick would follow the tick that is due, whose latency or hold still runs, waits for it. -/
def Hw.sourceEvent (h : Hw) (lat : Nat) (kind : TickKind) : Hw :=
  let t := h.now + lat
  let least := h.frm.lastTick + 1500
  let early : Bool := h.frm.ticked && t < least
  let h := if early then h.setRegBit Reg.frmStat 0 else h
  match h.frm.due with
  | some d => if d.2 < t then { h with frm.after := some kind } else h
  | none => { h with frm.due := some (kind, if early then least else t) }

/-- Word `i` of the domain configuration record (20 R565). -/
def Hw.dcfg (h : Hw) (i : Nat) : Word := h.reg (Reg.wmlDcfg i)

/-- The source that the module's own tick generator counts: its active FRM_SRC, or the record's for a domain's leader; SEL,
INSEL, EDGE, FL and whether it is the leader's (R29, 20 R555). -/
structure TickSource where
  sel : Nat
  insel : Nat
  falling : Bool
  fl : Nat
  leads : Bool

def Hw.tickSource (h : Hw) : TickSource :=
  let src := h.actReg Reg.frmSrc
  if bits src 0 3 = 6 && h.wml.joined && h.wml.isLeader then
    let w := h.dcfg 0
    ⟨bits w 0 3, bits w 8 3, bit w 11, bits (h.dcfg 1) 0 16, true⟩
  else ⟨bits src 0 3, bits src 8 3, bit src 11, bits (h.actReg Reg.frmFl) 0 16, false⟩

/-- An event of the module's tick source with its latency (R31): the module's own tick, or the leader's event in link time. -/
def Hw.tickEvent (h : Hw) (s : TickSource) (lat : Nat) : Hw :=
  if s.leads then { h with wml.sourceEvent := some (h.wml.ltime + BitVec.ofNat 64 lat) }
  else h.sourceEvent lat .source

/-- One line counted on encoder `e` toward the frame (R32). -/
def Hw.frameLine (h : Hw) (e : Nat) (d : Int) : Hw :=
  let s := h.tickSource
  if h.frm.running && s.sel = e + 1 then
    let n := h.frm.lines + d
    if (s.fl : Int) ≤ n then { h with frm.lines := 0 }.tickEvent s 24 else { h with frm.lines := n }
  else h

/-- A pulse whose position target is the present position of encoder `e` is due. -/
def Pulse.reach (p : Pulse) (e : Nat) (pos : BitVec 48) : Pulse :=
  match p.at_ with
  | .position enc t => if enc.toNat = e && t = pos then { p with due := true } else p
  | .time _ => p

/-- The pulses that a forward count of encoder `e` reaches (R527). -/
def Hw.reachTargets (h : Hw) (e : Nat) : Hw :=
  { h with web.outputs := List.map (fun (x : Nat × Output) =>
      (x.1, { x.2 with queue := x.2.queue.map (fun p => p.reach e (h.posOf e)) })) h.web.outputs }

/-- A count of encoder `e` (R520): position, request line, triggers and the frame. -/
def Hw.count (h : Hw) (e : Nat) (d : Int) : Hw :=
  let x := h.encoder e
  let h := h.setEncoder e { x with pos := x.pos + BitVec.ofInt 48 d }
  let h := if 0 < d then h.reachTargets e else h
  ((h.pulseEvent (16 + e)).triggerLine e d).frameLine e d

/-- The count that an edge from (a, b) to (a', b') makes under DECODE (R520): +1 when A leads B. -/
def edgeCount (decode : Nat) (a b a' b' : Bool) : Int :=
  if a ≠ a' then
    let fwd : Int := if a' ≠ b then 1 else -1
    if decode = 0 then (if a' then fwd else 0) else fwd
  else if b ≠ b' then
    if decode = 2 then (if b' = a then 1 else -1) else 0
  else 0

/-! ### Pulses (R526 to R530) -/

/-- How far a pulse's target lies ahead of the present position or time; none when it is already behind. -/
def Hw.pulseAhead (h : Hw) : PulseAt → Option Nat
  | .position e p =>
    let d := (p - h.posOf e.toNat).toNat
    if d < 2 ^ 47 then some d else none
  | .time t => if h.ptp.time ≤ t then some (t - h.ptp.time).toNat else none

/-- Puts a pulse into its place in target order. -/
def Hw.insertPulse (h : Hw) (p : Pulse) : List Pulse → List Pulse
  | [] => [p]
  | q :: t =>
    if (h.pulseAhead q.at_).getD 0 ≤ (h.pulseAhead p.at_).getD 0 then q :: h.insertPulse p t else p :: q :: t

/-- Makes the pulse of a verdict (R526 to R528); the Nat is ACTION of R561: 1 queued, 2 missed, 3 no rule, 0 none. -/
def Hw.makePulse (h : Hw) (slot o : Nat) (ref : BitVec 48) (opened : Dword) : Hw × Nat :=
  let out := h.output o
  match decide (out.bound = some slot), Tbl.find (h.ctx slot).active.rules o with
  | true, some r =>
    let at_ : PulseAt := if r.byTime then .time (opened + r.offset) else .position r.enc (ref + r.offset.setWidth 48)
    match h.pulseAhead at_ with
    | none => (h.setRegBit (Reg.webOevt o) 0, 2)
    | some d =>
      if 64 ≤ out.queue.length then (h.setRegBit (Reg.webOevt o) 1, 0)
      else (h.setOutput o { out with queue := h.insertPulse ⟨at_, r.width.toNat, d = 0 && !r.byTime⟩ out.queue }, 1)
  | _, _ => (h.setRegBit (Reg.webOevt o) 3, 3)

/-- The module holds every output safe in this state (R530). -/
def Hw.outputsHeld (h : Hw) : Bool := !h.isState .run

/-- Active pulses end at once when a hold begins (R530). -/
def Hw.holdOutputs (h : Hw) : Hw :=
  { h with web.outputs := List.map (fun (e : Nat × Output) => (e.1, { e.2 with activeUntil := none })) h.web.outputs }

/-! ### Verdicts (R524 to R526, 18 R502) -/

/-- The capture of `k` ticks ago: module time and both positions; zeros before there was one. -/
def Hw.captured (h : Hw) (k : Nat) : Dword × BitVec 48 × BitVec 48 := nth (0, 0, 0) h.web.capture k

/-- The key of a verdict index of a job in `WebBlock.last`. -/
def verdictKey (slot job i : Nat) : Nat := (slot * 64 + job) * 256 + i

/-- A verdict is entered (R526): `late` outranks `unsync`, then disputed, degraded and the post's own code. A HOLD_LAST verdict
whose output is no longer bound sets NORULE on no output (19, At the edges). -/
def Hw.enterVerdict (h : Hw) (slot job i : Nat) (late unsync disputed degraded : Bool) (post : Option Post) : Hw :=
  let key := verdictKey slot job i
  let last := Tbl.find h.web.last key
  let cap := h.captured 2
  let lateHere := late || post.isNone
  let out : Option Nat := match lateHere, post with
    | false, some p => some p.output
    | _, _ => last.map (·.output)
  let enc : Bool := match out.bind (fun o => Tbl.find (h.ctx slot).active.rules o) with
    | some r => r.enc
    | none => false
  let ref : BitVec 48 := match lateHere, post with
    | false, some p => p.ref
    | _, _ => if enc then cap.2.2 else cap.2.1
  let fail := match post with | some p => p.fail | none => false
  let code := if lateHere then 2 else if unsync then 5 else if disputed then 4 else if degraded then 3 else fail.toNat
  let cause := if code = 3 then Status.widenDenied else 0
  let policy := (h.ctx slot).active.policy
  let pulse := if code = 0 then false else if code = 1 then true else
    match policy with
    | 1 => true
    | 2 => (match last with | some l => l.pulse | none => false)
    | _ => false
  let h := match out with | none => h.bump Reg.webVerr 1 | some _ => h
  let r : Hw × Nat := match out, pulse with
    | some o, true =>
      if 1 < code ∧ policy = 2 ∧ (h.output o).bound ≠ some slot then (h, 3) else h.makePulse slot o ref cap.1
    | _, _ => (h, 0)
  let h := r.1
  let h := match out with
    | some o => { h with web.last := Tbl.put h.web.last key ⟨o, pulse⟩ }
    | none => h
  let v : Verdict := ⟨slot, job, i, code, cause, out.getD 0xFF, ref, r.2⟩
  { h with web.verdicts := h.web.verdicts ++ [v] }

/-- The VCOUNT verdicts of a run's result (R524, R525, R368, R501). -/
def Hw.enterResult (h : Hw) (unsync : Bool) (r : RunResult) : Hw :=
  let d := h.activeJob r.slot r.job
  if jobClass d ≠ 0 then h
  else
    (List.range (jobVcount d)).foldl (fun (h : Hw) i =>
      let post := h.web.posts.find? (fun p => p.slot = r.slot && p.job = r.job && p.half = 0 && p.index = i)
      h.enterVerdict r.slot r.job i (!r.complete) unsync r.disputed r.degraded post) h

/-- Verdicts owed as LATE (R164, 07 R207). -/
def Hw.enterOwed (h : Hw) (unsync : Bool) (o : Owed) : Hw :=
  (List.range o.count).foldl (fun (h : Hw) i => h.enterVerdict o.slot o.job i true unsync false false none) h

/-- The order of verdicts in the result stream (20 R537). -/
def verdictLe (a b : Verdict) : Bool := verdictKey a.slot a.job a.index ≤ verdictKey b.slot b.job b.index

/-- The window step for verdicts (02 R41): results of the runs of the ending frame and what is owed at this boundary. -/
def Hw.verdictStep (h : Hw) : Hw :=
  let unsync := h.wml.unsync || nth false h.wml.unsyncHist 1
  let due := h.web.owed.filter (fun o => o.after ≤ 1)
  let rest := (h.web.owed.filter (fun o => 1 < o.after)).map (fun o => { o with after := o.after - 1 })
  let h := { h with web.verdicts := [], web.owed := rest }
  let h := h.web.results.foldl (fun (h : Hw) r => h.enterResult unsync r) h
  let h := due.foldl (fun (h : Hw) o => h.enterOwed unsync o) h
  { h with web.verdicts := h.web.verdicts.mergeSort verdictLe, web.results := [], web.posts := [] }

/-! ### The result stream (20 R537, R560, R561) -/

/-- A verdict record, 16 bytes (R561). -/
def Verdict.record (v : Verdict) : List Byte :=
  bytesOf 6 v.ref.toNat ++ bytesOf 1 v.slot ++ bytesOf 1 v.job ++ bytesOf 1 v.index ++ bytesOf 1 v.code ++
    bytesOf 2 v.cause ++ bytesOf 1 v.output ++ bytesOf 1 v.action ++ bytesOf 2 0

/-- Lists of at most 90 records. -/
def inDatagrams (l : List (List Byte)) : Nat → List (List (List Byte))
  | 0 => []
  | n + 1 => if l.isEmpty then [] else l.take 90 :: inDatagrams (l.drop 90) n

/-- One datagram joins a port's queue of 512, or is discarded and counted (R537). -/
def Hw.queueDatagram (h : Hw) (port : Nat) (fnum : BitVec 48) (part : Nat) (last : Bool) (records : List (List Byte)) : Hw :=
  let p := h.ethPort port
  let flags := h.ptp.fault.toNat + p.gap.toNat * 2 + last.toNat * 4 + h.wml.joined.toNat * 8
  if 512 ≤ p.queue.length then
    (h.setEthPort port { p with dseq := p.dseq + 1, gap := true }).bump (Reg.ethRsdrop port) 1
  else
    let d : Datagram := ⟨p.dseq, fnum, (h.captured 2).1, BitVec.ofNat 8 flags, part, records⟩
    h.setEthPort port { p with dseq := p.dseq + 1, gap := false, queue := p.queue ++ [d] }

/-- The verdicts entered at this boundary go out on every enabled port with a stream port (R537). -/
def Hw.sendResults (h : Hw) : Hw :=
  if h.web.verdicts.isEmpty then h
  else
    let l := h.web.verdicts.map Verdict.record
    let parts := inDatagrams l (l.length / 90 + 1)
    (List.range 2).foldl (fun (h : Hw) port =>
      if (h.ethPort port).enabled && (h.ethPort port).destUdp ≠ 0 then
        (List.zip (List.range parts.length) parts).foldl (fun (h : Hw) x =>
          h.queueDatagram port (h.frm.fnum - 2) x.1 (x.1 + 1 = parts.length) x.2) h
      else h) h

end Sys2Proof.Machine
end

