-- ==== Sys2Proof/Machine/FtcRun.lean ====
section
/-! DEFINITION. The start and the end of a job's run on Fintoic cores (08 R219 to R221, 07 R202, 18 R501). -/

namespace Sys2Proof.Machine

/-! ### Control register numbers (R248) -/

def Cr.ctl : Nat := 0
def Cr.stat : Nat := 1
def Cr.ien : Nat := 2
def Cr.ipend : Nat := 3
def Cr.ilvl : Nat := 4
def Cr.ivec1 : Nat := 5
def Cr.ivec2 : Nat := 6
def Cr.tvec : Nat := 7
def Cr.epc1 : Nat := 8
def Cr.epc2 : Nat := 9
def Cr.tepc : Nat := 10
def Cr.cause : Nat := 11
def Cr.tval : Nat := 12
def Cr.vstate1 : Nat := 14
def Cr.vstate2 : Nat := 16
def Cr.vstatet : Nat := 18
def Cr.win : Nat := 20
def Cr.cycle : Nat := 24
def Cr.tcmp : Nat := 26
def Cr.estat1 : Nat := 27
def Cr.estat2 : Nat := 28
def Cr.estatt : Nat := 29

def Core.getCr (c : Core) (n : Nat) : Word := Tbl.get 0 c.cr n
def Core.setCr (c : Core) (n : Nat) (v : Word) : Core := { c with cr := Tbl.set 0 c.cr n v }

/-- Bytes of one of a core's own memories from an address on. -/
def putBytes (t : Tbl Byte) (a : Nat) : List Byte → Tbl Byte
  | [] => t
  | b :: r => putBytes (Tbl.set 0 t a b) (a + 1) r

/-- The parcels of an image in program memory. -/
def loadParcels (l : List (BitVec 14)) : Tbl (BitVec 14) :=
  (List.zip (List.range l.length) l).foldl (fun t x => Tbl.set 0 t x.1 x.2) []

/-- The initialised data sections of an image in X (`y` false) or Y memory: bit 17 of the core address tells them apart. -/
def loadData (y : Bool) (l : List (Nat × List Byte)) : Tbl Byte :=
  l.foldl (fun t s => if decide (s.1 / 0x20000 % 2 = 1) = y then putBytes t (s.1 % 0x20000) s.2 else t) []

/-- The local address of a core's window (R226). -/
def coreWindow (c : Nat) : Nat := coreBase + 0x100000 * c

/-- What a job's run is on one core: its half and its rank. -/
structure RunPlace where
  core : Nat
  half : Nat
  rank : Nat

/-- The state of a core before the first bundle of a run (R219); the program is loaded only when another stands there
(R220), and fresh memory holds no error. -/
def Core.started (c : Core) (img : ProgImage) (id : Option Nat) (slot job half rank cores : Nat) (fnum : BitVec 48)
    (d : List Word) : Core :=
  let s (t : Tbl Word) (i : Nat) (v : Word) : Tbl Word := Tbl.set 0 t i v
  let regs := s (s (s (s (s (s (s (s [] 0 (nth 0 d 4)) 1 ((nth 0 d 5) &&& 0xFFFF)) 2 (fnum.setWidth 32))
    3 ((fnum >>> 32).setWidth 32)) 4 (BitVec.ofNat 32 rank)) 5 (BitVec.ofNat 32 cores)) 6 (BitVec.ofNat 32 half))
    7 (BitVec.ofNat 32 (job + slot * 256))
  let pm := if c.image = id && id.isSome then c.pm else loadParcels img.parcels
  let ctl : Word := BitVec.ofNat 32 (img.vxm.toNat + 2 * img.dspm.toNat)
  { image := id, run := .job, ran := false, halted := false, slot := slot, job := job, half := half, rank := rank
    cores := cores, pc := img.entry, s := regs
    x := loadData false img.data, y := loadData true img.data, pm := pm, fetch := pm
    cr := s (s (s (s [] Cr.ctl ctl) Cr.tvec (img.tvec.setWidth 32)) Cr.ivec1 (img.ivec1.setWidth 32)) Cr.ivec2
      (img.ivec2.setWidth 32)
    dbgPc := c.dbgPc }

/-- Starts a job on one core. -/
def Hw.startCore (h : Hw) (a : Admit) (d : List Word) (p : RunPlace) : Hw :=
  let id := Tbl.find (h.ctx a.slot).active.progs (jobField d 3 0 4)
  let img := Config.progImage (match id with | some i => Tbl.get [] h.images i | none => [])
  let w := coreWindow p.core
  let h := { h with
    mem.gran := Tbl.clearRange h.mem.gran w (w + 0x100000)
    helds := Tbl.clearRange h.helds (Reg.ofCtx (32 + p.core) 0) (Reg.ofCtx (33 + p.core) 0) }
  let h := h.modCore p.core (fun c => c.started img id a.slot a.job p.half p.rank a.cores.length h.frm.fnum d)
  -- R451: a doorbell that waits for this run is raised at its first bundle.
  (List.range 64).foldl (fun (h : Hw) n =>
    let ch := h.channel n
    if h.routeCore ch = some p.core && (ch.db &&& ~~~ch.mask) ≠ 0 then h.raise p.core 2 else h) h

/-- The cores of an admitted job with their halves and ranks. -/
def Admit.places (a : Admit) : List RunPlace :=
  let of (l : List Nat) (half : Nat) := (List.zip (List.range l.length) l).map (fun x => RunPlace.mk x.2 half x.1)
  of a.cores 0 ++ of a.cores2 1

/-- The admitted jobs of the new frame start (02 R41); their energies of this frame begin at 0. -/
def Hw.startJobs (h : Hw) : Hw :=
  h.col.plan.jobs.foldl (fun (h : Hw) a =>
    let h := { h with col.jobEnergy := Tbl.del h.col.jobEnergy (jobKey a.slot a.job) }
    a.places.foldl (fun (h : Hw) p => h.startCore a (h.activeJob a.slot a.job) p) h) h

/-- The digest of a half: the exclusive OR of what its cores' commands gave (12 R337). -/
def Hw.halfDigest (h : Hw) (cores : List Nat) : Dword := cores.foldl (fun d c => d ^^^ (h.core c).digest) 0

/-- Whether the halves of a paired run agree (18 R501): verdicts, digests and FITMISS bits. -/
def Hw.halvesAgree (h : Hw) (a : Admit) : Bool :=
  let codes (half : Nat) := (h.web.posts.filter (fun p => p.slot = a.slot && p.job = a.job && p.half = half)).map
    (fun p => (p.index, p.fail))
  let one := codes 0
  let two := codes 1
  one.all two.contains && two.all one.contains && h.halfDigest a.cores = h.halfDigest a.cores2 &&
    !h.fitDiff.contains (a.slot, a.job)

/-- A PAIRED mismatch (R489, R501): every core and array of both halves becomes suspect, one DISPUTED entry is logged. -/
def Hw.dispute (h : Hw) (a : Admit) : Hw :=
  let units := (a.cores ++ a.cores2).map coreUnit ++ (a.arrays ++ a.arrays2).map arrayUnit
  let h := units.foldl (fun (h : Hw) u => h.cpcSuspect u) (h.cpcEvent 3)
  let u := coreUnit (nth 0 a.cores 0)
  h.cpcLog u 8 (h.unitRec u).count a.slot

/-- A run completes (R221): its result, its measured cost, and DONE. -/
def Hw.completeRun (h : Hw) (a : Admit) : Hw :=
  let d := h.activeJob a.slot a.job
  let disputed := a.paired && !h.halvesAgree a
  let h := if disputed then h.dispute a else h
  let r : RunResult := ⟨a.slot, a.job, true, disputed, h.degraded.any (fun x => x.1 = a.slot && x.2.1 = a.job)⟩
  let h := { h with web.results := h.web.results ++ [r] }
  let h := h.modStat a.slot a.job (fun s => s.complete (h.runEnergy a.slot a.job a.paired) (bits (h.actReg Reg.colCfg) 0 3))
  if jobField d 6 31 1 = 1 then h.signal ⟨a.slot, 7⟩ (jobField d 6 0 14) 1 else h

/-- Core `c` ends its part of its job's run; the run completes with its last core (R221). -/
def Hw.endPart (h : Hw) (c : Nat) : Hw :=
  let k := h.core c
  let h := h.stopCore c
  match h.col.plan.jobs.find? (fun a => a.slot = k.slot && a.job = k.job) with
  | none => h
  | some a =>
    if (a.cores ++ a.cores2).any (fun x => (h.core x).run = .job && (h.core x).slot = k.slot && (h.core x).job = k.job) then h
    else h.completeRun a

end Sys2Proof.Machine
end

