-- ==== Sys2Proof/Machine/CoreMem.lean ====
section
/-! DEFINITION. A Fintoic core's own memories as bytes of its local window (08 R224, R226, 09 R266), with the granule errors of
17 R466 at their local addresses. -/

namespace Sys2Proof.Machine

/-- A byte of a core's window (R226): X, Y, program memory; beyond them 0. -/
def Core.byte (c : Core) (o : Nat) : Byte :=
  if o < 0x20000 then Tbl.get 0 c.x o
  else if o < 0x40000 then Tbl.get 0 c.y (o - 0x20000)
  else if o < 0x60000 then
    let p := Tbl.get 0 c.pm ((o - 0x40000) / 2)
    if o % 2 = 0 then BitVec.ofNat 8 (bits p 0 8) else BitVec.ofNat 8 (bits p 8 6)
  else 0

/-- Writes a byte of a core's window; bits [15:14] of a parcel's halfword are ignored (R266). -/
def Core.putByte (c : Core) (o : Nat) (b : Byte) : Core :=
  if o < 0x20000 then { c with x := Tbl.set 0 c.x o b }
  else if o < 0x40000 then { c with y := Tbl.set 0 c.y (o - 0x20000) b }
  else if o < 0x60000 then
    let n := (o - 0x40000) / 2
    let p := Tbl.get 0 c.pm n
    { c with image := none, pm := Tbl.set 0 c.pm n (if o % 2 = 0 then setBits p 0 8 b.toNat else setBits p 8 6 b.toNat) }
  else c

def Core.bytesAt (c : Core) (o : Nat) : Nat → List Byte
  | 0 => []
  | n + 1 => c.byte o :: c.bytesAt (o + 1) n

def Core.putBytesAt (c : Core) (o : Nat) : List Byte → Core
  | [] => c
  | b :: t => (c.putByte o b).putBytesAt (o + 1) t

/-- Reads a range of core `c`'s window that lies within one of its memories; on poison, the local address of the granule. -/
def Hw.winRead (h : Hw) (agent slot c o n : Nat) : Hw × Except Nat (List Byte) :=
  match h.readGrans agent slot (if o < 0x60000 then granules (coreWindow c + o) n else []) with
  | (h, some g) => (h, .error g)
  | (h, none) => (h, .ok ((h.core c).bytesAt o n))

/-- Writes a range of core `c`'s window. -/
def Hw.winWrite (h : Hw) (agent slot c o : Nat) (bytes : List Byte) : Hw :=
  if 0x60000 ≤ o then h
  else
    let a := coreWindow c + o
    let n := bytes.length
    let h := h.writeGrans agent slot a (a + n) (granules a n)
    h.modCore c (·.putBytesAt o bytes)

/-- The core that runs the part of a job's run with a rank and half (15 R416, R425). -/
def Hw.runCore (h : Hw) (slot job rank half : Nat) : Option Nat :=
  (List.range 18).find? (fun c =>
    let x := h.core c
    x.run = .job && x.slot = slot && x.job = job && x.rank = rank && x.half = half)

end Sys2Proof.Machine
end

