-- ==== Sys2Proof/Machine/FtcUnit.lean ====
section
/-! DEFINITION. What the units of a Fintoic core compute, on values alone: the scalar ALU and compares (10 R272 to R274), the
signal unit (R284 to R287), and the lanes of the vector unit (11 R295 to R303). -/

namespace Sys2Proof.Machine

/-! ### Registers of a core (08 R222) -/

def Core.getS (c : Core) (i : Nat) : Word := Tbl.get 0 c.s i
def Core.getP (c : Core) (i : Nat) : Bool := i = 0 || Tbl.get false c.p i
def Core.getG (c : Core) (i : Nat) : Word := Tbl.get 0 c.g i
def Core.getM (c : Core) (i : Nat) : Word := Tbl.get 0 c.m i
def Core.getA (c : Core) (i : Nat) : Int := (Tbl.get 0 c.a i : BitVec 56).toInt
def Core.getV (c : Core) (i : Nat) : Vec := Tbl.get 0 c.v i
def Core.getK (c : Core) (i : Nat) : BitVec 128 := Tbl.get 0 c.k i
def Core.getW (c : Core) (i : Nat) : BitVec 3072 := Tbl.get 0 c.w i

def Core.putS (c : Core) (i : Nat) (v : Word) : Core := { c with s := Tbl.set 0 c.s i v }
/-- A write to p0 is ignored. -/
def Core.putP (c : Core) (i : Nat) (v : Bool) : Core := if i = 0 then c else { c with p := Tbl.set false c.p i v }
def Core.putG (c : Core) (i : Nat) (v : Word) : Core := { c with g := Tbl.set 0 c.g i v }
def Core.putM (c : Core) (i : Nat) (v : Word) : Core := { c with m := Tbl.set 0 c.m i v }
def Core.putA (c : Core) (i : Nat) (v : Int) : Core := { c with a := Tbl.set 0 c.a i (BitVec.ofInt 56 v) }
def Core.putV (c : Core) (i : Nat) (v : Vec) : Core := { c with v := Tbl.set 0 c.v i v }
def Core.putK (c : Core) (i : Nat) (v : BitVec 128) : Core := { c with k := Tbl.set 0 c.k i v }
def Core.putW (c : Core) (i : Nat) (v : BitVec 3072) : Core := { c with w := Tbl.set 0 c.w i v }

/-- FTC_CTL.DSPM as it acts. -/
def Core.dsp24 (c : Core) : Bool := bit (c.getCr Cr.ctl) 1

/-! ### Scalar ALU and compares -/

/-- Held in the signed range of `n` bits (R286, `sat`). -/
def satInt (n : Nat) (v : Int) : Int := clampInt (-(2 ^ (n - 1) : Nat)) ((2 ^ (n - 1) : Nat) - 1) v

/-- The low 32 bits of an exact value. -/
def toWord (v : Int) : Word := BitVec.ofInt 32 v

def aluEval (op : AluOp) (a b : Word) : Word :=
  match op with
  | .add => a + b
  | .sub => a - b
  | .and => a &&& b
  | .or => a ||| b
  | .xor => a ^^^ b
  | .shl => a <<< b.toNat
  | .shr => a.sshiftRight b.toNat
  | .shru => a >>> b.toNat
  | .mul => a * b
  | .min => if a.toInt ≤ b.toInt then a else b
  | .max => if a.toInt ≤ b.toInt then b else a
  | .adds => toWord (satInt 32 (a.toInt + b.toInt))
  | .subs => toWord (satInt 32 (a.toInt - b.toInt))

/-- `n` is the extended immediate (R259). -/
def immEval (op : ImmOp) (d n : Word) : Word :=
  match op with
  | .addi => d + n
  | .movi => n
  | .andi => d &&& n
  | .ori => d ||| n
  | .xori => d ^^^ n

def shiftEval (op : ShiftOp) (d : Word) (n : Nat) : Word :=
  match op with
  | .shli => d <<< n
  | .shri => d.sshiftRight n
  | .shrui => d >>> n

def cmpEval (op : CmpOp) (a b : Word) : Bool :=
  match op with
  | .eq => decide (a = b)
  | .ne => decide (a ≠ b)
  | .lt => decide (a.toInt < b.toInt)
  | .le => decide (a.toInt ≤ b.toInt)
  | .ltu => decide (a.toNat < b.toNat)
  | .leu => decide (a.toNat ≤ b.toNat)

/-! ### The signal unit -/

/-- W of R284. -/
def accWidth (dsp24 : Bool) : Nat := if dsp24 then 56 else 40

/-- The operand width and sat.a's output width of R284. -/
def opWidth (dsp24 : Bool) : Nat := if dsp24 then 24 else 16

/-- An operand of the signal unit from a word (R285). -/
def sigOperand (dsp24 : Bool) (w : Word) : Int := signed (opWidth dsp24) w.toNat

/-- mac, msu and mpy (R286); `n` is the accumulator's width. -/
def macEval (op : MacOp) (n : Nat) (acc x y : Int) : Int :=
  match op with
  | .mac => satInt n (acc + x * y)
  | .msu => satInt n (acc - x * y)
  | .mpy => x * y

/-- Floor division by a power of two: `>>` on exact values. -/
def shiftDown (v : Int) (n : Nat) : Int := v / (2 ^ n : Nat)

/-- The rounding shift of sat.a and vnarrow (R287). -/
def roundShift (v : Int) (n : Nat) : Int := if n = 0 then v else shiftDown (v + (2 ^ (n - 1) : Nat)) n

/-- shla (R286). -/
def shlaEval (n : Nat) (acc : Int) (s : Int) : Int :=
  if 0 ≤ s then satInt n (acc * (2 ^ s.toNat : Nat)) else shiftDown acc (-s).toNat

/-! ### Lanes -/

/-- Halfword lane `i` as a number (R295). -/
def lane (v : Vec) (i : Nat) : Nat := bits v (16 * i) 16

/-- Halfword lane `i`, signed. -/
def laneInt (v : Vec) (i : Nat) : Int := signed 16 (lane v i)

def setLane (v : Vec) (i : Nat) (x : Nat) : Vec := setBits v (16 * i) 16 x

/-- A vector from its 64 halfword lanes. -/
def ofLanes (f : Nat → Nat) : Vec := BitVec.ofNat 1024 ((List.range 64).foldl (fun a i => a + f i % 65536 * 2 ^ (16 * i)) 0)

/-- A vector from its 128 byte lanes. -/
def ofBytes (f : Nat → Nat) : Vec := BitVec.ofNat 1024 ((List.range 128).foldl (fun a i => a + f i % 256 * 2 ^ (8 * i)) 0)

def byteLane (v : Vec) (j : Nat) : Nat := bits v (8 * j) 8
def byteInt (v : Vec) (j : Nat) : Int := signed 8 (byteLane v j)

/-- The lane of an accumulator (R295). -/
def wLane (w : BitVec 3072) (i : Nat) : Int := signed 48 (bits w (48 * i) 48)

def ofWLanes (f : Nat → Int) : BitVec 3072 :=
  BitVec.ofNat 3072 ((List.range 64).foldl (fun a i => a + wrap 48 (f i) * 2 ^ (48 * i)) 0)

/-- The halfword operations of R298 on signed lanes; the bitwise and byte ones are not lane-wise here. -/
def vecLane (op : VecOp) (a b : Int) : Int :=
  match op with
  | .subH => a - b
  | .addsH => satInt 16 (a + b)
  | .subsH => satInt 16 (a - b)
  | .mulH => satInt 16 (shiftDown (a * b + 16384) 15)
  | .minH => if a ≤ b then a else b
  | .maxH => if a ≤ b then b else a
  | _ => a + b

/-- An element-wise operation (R298). -/
def vecEval (op : VecOp) (a b : Vec) : Vec :=
  match op with
  | .and => a &&& b
  | .or => a ||| b
  | .xor => a ^^^ b
  | .addB => ofBytes (fun j => wrap 8 (byteInt a j + byteInt b j))
  | .addsB => ofBytes (fun j => wrap 8 (satInt 8 (byteInt a j + byteInt b j)))
  | _ => ofLanes (fun i => wrap 16 (vecLane op (laneInt a i) (laneInt b i)))

/-- The masked forms: lane i is enabled by bit 2i; a disabled lane is zeroed or kept (R296, R300). -/
def vecMasked (op : VecOp) (d b : Vec) (k : BitVec 128) (z : Bool) : Vec :=
  ofLanes (fun i =>
    if bit k (2 * i) then wrap 16 (vecLane op (laneInt d i) (laneInt b i)) else if z then 0 else lane d i)

/-- vmov.m, byte lane by byte lane (R300). -/
def vmovMaskedEval (d b : Vec) (k : BitVec 128) (z : Bool) : Vec :=
  ofBytes (fun j => if bit k j then byteLane b j else if z then 0 else byteLane d j)

/-- The lane shifts of R299. -/
def vshiftEval (op : VShiftOp) (a : Vec) (n : Nat) : Vec :=
  ofLanes (fun i => wrap 16 (match op with
    | .shl => satInt 16 (laneInt a i * (2 ^ n : Nat))
    | .shr => shiftDown (laneInt a i) n
    | .shrr => roundShift (laneInt a i) n))

/-- vmac.h, vmsu.h and vmpy.h (R301). -/
def vmacEval (op : MacOp) (w : BitVec 3072) (a b : Vec) : BitVec 3072 :=
  ofWLanes (fun i => macEval op 48 (wLane w i) (laneInt a i) (laneInt b i))

/-- vnarrow (R302). -/
def vnarrowEval (w : BitVec 3072) (n : Nat) : Vec := ofLanes (fun i => wrap 16 (satInt 16 (roundShift (wLane w i) n)))

def vcmpLane (op : VCmpOp) (a b : Int) : Bool :=
  match op with
  | .eq => decide (a = b)
  | .lt => decide (a < b)
  | .le => decide (a ≤ b)

/-- A vector compare writes bits 2i and 2i + 1 (R296, R303). -/
def vcmpEval (op : VCmpOp) (a b : Vec) : BitVec 128 :=
  BitVec.ofNat 128 ((List.range 64).foldl (fun s i => s + (if vcmpLane op (laneInt a i) (laneInt b i) then 3 * 4 ^ i else 0)) 0)

/-! ### The running result of a reduction or search (R313, R314, R319) -/

/-- Element `e` of a stream search on the state vector `d`. -/
def searchStep (min : Bool) (d va : Vec) (e : Nat) : Vec :=
  let best := laneInt d 0
  let x := laneInt va e
  let found := lane d 1 ≠ 0
  let pos := (lane d 4 + lane d 5 * 65536 + e) % 2 ^ 32
  if !found || (if min then decide (x < best) else decide (best < x)) then
    setLane (setLane (setLane (setLane d 0 (wrap 16 x)) 1 1) 2 (pos % 65536)) 3 (pos / 65536)
  else d

/-- The end step of a search: POS increases by 64. -/
def searchEnd (d : Vec) : Vec :=
  let pos := (lane d 4 + lane d 5 * 65536 + 64) % 2 ^ 32
  setLane (setLane d 4 (pos % 65536)) 5 (pos / 65536)

/-- Element `e` of a reduction into `sd`, and `sd + 1` for the two that carry an index. -/
def Core.reduceStep (c : Core) (op : RedOp) (d va e : Nat) : Core :=
  let x := laneInt (c.getV va) e
  let r := (c.getS d).toInt
  let index (better : Bool) : Core :=
    if e = 0 then (c.putS d (toWord x)).putS (d + 1) 0
    else if better then (c.putS d (toWord x)).putS (d + 1) (BitVec.ofNat 32 e)
    else c
  match op with
  | .sum => c.putS d (toWord (if e = 0 then x else r + x))
  | .min => c.putS d (toWord (if e = 0 then x else if x < r then x else r))
  | .max => c.putS d (toWord (if e = 0 then x else if r < x then x else r))
  | .minidx => index (decide (x < r))
  | .maxidx => index (decide (r < x))
  | .searchMin => c.putV d (searchStep true (c.getV d) (c.getV va) e)
  | .searchMax => c.putV d (searchStep false (c.getV d) (c.getV va) e)

end Sys2Proof.Machine
end

