-- ==== Sys2Proof/Machine/FtcDecode.lean ====
section
/-! DEFINITION. The encoding of Fintoic instructions (09 R252 to R271): a parcel pair is decoded to a slot and encoded from one,
a bundle is taken from program memory and checked in the three steps of R255. -/

namespace Sys2Proof.Machine

/-! ### Fields -/

def fS (n : Nat) : Fin 32 := Fin.ofNat 32 n
def fG (n : Nat) : Fin 16 := Fin.ofNat 16 n
def fM (n : Nat) : Fin 8 := Fin.ofNat 8 n
def fA (n : Nat) : Fin 4 := Fin.ofNat 4 n

/-- An n-bit immediate, sign-extended (R259). -/
def simm (n v : Nat) : Word := BitVec.ofInt 32 (signed n v)

/-- A value when the operand bits that a format requires to be 0 are 0 (R265). -/
def when0 {α : Type} (rest : Nat) (x : α) : Option α := if rest = 0 then some x else none

/-! ### Decoding -/

/-- The operation of a short instruction: opcode and operand bits (R261, R269). -/
def decodeShort (op o : Nat) : Option CoreOp :=
  let d := fS (o / 8)
  let a := fS (o % 8)
  let g := fG (o % 8)
  let m := fM (o % 8)
  let acc := fA (o / 16)
  match op with
  | 0x00 => when0 o .nop
  | 0x01 => when0 o .halt
  | 0x02 => some (.alu .add d d a)
  | 0x03 => some (.alu .sub d d a)
  | 0x04 => some (.alu .and d d a)
  | 0x05 => some (.alu .or d d a)
  | 0x06 => some (.alu .xor d d a)
  | 0x07 => some (.mov d a)
  | 0x08 => some (.imm .addi d (simm 3 (o % 8)))
  | 0x09 => some (.imm .movi d (BitVec.ofNat 32 (o % 8)))
  | 0x0A => some (.shift .shli d (BitVec.ofNat 5 (o % 8)))
  | 0x0B => some (.shift .shri d (BitVec.ofNat 5 (o % 8)))
  | 0x0C => some (.cmp .eq 1 d a)
  | 0x0D => some (.cmp .lt 1 d a)
  | 0x0E => some (.br (BitVec.ofInt 16 (signed 6 o)))
  | 0x0F => when0 (o / 2) (.lbrk (Fin.ofNat 2 o))
  | 0x10 => when0 o .csync
  | 0x11 => when0 o .pmsync
  | 0x12 => when0 o .rti
  | 0x13 => when0 o .rtt
  | 0x14 => some (.brk (BitVec.ofNat 6 o))
  | 0x15 => when0 o .vgate
  | 0x16 => some (.sint (BitVec.ofNat 6 o))
  | 0x17 => some (.ld .w d (.plain g))
  | 0x18 => some (.ld .w d (.post g m))
  | 0x19 => some (.st .w d (.plain g))
  | 0x1A => some (.st .w d (.post g m))
  | 0x1B => when0 (o / 8) (.adda g (.modifier m))
  | 0x1C => some (.macr .mac acc (fS (16 + o / 4 % 4)) (fS (20 + o % 4)))
  | 0x1D => some (.macr .msu acc (fS (16 + o / 4 % 4)) (fS (20 + o % 4)))
  | 0x1E => when0 (o % 16) (.clr acc)
  | _ => some (.vmov d a)

/-- Format L3 (R260, R270): d, a and b with b[4] from the major opcode's low bit. -/
def l3 (maj q : Nat) (f : Fin 32 → Fin 32 → Fin 32 → CoreOp) : Option CoreOp :=
  some (f (fS (q / 512)) (fS (q / 16 % 32)) (fS (q % 16 + 16 * (maj % 2))))

/-- The address form of format LM (R271). -/
def lmForm (q : Nat) : Option AddrForm :=
  let g := fG (q / 32 % 16)
  let m := fM (q / 4 % 8)
  match q % 4 with
  | 0 => some (.plain g)
  | 1 => some (.post g m)
  | 2 => some (.indexed g m)
  | _ => none

/-- Format LM; a PLAIN access uses no m register, and its m field is not a required 0. -/
def lm (q : Nat) (f : Fin 32 → AddrForm → CoreOp) : Option CoreOp := (lmForm q).map (f (fS (q / 512)))

/-- Format LD2 (R270, R271). -/
def ld2 (q : Nat) (op : MacOp) : Option CoreOp :=
  let x (src : DualSrc) : Dual :=
    ⟨fA (q / 4096), fM (q / 512), fM (q / 64), fA (q / 16), fA (q / 4), src⟩
  match q % 4 with
  | 0 => some (.dual op (x .xy))
  | 1 => some (.dual op (x .xp))
  | 2 => some (.dual op (x .py))
  | _ => none

/-- The operation of a long instruction: major opcode and operand parcel (R264, R270). -/
def decodeLong (maj q : Nat) : Option CoreOp :=
  let hi := fS (q / 512)
  let mid := fS (q / 16 % 32)
  match maj with
  | 0x02 | 0x03 => l3 maj q (.alu .add)
  | 0x04 | 0x05 => l3 maj q (.alu .sub)
  | 0x06 | 0x07 => l3 maj q (.alu .and)
  | 0x08 | 0x09 => l3 maj q (.alu .or)
  | 0x0A | 0x0B => l3 maj q (.alu .xor)
  | 0x0C | 0x0D => l3 maj q (.alu .shl)
  | 0x0E | 0x0F => l3 maj q (.alu .shr)
  | 0x10 | 0x11 => l3 maj q (.alu .shru)
  | 0x12 | 0x13 => l3 maj q (.alu .mul)
  | 0x14 | 0x15 => l3 maj q (.alu .min)
  | 0x16 | 0x17 => l3 maj q (.alu .max)
  | 0x18 | 0x19 => l3 maj q (.alu .adds)
  | 0x1A | 0x1B => l3 maj q (.alu .subs)
  | 0x1C => when0 (q % 16) (.movcR hi mid)
  | 0x1D => when0 (q % 16) (.movcW hi mid)
  | 0x1E => when0 (q % 64) (.movToLoop (BitVec.ofNat 3 (q / 2048)) (fS (q / 64 % 32)))
  | 0x1F => when0 (q % 64) (.movFromLoop (BitVec.ofNat 3 (q / 2048)) (fS (q / 64 % 32)))
  | 0x20 => some (.imm .addi hi (simm 9 (q % 512)))
  | 0x21 => some (.imm .movi hi (simm 9 (q % 512)))
  | 0x22 => some (.imm .andi hi (simm 9 (q % 512)))
  | 0x23 => some (.imm .ori hi (BitVec.ofNat 32 (q % 512)))
  | 0x24 => some (.imm .xori hi (BitVec.ofNat 32 (q % 512)))
  | 0x25 => when0 (q / 32 % 16) (.shift .shli hi (BitVec.ofNat 5 q))
  | 0x26 => when0 (q / 32 % 16) (.shift .shri hi (BitVec.ofNat 5 q))
  | 0x27 => when0 (q / 32 % 16) (.shift .shrui hi (BitVec.ofNat 5 q))
  | 0x30 => when0 (q / 32 % 2) (.cmp .eq (fM (q / 2048)) (fS (q / 64 % 32)) (fS (q % 32)))
  | 0x31 => when0 (q / 32 % 2) (.cmp .ne (fM (q / 2048)) (fS (q / 64 % 32)) (fS (q % 32)))
  | 0x32 => when0 (q / 32 % 2) (.cmp .lt (fM (q / 2048)) (fS (q / 64 % 32)) (fS (q % 32)))
  | 0x33 => when0 (q / 32 % 2) (.cmp .le (fM (q / 2048)) (fS (q / 64 % 32)) (fS (q % 32)))
  | 0x34 => when0 (q / 32 % 2) (.cmp .ltu (fM (q / 2048)) (fS (q / 64 % 32)) (fS (q % 32)))
  | 0x35 => when0 (q / 32 % 2) (.cmp .leu (fM (q / 2048)) (fS (q / 64 % 32)) (fS (q % 32)))
  | 0x36 => some (.cmpImm false (fM (q / 2048)) (fS (q / 64 % 32)) (BitVec.ofNat 6 q))
  | 0x37 => some (.cmpImm true (fM (q / 2048)) (fS (q / 64 % 32)) (BitVec.ofNat 6 q))
  | 0x38 => when0 (q % 32) (.pand (fM (q / 2048)) (fM (q / 256)) (fM (q / 32)))
  | 0x39 => when0 (q % 32) (.por (fM (q / 2048)) (fM (q / 256)) (fM (q / 32)))
  | 0x3A => when0 (q % 256) (.pnot (fM (q / 2048)) (fM (q / 256)))
  | 0x3B => some (.br (BitVec.ofInt 16 (signed 14 q)))
  | 0x3C => some (.call (BitVec.ofInt 16 (signed 14 q)))
  | 0x3D => when0 (q % 512) (.jr hi)
  | 0x3E => some (.loop (Fin.ofNat 2 (q / 8192)) (fS (q / 256 % 32)) (BitVec.ofNat 8 q))
  | 0x3F => some (.loopi (Fin.ofNat 2 (q / 8192)) (BitVec.ofNat 5 (q / 256)) (BitVec.ofNat 8 q))
  | 0x40 => lm q (.ld .b)
  | 0x41 => lm q (.ld .bu)
  | 0x42 => lm q (.ld .h)
  | 0x43 => lm q (.ld .hu)
  | 0x44 => lm q (.ld .w)
  | 0x45 => lm q (.st .b)
  | 0x46 => lm q (.st .h)
  | 0x47 => lm q (.st .w)
  | 0x48 => when0 (q % 32) (.movG (fG (q / 1024)) (fS (q / 32 % 32)))
  | 0x49 => when0 (q % 32) (.movS (fS (q / 32 % 32)) (fG (q / 1024)))
  | 0x4A => when0 (q % 64) (.movM (fM (q / 2048)) (fS (q / 64 % 32)))
  | 0x4B => some (.adda (fG (q / 1024)) (.imm (BitVec.ofNat 10 q)))
  | 0x4C => some (.bqIssue (fG (q / 1024)) (fS (q / 32 % 32)) (fS (q % 32)))
  | 0x4D => when0 (q % 32) (.bqPoll (fS (q / 32 % 32)) (fG (q / 1024)))
  | 0x4E => when0 (q % 32) (.bqWait (fS (q / 32 % 32)) (fG (q / 1024)))
  | 0x4F => when0 (q % 32) (.bqStat (fS (q / 32 % 32)) (fG (q / 1024)))
  | 0x50 => when0 (q % 16) (.synSig hi mid)
  | 0x51 => when0 (q % 16) (.synWait hi mid)
  | 0x52 => when0 (q % 16) (.synArm hi mid)
  | 0x60 => ld2 q .mac
  | 0x61 => ld2 q .msu
  | 0x62 => ld2 q .mpy
  | 0x63 => when0 (q % 4) (.macr .mac (fA (q / 4096)) (fS (q / 128 % 32)) (fS (q / 4 % 32)))
  | 0x64 => when0 (q % 4) (.macr .msu (fA (q / 4096)) (fS (q / 128 % 32)) (fS (q / 4 % 32)))
  | 0x65 => when0 (q % 4) (.macr .mpy (fA (q / 4096)) (fS (q / 128 % 32)) (fS (q / 4 % 32)))
  | 0x66 => when0 (q % 4) (.satA hi (fA (q / 128)) (BitVec.ofNat 5 (q / 4)))
  | 0x67 => when0 (q % 128) (.movA (fA (q / 4096)) (fS (q / 128 % 32)))
  | 0x68 => when0 (q % 1024) (.accAdd false (fA (q / 4096)) (fA (q / 1024)))
  | 0x69 => when0 (q % 1024) (.accAdd true (fA (q / 4096)) (fA (q / 1024)))
  | 0x6A => when0 (q % 64) (.shla (fA (q / 4096)) (BitVec.ofNat 6 (q / 64)))
  | 0x80 | 0x81 => l3 maj q (.vop .addH)
  | 0x82 | 0x83 => l3 maj q (.vop .subH)
  | 0x84 | 0x85 => l3 maj q (.vop .addsH)
  | 0x86 | 0x87 => l3 maj q (.vop .subsH)
  | 0x88 | 0x89 => l3 maj q (.vop .mulH)
  | 0x8A | 0x8B => l3 maj q (.vop .minH)
  | 0x8C | 0x8D => l3 maj q (.vop .maxH)
  | 0x8E | 0x8F => l3 maj q (.vop .and)
  | 0x90 | 0x91 => l3 maj q (.vop .or)
  | 0x92 | 0x93 => l3 maj q (.vop .xor)
  | 0x94 | 0x95 => l3 maj q (.vop .addB)
  | 0x96 | 0x97 => l3 maj q (.vop .addsB)
  | 0xA0 => some (.vopMasked .addH hi mid (fM (q / 2)) (q % 2 = 1))
  | 0xA1 => some (.vopMasked .subH hi mid (fM (q / 2)) (q % 2 = 1))
  | 0xA2 => some (.vopMasked .addsH hi mid (fM (q / 2)) (q % 2 = 1))
  | 0xA3 => some (.vopMasked .mulH hi mid (fM (q / 2)) (q % 2 = 1))
  | 0xA4 => some (.vmovMasked hi mid (fM (q / 2)) (q % 2 = 1))
  | 0xA8 => some (.vshift .shl hi mid (BitVec.ofNat 4 q))
  | 0xA9 => some (.vshift .shr hi mid (BitVec.ofNat 4 q))
  | 0xAA => some (.vshift .shrr hi mid (BitVec.ofNat 4 q))
  | 0xB0 => when0 (q % 4) (.vmac .mac (fA (q / 4096)) (fS (q / 128 % 32)) (fS (q / 4 % 32)))
  | 0xB1 => when0 (q % 4) (.vmac .msu (fA (q / 4096)) (fS (q / 128 % 32)) (fS (q / 4 % 32)))
  | 0xB2 => when0 (q % 4) (.vmac .mpy (fA (q / 4096)) (fS (q / 128 % 32)) (fS (q / 4 % 32)))
  | 0xB3 => when0 (q % 4096) (.vclr (fA (q / 4096)))
  | 0xB4 => when0 (q % 4) (.vnarrow hi (fA (q / 128)) (BitVec.ofNat 5 (q / 4)))
  | 0xB8 => when0 (q / 32 % 2) (.vcmp .eq (fM (q / 2048)) (fS (q / 64 % 32)) (fS (q % 32)))
  | 0xB9 => when0 (q / 32 % 2) (.vcmp .lt (fM (q / 2048)) (fS (q / 64 % 32)) (fS (q % 32)))
  | 0xBA => when0 (q / 32 % 2) (.vcmp .le (fM (q / 2048)) (fS (q / 64 % 32)) (fS (q % 32)))
  | 0xBC => when0 (q % 32) (.kand (fM (q / 2048)) (fM (q / 256)) (fM (q / 32)))
  | 0xBD => when0 (q % 32) (.kor (fM (q / 2048)) (fM (q / 256)) (fM (q / 32)))
  | 0xBE => when0 (q % 256) (.knot (fM (q / 2048)) (fM (q / 256)))
  | 0xC0 => lm q .vld
  | 0xC1 => lm q .vst
  | 0xC4 => some (.index .gather hi mid (fG q))
  | 0xC5 => some (.index .scatter hi mid (fG q))
  | 0xC6 => some (.index .rmwAdd hi mid (fG q))
  | 0xC8 => when0 (q % 16) (.red .sum hi mid)
  | 0xC9 => when0 (q % 16) (.red .min hi mid)
  | 0xCA => when0 (q % 16) (.red .max hi mid)
  | 0xCB => when0 (q % 16) (.red .minidx hi mid)
  | 0xCC => when0 (q % 16) (.red .maxidx hi mid)
  | 0xCD => when0 (q % 16) (.red .searchMin hi mid)
  | 0xCE => when0 (q % 16) (.red .searchMax hi mid)
  | 0xD0 => when0 (q % 16) (.vbcast hi mid)
  | 0xD2 | 0xD3 => l3 maj q .vext
  | _ => none

/-- The slot that a first parcel `p` and, for a long instruction, the parcel `q` after it hold (R252). -/
def decodeInstr (p q : BitVec 14) : Option Slot :=
  let n := p.toNat
  if n / 8192 = 0 then
    (decodeShort (n / 64 % 32) (n % 64)).map (fun op =>
      { guard := if n / 2048 % 2 = 1 then 1 else 0, neg := false, long := false, op := op, upto := 64 })
  else
    (decodeLong (n % 256) q.toNat).map (fun op =>
      { guard := fM (n / 512), neg := n / 256 % 2 = 1, long := true, op := op, upto := 64 })

/-! ### Encoding (the assembler's side of R261 to R271) -/

/-- Opcode and operand bits of a short instruction. -/
def encodeShort : CoreOp → Option (Nat × Nat)
  | .nop => some (0x00, 0)
  | .halt => some (0x01, 0)
  | .alu .add d _ a => some (0x02, d.val * 8 + a.val)
  | .alu .sub d _ a => some (0x03, d.val * 8 + a.val)
  | .alu .and d _ a => some (0x04, d.val * 8 + a.val)
  | .alu .or d _ a => some (0x05, d.val * 8 + a.val)
  | .alu .xor d _ a => some (0x06, d.val * 8 + a.val)
  | .mov d a => some (0x07, d.val * 8 + a.val)
  | .imm .addi d n => some (0x08, d.val * 8 + n.toNat % 8)
  | .imm .movi d n => some (0x09, d.val * 8 + n.toNat % 8)
  | .shift .shli d n => some (0x0A, d.val * 8 + n.toNat % 8)
  | .shift .shri d n => some (0x0B, d.val * 8 + n.toNat % 8)
  | .cmp .eq _ a b => some (0x0C, a.val * 8 + b.val)
  | .cmp .lt _ a b => some (0x0D, a.val * 8 + b.val)
  | .br off => some (0x0E, off.toNat % 64)
  | .lbrk l => some (0x0F, l.val)
  | .csync => some (0x10, 0)
  | .pmsync => some (0x11, 0)
  | .rti => some (0x12, 0)
  | .rtt => some (0x13, 0)
  | .brk n => some (0x14, n.toNat)
  | .vgate => some (0x15, 0)
  | .sint n => some (0x16, n.toNat)
  | .ld .w s (.plain g) => some (0x17, s.val * 8 + g.val)
  | .ld .w s (.post g _) => some (0x18, s.val * 8 + g.val)
  | .st .w s (.plain g) => some (0x19, s.val * 8 + g.val)
  | .st .w s (.post g _) => some (0x1A, s.val * 8 + g.val)
  | .adda g (.modifier _) => some (0x1B, g.val)
  | .macr .mac acc a b => some (0x1C, acc.val * 16 + (a.val - 16) * 4 + (b.val - 20))
  | .macr .msu acc a b => some (0x1D, acc.val * 16 + (a.val - 16) * 4 + (b.val - 20))
  | .clr acc => some (0x1E, acc.val * 16)
  | .vmov d a => some (0x1F, d.val * 8 + a.val)
  | _ => none

/-- The pair of format L3 (R260). -/
def enc3 (maj : Nat) (d a b : Fin 32) : Nat × Nat := (maj + b.val / 16, d.val * 512 + a.val * 16 + b.val % 16)

/-- Bits [8:0] of format LM. -/
def encForm : AddrForm → Nat
  | .plain g => g.val * 32
  | .post g m => g.val * 32 + m.val * 4 + 1
  | .indexed g m => g.val * 32 + m.val * 4 + 2

def encDual (x : Dual) : Nat :=
  x.acc.val * 4096 + x.gx.val * 512 + x.gy.val * 64 + x.mx.val * 16 + x.my.val * 4 +
    (match x.src with | .xy => 0 | .xp => 1 | .py => 2)

/-- The major opcode of an L3 scalar operation. -/
def aluMaj : AluOp → Nat
  | .add => 0x02
  | .sub => 0x04
  | .and => 0x06
  | .or => 0x08
  | .xor => 0x0A
  | .shl => 0x0C
  | .shr => 0x0E
  | .shru => 0x10
  | .mul => 0x12
  | .min => 0x14
  | .max => 0x16
  | .adds => 0x18
  | .subs => 0x1A

def cmpMaj : CmpOp → Nat
  | .eq => 0x30
  | .ne => 0x31
  | .lt => 0x32
  | .le => 0x33
  | .ltu => 0x34
  | .leu => 0x35

def vopMaj : VecOp → Nat
  | .addH => 0x80
  | .subH => 0x82
  | .addsH => 0x84
  | .subsH => 0x86
  | .mulH => 0x88
  | .minH => 0x8A
  | .maxH => 0x8C
  | .and => 0x8E
  | .or => 0x90
  | .xor => 0x92
  | .addB => 0x94
  | .addsB => 0x96

def macIdx : MacOp → Nat
  | .mac => 0
  | .msu => 1
  | .mpy => 2

/-- Major opcode and operand parcel of a long instruction. -/
def encodeLong : CoreOp → Option (Nat × Nat)
  | .alu op d a b => some (enc3 (aluMaj op) d a b)
  | .movcR s c => some (0x1C, s.val * 512 + c.val * 16)
  | .movcW s c => some (0x1D, s.val * 512 + c.val * 16)
  | .movToLoop sel s => some (0x1E, sel.toNat * 2048 + s.val * 64)
  | .movFromLoop sel s => some (0x1F, sel.toNat * 2048 + s.val * 64)
  | .imm .addi d n => some (0x20, d.val * 512 + n.toNat % 512)
  | .imm .movi d n => some (0x21, d.val * 512 + n.toNat % 512)
  | .imm .andi d n => some (0x22, d.val * 512 + n.toNat % 512)
  | .imm .ori d n => some (0x23, d.val * 512 + n.toNat % 512)
  | .imm .xori d n => some (0x24, d.val * 512 + n.toNat % 512)
  | .shift .shli d n => some (0x25, d.val * 512 + n.toNat)
  | .shift .shri d n => some (0x26, d.val * 512 + n.toNat)
  | .shift .shrui d n => some (0x27, d.val * 512 + n.toNat)
  | .cmp op pd a b => some (cmpMaj op, pd.val * 2048 + a.val * 64 + b.val)
  | .cmpImm lt pd a n => some (0x36 + lt.toNat, pd.val * 2048 + a.val * 64 + n.toNat)
  | .pand pd pa pb => some (0x38, pd.val * 2048 + pa.val * 256 + pb.val * 32)
  | .por pd pa pb => some (0x39, pd.val * 2048 + pa.val * 256 + pb.val * 32)
  | .pnot pd pa => some (0x3A, pd.val * 2048 + pa.val * 256)
  | .br off => some (0x3B, off.toNat % 16384)
  | .call off => some (0x3C, off.toNat % 16384)
  | .jr a => some (0x3D, a.val * 512)
  | .loop l sc off => some (0x3E, l.val * 8192 + sc.val * 256 + off.toNat)
  | .loopi l n off => some (0x3F, l.val * 8192 + n.toNat * 256 + off.toNat)
  | .ld .b s m => some (0x40, s.val * 512 + encForm m)
  | .ld .bu s m => some (0x41, s.val * 512 + encForm m)
  | .ld .h s m => some (0x42, s.val * 512 + encForm m)
  | .ld .hu s m => some (0x43, s.val * 512 + encForm m)
  | .ld .w s m => some (0x44, s.val * 512 + encForm m)
  | .st .b s m => some (0x45, s.val * 512 + encForm m)
  | .st .h s m => some (0x46, s.val * 512 + encForm m)
  | .st .w s m => some (0x47, s.val * 512 + encForm m)
  | .movG g s => some (0x48, g.val * 1024 + s.val * 32)
  | .movS s g => some (0x49, g.val * 1024 + s.val * 32)
  | .movM m s => some (0x4A, m.val * 2048 + s.val * 64)
  | .adda g (.imm n) => some (0x4B, g.val * 1024 + n.toNat)
  | .bqIssue t a b => some (0x4C, t.val * 1024 + a.val * 32 + b.val)
  | .bqPoll d t => some (0x4D, t.val * 1024 + d.val * 32)
  | .bqWait d t => some (0x4E, t.val * 1024 + d.val * 32)
  | .bqStat d t => some (0x4F, t.val * 1024 + d.val * 32)
  | .synSig a b => some (0x50, a.val * 512 + b.val * 16)
  | .synWait a b => some (0x51, a.val * 512 + b.val * 16)
  | .synArm a b => some (0x52, a.val * 512 + b.val * 16)
  | .dual op x => some (0x60 + macIdx op, encDual x)
  | .macr op acc a b => some (0x63 + macIdx op, acc.val * 4096 + a.val * 128 + b.val * 4)
  | .satA d acc n => some (0x66, d.val * 512 + acc.val * 128 + n.toNat * 4)
  | .movA acc a => some (0x67, acc.val * 4096 + a.val * 128)
  | .accAdd sub an am => some (0x68 + sub.toNat, an.val * 4096 + am.val * 1024)
  | .shla acc n => some (0x6A, acc.val * 4096 + n.toNat * 64)
  | .vop op d a b => some (enc3 (vopMaj op) d a b)
  | .vopMasked .addH d b k z => some (0xA0, d.val * 512 + b.val * 16 + k.val * 2 + z.toNat)
  | .vopMasked .subH d b k z => some (0xA1, d.val * 512 + b.val * 16 + k.val * 2 + z.toNat)
  | .vopMasked .addsH d b k z => some (0xA2, d.val * 512 + b.val * 16 + k.val * 2 + z.toNat)
  | .vopMasked .mulH d b k z => some (0xA3, d.val * 512 + b.val * 16 + k.val * 2 + z.toNat)
  | .vmovMasked d b k z => some (0xA4, d.val * 512 + b.val * 16 + k.val * 2 + z.toNat)
  | .vshift .shl d a n => some (0xA8, d.val * 512 + a.val * 16 + n.toNat)
  | .vshift .shr d a n => some (0xA9, d.val * 512 + a.val * 16 + n.toNat)
  | .vshift .shrr d a n => some (0xAA, d.val * 512 + a.val * 16 + n.toNat)
  | .vmac op w a b => some (0xB0 + macIdx op, w.val * 4096 + a.val * 128 + b.val * 4)
  | .vclr w => some (0xB3, w.val * 4096)
  | .vnarrow d w n => some (0xB4, d.val * 512 + w.val * 128 + n.toNat * 4)
  | .vcmp .eq k a b => some (0xB8, k.val * 2048 + a.val * 64 + b.val)
  | .vcmp .lt k a b => some (0xB9, k.val * 2048 + a.val * 64 + b.val)
  | .vcmp .le k a b => some (0xBA, k.val * 2048 + a.val * 64 + b.val)
  | .kand kd ka kb => some (0xBC, kd.val * 2048 + ka.val * 256 + kb.val * 32)
  | .kor kd ka kb => some (0xBD, kd.val * 2048 + ka.val * 256 + kb.val * 32)
  | .knot kd ka => some (0xBE, kd.val * 2048 + ka.val * 256)
  | .vld v m => some (0xC0, v.val * 512 + encForm m)
  | .vst v m => some (0xC1, v.val * 512 + encForm m)
  | .index .gather v vi g => some (0xC4, v.val * 512 + vi.val * 16 + g.val)
  | .index .scatter v vi g => some (0xC5, v.val * 512 + vi.val * 16 + g.val)
  | .index .rmwAdd v vi g => some (0xC6, v.val * 512 + vi.val * 16 + g.val)
  | .red .sum d a => some (0xC8, d.val * 512 + a.val * 16)
  | .red .min d a => some (0xC9, d.val * 512 + a.val * 16)
  | .red .max d a => some (0xCA, d.val * 512 + a.val * 16)
  | .red .minidx d a => some (0xCB, d.val * 512 + a.val * 16)
  | .red .maxidx d a => some (0xCC, d.val * 512 + a.val * 16)
  | .red .searchMin d a => some (0xCD, d.val * 512 + a.val * 16)
  | .red .searchMax d a => some (0xCE, d.val * 512 + a.val * 16)
  | .vbcast d a => some (0xD0, d.val * 512 + a.val * 16)
  | .vext d a b => some (enc3 0xD2 d a b)
  | _ => none

/-- The parcels of a slot, with its stop bit (R252). -/
def encodeSlot (s : Slot) (stop : Bool) : List (BitVec 14) :=
  if s.long then
    match encodeLong s.op with
    | some (maj, q) =>
      [BitVec.ofNat 14 (8192 + stop.toNat * 4096 + s.guard.val * 512 + s.neg.toNat * 256 + maj), BitVec.ofNat 14 q]
    | none => []
  else
    match encodeShort s.op with
    | some (op, o) => [BitVec.ofNat 14 (stop.toNat * 4096 + (decide (s.guard ≠ 0)).toNat * 2048 + op * 64 + o)]
    | none => []

/-! ### Units and destinations (R254, R256, R264) -/

/-- The units of R254. -/
inductive FtcUnitName where
  | a | d | l | v
deriving DecidableEq, Repr

/-- The unit of an operation. -/
def unitOf : CoreOp → FtcUnitName
  | .ld .. | .st .. | .adda .. | .movG .. | .movS .. | .movM .. | .bqIssue .. | .bqPoll .. | .bqWait .. | .bqStat ..
  | .synSig .. | .synWait .. | .synArm .. => .l
  | .dual .. | .macr .. | .satA .. | .movA .. | .accAdd .. | .shla .. | .clr .. => .d
  | .vop .. | .vopMasked .. | .vmovMasked .. | .vmov .. | .vshift .. | .vmac .. | .vclr .. | .vnarrow .. | .vcmp ..
  | .kand .. | .kor .. | .knot .. | .vbcast .. | .vext .. | .vld .. | .vst .. | .index .. | .red .. => .v
  | _ => .a

/-- A register that an encoding names as written: file 0 s, 1 p, 2 g, 3 m, 4 a, 5 v, 6 k, 7 w, 8 the loop registers by the
selector of R271, 9 control registers. -/
abbrev Dest := Nat × Nat

def postDest : AddrForm → List Dest
  | .post g _ => [(2, g.val)]
  | _ => []

/-- The registers written (R256); a write to p0 does not count. -/
def destsOf : CoreOp → List Dest
  | .alu _ d _ _ | .mov d _ | .imm _ d _ | .shift _ d _ => [(0, d.val)]
  | .cmp _ pd _ _ | .cmpImm _ pd _ _ | .pand pd _ _ | .por pd _ _ | .pnot pd _ => if pd = 0 then [] else [(1, pd.val)]
  | .call _ => [(0, 31)]
  | .loop l _ _ | .loopi l _ _ => [(8, 3 * l.val), (8, 3 * l.val + 1), (8, 3 * l.val + 2)]
  | .lbrk l => [(8, 3 * l.val + 2)]
  | .movToLoop sel _ => [(8, sel.toNat)]
  | .movFromLoop _ s | .movcR s _ | .movS s _ => [(0, s.val)]
  | .movcW _ c => [(9, c.val)]
  | .ld _ s m => (0, s.val) :: postDest m
  | .st _ _ m => postDest m
  | .adda g _ | .movG g _ => [(2, g.val)]
  | .movM m _ => [(3, m.val)]
  | .bqPoll d _ | .bqWait d _ | .bqStat d _ => [(0, d.val)]
  | .dual _ x => [(4, x.acc.val), (2, x.gx.val), (2, 8 + x.gy.val)]
  | .macr _ acc _ _ | .movA acc _ | .accAdd _ acc _ | .shla acc _ | .clr acc => [(4, acc.val)]
  | .satA d _ _ => [(0, d.val)]
  | .vop _ d _ _ | .vopMasked _ d _ _ _ | .vmovMasked d _ _ _ | .vmov d _ | .vshift _ d _ _ | .vnarrow d _ _ | .vbcast d _ =>
    [(5, d.val)]
  | .vmac _ w _ _ | .vclr w => [(7, w.val)]
  | .vcmp _ k _ _ | .kand k _ _ | .kor k _ _ | .knot k _ => [(6, k.val)]
  | .vext d _ _ => [(0, d.val)]
  | .vld v m => (5, v.val) :: postDest m
  | .vst _ m => postDest m
  | .index .gather v _ _ => [(5, v.val)]
  | .red op d _ =>
    match op with
    | .minidx | .maxidx => [(0, d.val), (0, d.val + 1)]
    | .searchMin | .searchMax => [(5, d.val)]
    | _ => [(0, d.val)]
  | _ => []

/-- Whether no reserved field value stands in an operation (R265); operand bits that must be 0 are the decoder's. -/
def opLegal : CoreOp → Bool
  | .movcR _ c | .movcW _ c => c.val < 30
  | .movToLoop sel _ | .movFromLoop sel _ => sel.toNat < 6
  | .loop _ _ off | .loopi _ _ off => off.toNat < 128
  | .synWait _ b | .synArm _ b => b.val % 2 = 0
  | .red .minidx d _ | .red .maxidx d _ => d.val % 2 = 0
  | _ => true

/-- Parcels of a slot. -/
def Slot.parcels (s : Slot) : Nat := if s.long then 2 else 1

def lengthOf (l : List Slot) : Nat := (l.map Slot.parcels).sum

/-- Step 3 of R255: one instruction for each unit, and no register written by two. -/
def bundleOk : List Slot → Bool
  | [] => true
  | x :: t =>
    t.all (fun y => unitOf x.op ≠ unitOf y.op && (destsOf x.op).all (fun d => !(destsOf y.op).contains d)) && bundleOk t

/-! ### Bundles in program memory -/

/-- The parcel pairs of the bundle at `pc`, up to the first with S = 1: `none` when step 1 of R255 fails. The fuel is the
instructions that may still come. -/
def scanBundle (fetch : Nat → BitVec 14) : Nat → Nat → Option (List (BitVec 14 × BitVec 14))
  | 0, _ => none
  | fuel + 1, pc =>
    let p := fetch pc
    let next := pc + (if bit p 13 then 2 else 1)
    if 65536 < next then none
    else if bit p 12 then some [(p, fetch (pc + 1))]
    else (scanBundle fetch fuel next).map ((p, fetch (pc + 1)) :: ·)

/-- The bundle at `pc`, or the trap cause of the first check of R255 that fails: 1 ILLEGAL, 2 ILLEGAL_BUNDLE. -/
def decodeBundle (fetch : Nat → BitVec 14) (pc : Nat) : Except Nat (List Slot) :=
  match scanBundle fetch 4 pc with
  | none => .error 2
  | some ps =>
    let l := ps.map (fun x => decodeInstr x.1 x.2)
    if l.any (fun s => match s with | some s => !opLegal s.op | none => true) then .error 1
    else
      let slots := l.filterMap id
      if bundleOk slots then .ok slots else .error 2

/-- The program memory as fetch sees it. -/
def Core.fetchAt (c : Core) (n : Nat) : BitVec 14 := Tbl.get 0 c.fetch n

/-- The parcels of the bundle at `pc`, whether or not it decodes: what `loop` with a count of 0 skips (R227). -/
def Core.bundleLength (c : Core) (pc : Nat) : Nat :=
  match scanBundle c.fetchAt 4 pc with
  | some ps => (ps.map (fun x => if bit x.1 13 then 2 else 1)).sum
  | none => 1

/-- PROG_LOAD's check of one code range (R267): the first parcel of the first bundle that fails, if any. -/
def checkRange (fetch : Nat → BitVec 14) (stop : Nat) : Nat → Nat → Option Nat
  | 0, _ => none
  | fuel + 1, pc =>
    if stop ≤ pc then none
    else
      match decodeBundle fetch pc with
      | .error _ => some pc
      | .ok slots => checkRange fetch stop fuel (pc + lengthOf slots)

end Sys2Proof.Machine
end

