-- ==== Sys2Proof/Machine/Dma.lean ====
section
/-! DEFINITION. DMA descriptors and channels up to the beats: fields and checks, fetching, errors, kicks, completion and the
link (15 R410 to R431). -/

namespace Sys2Proof.Machine

/-! ### Fields of a descriptor (R429) -/

def Dma.poisonErr : Nat := 0xB
def Dma.noCore : Nat := 0xA

/-- A field of a descriptor: word, low bit, width. -/
def dmaField (d : List Word) (w lo n : Nat) : Nat := bits (nth 0 d w) lo n

/-- A 64-bit pair of descriptor words. -/
def dmaPair (d : List Word) (w : Nat) : Nat := (nth 0 d w).toNat + (nth 0 d (w + 1)).toNat * 2 ^ 32

/-- One side of a transfer (R414, R415). -/
structure Side where
  pat : Nat
  spc : Nat
  addr : Nat
  llen : Nat
  lcnt : Nat
  stride : Int

def srcSide (d : List Word) : Side :=
  ⟨dmaField d 0 0 2, dmaField d 0 4 2, dmaPair d 4, dmaField d 8 0 24, dmaField d 9 0 24, (nth 0 d 10).toInt⟩

def dstSide (d : List Word) : Side :=
  ⟨dmaField d 0 2 2, dmaField d 0 6 2, dmaPair d 6, dmaField d 11 0 24, dmaField d 12 0 24, (nth 0 d 13).toInt⟩

def Side.total (s : Side) : Nat := s.llen * s.lcnt

def dmaPaced (d : List Word) : Bool := dmaField d 0 14 1 = 1
def dmaBurst (d : List Word) : Nat := dmaField d 1 0 13
def dmaLine (d : List Word) : Nat := dmaField d 0 8 6
def dmaItab (d : List Word) : Nat := dmaPair d 2 % 2 ^ 48

/-- Whether an address of a space has a nonzero reserved bit (R429). -/
def sideReserved (s : Side) : Bool :=
  match s.spc with
  | 0 => s.addr / 2 ^ 48 ≠ 0
  | 1 => (s.addr / 2 ^ 18) % 2 ^ 30 ≠ 0 || (s.addr / 2 ^ 54) % 4 ≠ 0 || s.addr / 2 ^ 61 ≠ 0
  | _ => false

/-- Step 1 of R420: reserved bits. -/
def dmaReserved (d : List Word) : Bool :=
  dmaField d 0 28 4 ≠ 0 || dmaField d 1 13 3 ≠ 0 || dmaField d 1 30 2 ≠ 0 || dmaField d 3 16 16 ≠ 0 ||
  sideReserved (srcSide d) || sideReserved (dstSide d) ||
  [8, 9, 11, 12].any (fun w => dmaField d w 24 8 ≠ 0) || dmaField d 14 1 5 ≠ 0 || dmaField d 15 16 16 ≠ 0 ||
  (dmaPair d 2 ≠ 0 && (srcSide d).pat ≠ 1 && (dstSide d).pat ≠ 1)

/-- Step 2 of R420: patterns and spaces. -/
def dmaPattern (d : List Word) : Bool :=
  let s := srcSide d
  let t := dstSide d
  2 ≤ s.pat || 2 ≤ t.pat || s.spc = 3 || 2 ≤ t.spc || (s.pat = 1 && t.pat = 1) ||
  (s.pat = 1 && s.stride ≠ 0) || (t.pat = 1 && t.stride ≠ 0) || (s.spc = 2 && (s.pat ≠ 0 || s.stride ≠ 0))

/-- Step 4 of R420: PACED and BURST (R418). -/
def dmaBurstBad (d : List Word) : Bool :=
  if dmaPaced d then dmaBurst d = 0 || 4096 < dmaBurst d else dmaBurst d ≠ 0

/-- The master port of a port's group. -/
def Hw.groupOf (h : Hw) (n : Nat) : Nat :=
  let m := (h.port n).masterPort
  if !(h.port n).master && (h.port m).master && m ≤ n && n < m + (h.port m).links then m else n

/-- The slot that owns the group of a port (19 R510). -/
def Hw.groupOwner (h : Hw) (n : Nat) : Option Nat := (h.port (h.groupOf n)).ownerSlot

/-- Whether a context's active copy of line-rate channel `n` names a group it owns (14 R393). -/
def Hw.ownsLine (h : Hw) (slot n : Nat) : Bool :=
  let ctl := h.actReg (Reg.ofCtx slot (Reg.prvLrctl n))
  let p := h.port (bits ctl 1 3)
  p.master && p.ownerSlot = some slot

/-- The owner of line-rate channel `n`: of the contexts whose active copy names a group they own, the lowest slot that
enables the channel, else the lowest. -/
def Hw.lineOwner (h : Hw) (n : Nat) : Option Nat :=
  let own := (List.range 256).filter (fun s => h.ownsLine s n)
  match own.find? (fun s => bit (h.actReg (Reg.ofCtx s (Reg.prvLrctl n))) 0) with
  | some s => some s
  | none => own.head?

/-- Step 6 of R420: whether a context may use a request line (R431). -/
def Hw.mayUseLine (h : Hw) (slot k : Nat) : Bool :=
  if k < 8 then h.groupOwner k = some slot
  else if k < 16 then h.lineOwner (k % 4) = some slot
  else true

/-- Step 7 of R420: a held line that another channel paces on. -/
def Hw.lineBusy (h : Hw) (n k : Nat) : Bool :=
  k < 16 && h.dma.chans.any (fun (e : Nat × DmaChan) => e.1 ≠ n && e.2.state.busy && e.2.line = some k)

/-- The checks of a fetched descriptor (R420): 0, or the error code of R430. -/
def Hw.dmaCheck (h : Hw) (n slot : Nat) (d : List Word) : Nat :=
  let k := dmaLine d
  if dmaReserved d then 1
  else if dmaPattern d then 2
  else if (srcSide d).total ≠ (dstSide d).total then 3
  else if dmaBurstBad d then 4
  else if dmaPaced d && 28 ≤ k then 5
  else if dmaPaced d && !h.mayUseLine slot k then 6
  else if dmaPaced d && h.lineBusy n k then 7
  else if dmaField d 0 15 1 = 1 && !h.mayUse slot (dmaField d 1 16 14) then 8
  else if ((srcSide d).pat = 1 || (dstSide d).pat = 1) && dmaItab d % 4 ≠ 0 then 9
  else 0

/-! ### Errors, fetching, the link -/

/-- The engine of a channel and its translation cache. -/
def engineOf (n : Nat) : Nat := n / 32
def dmaCache (n : Nat) : Nat := 18 + engineOf n

/-- A channel stops with a descriptor error (R422). -/
def Hw.dmaFail (h : Hw) (n code : Nat) : Hw :=
  let c := h.dmaChan n
  let h := h.setDmaChan n { c.stopped with state := .error, err := code }
  h.ctxFault c.slot 4 code (engineOf n) c.desc.toNat

/-- A channel stops with a translation fault (R422). -/
def Hw.dmaXlat (h : Hw) (n reason va : Nat) : Hw :=
  let c := h.dmaChan n
  let h := h.setDmaChan n { c.stopped with state := .error }
  h.xlatCtxFault c.slot (engineOf n) reason va

/-- A channel stops because an access of its own failed; poison and a failed host read are the error POISON. -/
def Hw.dmaAccFail (h : Hw) (n : Nat) : AccFail → Hw
  | .xlat r va => h.dmaXlat n r va
  | .poison _ => h.dmaFail n Dma.poisonErr
  | .host _ => h.dmaFail n Dma.poisonErr

/-- The words of a byte string, 32 bits each. -/
def wordsOf (bs : List Byte) : Nat → List Word
  | 0 => []
  | n + 1 => BitVec.ofNat 32 (natOf (bs.take 4)) :: wordsOf (bs.drop 4) n

/-- A channel fetches its descriptor and checks it (R413, R420). -/
def Hw.dmaFetch (h : Hw) (n : Nat) : Hw :=
  let c := h.dmaChan n
  if c.state ≠ .running || c.words ≠ [] then h
  else
    match h.vaRead (dmaCache n) 1 c.slot c.desc.toNat 64 with
    | (h, _, some f) => h.dmaAccFail n f
    | (h, bs, none) =>
      let d := wordsOf bs 16
      match h.dmaCheck n c.slot d with
      | 0 => h.setDmaChan n { c with
          words := d, rd := 0, wr := 0, stage := [], granted := 0, rdLeft := 0, wrLeft := 0, entry := none, pend := none
          armed := dmaPaced d, seenLow := false }
      | e => h.dmaFail n e

/-- The channel goes on to a descriptor. -/
def DmaChan.goTo (c : DmaChan) (next : Nat) : DmaChan :=
  { c with state := .running, desc := BitVec.ofNat 64 next, words := [], rd := 0, wr := 0, armed := false }

/-- The channel re-reads the link word of its descriptor (R426, R427). -/
def Hw.dmaRelink (h : Hw) (n : Nat) : Hw :=
  let c := h.dmaChan n
  match h.vaRead (dmaCache n) 1 c.slot (c.desc.toNat + 56) 8 with
  | (h, _, some f) => h.dmaAccFail n f
  | (h, bs, none) =>
    let l := natOf bs
    if (l / 2) % 32 ≠ 0 || l / 2 ^ 48 ≠ 0 then h.dmaFail n 1
    else if l % 2 = 0 then h.modDmaChan n (·.goTo (l / 64 * 64))
    else h.modDmaChan n (fun c => { c with state := .parked, armed := false })

/-- A kick (R427). -/
def Hw.dmaKick (h : Hw) (n : Nat) : Hw :=
  match (h.dmaChan n).state with
  | .running => h.modDmaChan n (fun c => { c with recheck := true })
  | .parked => h.dmaRelink n
  | _ => h

/-- The completion notice of a descriptor (R425). -/
def Hw.dmaNotify (h : Hw) (n slot : Nat) (d : List Word) : Hw :=
  if dmaField d 0 16 1 = 0 then h
  else
    match h.runCore slot (dmaField d 0 17 6) (dmaField d 0 23 4) (dmaField d 0 27 1) with
    | some c => h.raise c 3
    | none => h.bump (Reg.dmaNotelost n) 1

/-- A descriptor completes (R425, R426). -/
def Hw.dmaComplete (h : Hw) (n : Nat) : Hw :=
  let c := h.dmaChan n
  let d := c.words
  if c.state ≠ .running || d = [] || c.wr ≠ (srcSide d).total || c.pend.isSome then h
  else
    let h := h.setDmaChan n { c with done := c.done + 1, rdLeft := 0, wrLeft := 0, entry := none }
    let h := if dmaField d 0 15 1 = 1 then h.signal ⟨c.slot, 3⟩ (dmaField d 1 16 14) 1 else h
    let h := h.dmaNotify n c.slot d
    if dmaField d 14 0 1 = 0 then h.modDmaChan n (·.goTo (dmaPair d 14 % 2 ^ 48 / 64 * 64))
    else if c.recheck then (h.modDmaChan n (fun c => { c with recheck := false })).dmaRelink n
    else h.modDmaChan n (fun c => { c with state := .parked, armed := false })

/-- Stream bytes not yet written in the current descriptor (R432). -/
def DmaChan.left (c : DmaChan) : Nat := if c.words = [] then 0 else (srcSide c.words).total - c.wr

/-- DMA_CHSTAT (R433). -/
def ChanState.code : ChanState → Nat
  | .free => 0
  | .idle => 1
  | .running => 2
  | .parked => 3
  | .error => 4

/-- A paced channel that awaits a request (R433). -/
def DmaChan.waitReq (c : DmaChan) : Bool :=
  c.state = .running && c.words ≠ [] && dmaPaced c.words && c.wr < (srcSide c.words).total &&
    (if (srcSide c.words).spc = 2 then c.wr = c.granted else c.rd = c.granted && c.rd < (srcSide c.words).total)

/-- ARMED as it stands now: a channel that has seen its line low is armed again by its being high (R419). -/
def Hw.armedNow (h : Hw) (c : DmaChan) : Bool :=
  c.armed || (c.seenLow && (match c.line with | some k => h.lineHigh k | none => false))

def Hw.dmaStat (h : Hw) (c : DmaChan) : Nat :=
  c.state.code + 8 * c.recheck.toNat + 16 * (h.armedNow c).toNat + 32 * c.waitReq.toNat + 256 * c.prio + 65536 * c.slot +
    (if c.state = .error then c.err * 2 ^ 24 else 0)

end Sys2Proof.Machine
end

