-- ==== Sys2Proof/Machine/Operands.lean ====
section
/-! DEFINITION. The number formats of matrix and window operands (13 R347 to R349): FP32 values held exactly and rounded to
nearest even, format codes, scale words, rounding of outputs (R353, R354), and the CRC of 12 R337. -/

namespace Sys2Proof.Machine

/-! ### FP32 (R353) -/

/-- An FP32 value, or an exact value on its way to one: `fin neg n e` is ± n × 2^e. -/
inductive Fp where
  | nan
  | inf (neg : Bool)
  | fin (neg : Bool) (n : Nat) (e : Int)
deriving DecidableEq, Repr

/-- Significant bits of a number. -/
def bitLen (n : Nat) : Nat := if n = 0 then 0 else Nat.log2 n + 1

/-- `n / 2^d` rounded to nearest, ties to even. -/
def rneShift (n d : Nat) : Nat :=
  let q := n / 2 ^ d
  let r := 2 * (n % 2 ^ d)
  if r < 2 ^ d ∨ (r = 2 ^ d ∧ q % 2 = 0) then q else q + 1

/-- The value of an FP32 word. -/
def Fp.ofWord (w : Word) : Fp :=
  let s := bit w 31
  let x := bits w 23 8
  let f := bits w 0 23
  if x = 255 then (if f = 0 then .inf s else .nan)
  else if x = 0 then .fin s f (-149)
  else .fin s (f + 2 ^ 23) (x - 150)

/-- The FP32 value nearest to an exact one, ties to even; beyond the range an infinity of its sign. -/
def Fp.round : Fp → Fp
  | .fin s n e =>
    let q : Int := max (e + bitLen n - 24) (-149)
    let m := if q ≤ e then n * 2 ^ (e - q).toNat else rneShift n (q - e).toNat
    if m = 0 then .fin s 0 (-149) else if 128 < q + bitLen m then .inf s else .fin s m q
  | x => x

/-- The word of a rounded value; every NaN is 0x7FC0_0000. -/
def Fp.word : Fp → Word
  | .nan => 0x7FC00000
  | .inf s => BitVec.ofNat 32 (s.toNat * 2 ^ 31 + 0x7F800000)
  | .fin s m q =>
    let l := bitLen m
    let top : Int := q + l + 126
    let low := if top ≤ 0 then m * 2 ^ (q + 149).toNat
      else (if l ≤ 24 then m * 2 ^ (24 - l) else m / 2 ^ (l - 24)) + (top.toNat - 1) * 2 ^ 23
    BitVec.ofNat 32 (s.toNat * 2 ^ 31 + low)

/-- The FP32 value of an integer. -/
def Fp.ofInt (v : Int) : Fp := (Fp.fin (v < 0) v.natAbs 0).round

/-- A product, rounded. -/
def Fp.mul : Fp → Fp → Fp
  | .fin s n e, .fin t m f => (Fp.fin (s != t) (n * m) (e + f)).round
  | .inf s, .fin t m _ => if m = 0 then .nan else .inf (s != t)
  | .fin s n _, .inf t => if n = 0 then .nan else .inf (s != t)
  | .inf s, .inf t => .inf (s != t)
  | _, _ => .nan

/-- ± n × 2^e as a multiple of 2^k, for k at most e. -/
def Fp.scaled (s : Bool) (n : Nat) (e k : Int) : Int :=
  let v : Int := (n * 2 ^ (e - k).toNat : Nat)
  if s then -v else v

/-- A sum, rounded; an exact 0 is +0 unless both are negative zeros. -/
def Fp.add : Fp → Fp → Fp
  | .fin s n e, .fin t m f =>
    let k := min e f
    let v := Fp.scaled s n e k + Fp.scaled t m f k
    if v = 0 then .fin (s && t && n = 0 && m = 0) 0 (-149) else (Fp.fin (v < 0) v.natAbs k).round
  | .inf s, .inf t => if s = t then .inf s else .nan
  | .inf s, .fin _ _ _ => .inf s
  | .fin _ _ _, .inf t => .inf t
  | _, _ => .nan

/-- The magnitude of a value as its word's low 31 bits, which rise with it; none for a NaN. -/
def Fp.mag (x : Fp) : Option Nat :=
  match x with
  | .nan => none
  | x => some (bits x.word 0 31)

/-- BF16 of an FP32 value, rounded to nearest even (R353). -/
def Fp.bf16 (x : Fp) : Nat :=
  let w := x.word.toNat
  match x with
  | .nan => 0x7FC0
  | _ => (w + 0x7FFF + w / 65536 % 2) / 65536

/-- The FP32 value of a BF16 code (R347). -/
def bf16Value (c : Nat) : Fp := Fp.ofWord (BitVec.ofNat 32 (c * 65536))

/-- `floor(x + 0.5)` of ± n × 2^e: halves toward plus infinity (R353). -/
def roundHalfUp (s : Bool) (n : Nat) (e : Int) : Int :=
  if 0 ≤ e then Fp.scaled s n e 0
  else
    let d : Int := (2 ^ (-e).toNat : Nat)
    (2 * Fp.scaled s n 0 0 + d) / (2 * d)

/-- `q` of R353 without its zero point, held to a range: the output, and whether it was clamped. An infinite `u` takes the end
of its sign, and a NaN gives the zero point. -/
def quantise (u : Fp) (zo lo hi : Int) : Int × Bool :=
  match u with
  | .nan => (zo, false)
  | .inf s => (if s then lo else hi, true)
  | .fin s n e =>
    let q := roundHalfUp s n e + zo
    (clampInt lo hi q, q < lo || hi < q)

/-- Whether `q` lies outside −127 to 127, so that it may escape (R357). -/
def escapes (u : Fp) (zo : Int) : Bool :=
  match u with
  | .nan => false
  | .inf _ => true
  | .fin s n e => let q := roundHalfUp s n e + zo; q < -127 || 127 < q

/-! ### Codes (R347 to R349) -/

/-- The level of an NQ4 code (R348). -/
def nq4Level (c : Nat) : Int :=
  nth 0 [0, 12, 24, 36, 50, 67, 89, 127, -128, -127, -89, -67, -50, -36, -24, -12] c

/-- The integer value of a code of an integer format (R347). -/
def codeValue (fmt c : Nat) : Int :=
  match fmt with
  | 1 => signed 8 c
  | 2 => signed 4 c
  | 3 => nq4Level c
  | _ => signed 16 c

/-- Bytes of an activation or output element, and whether a weight format has 4 or 16 bits. -/
def wideFmt (fmt : Nat) : Bool := fmt = 4 || fmt = 5
def nibbleFmt (fmt : Nat) : Bool := fmt = 2 || fmt = 3

/-- The escape code of a format, if it has one (R347). -/
def escapeCode (fmt : Nat) : Option Nat :=
  match fmt with
  | 1 => some 0x80
  | 2 => some 8
  | 3 => some 8
  | _ => none

/-- The value of a scale word (R349). -/
def scaleValue (pow2 : Bool) (w : Nat) : Fp :=
  let sh := signed 6 w
  if pow2 then .fin false 1 sh else .fin false (1024 + w / 64 % 1024) (sh - 10)

/-! ### Sums of BF16 products (12 R324, 13 R353) -/

/-- The place of the lowest 1 of a number. -/
def lowBit (n : Nat) : Nat := Nat.log2 (n ^^^ (n - 1))

/-- The exact product of two values, unrounded. -/
def Fp.exactMul : Fp → Fp → Fp
  | .fin s n e, .fin t m f => .fin (s != t) (n * m) (e + f)
  | x, y => x.mul y

/-- The accumulation in FP32 of products of BF16 values. Where no order of additions can round, the sum is that exact one; an
infinity or NaN among the products decides it; elsewhere the order decides, and the manual gives none. -/
def bf16Dot (a w : List Nat) : Fp :=
  let ps := List.zipWith (fun x y => (bf16Value x).exactMul (bf16Value y)) a w
  let fins := ps.filterMap (fun p => match p with
    | .fin s n e => if n = 0 then none else some (s, n / 2 ^ lowBit n, e + lowBit n)
    | _ => none)
  let low : Int := ((fins.map (fun (x : Bool × Nat × Int) => x.2.2)).min?).getD 0
  let total := (fins.map (fun (x : Bool × Nat × Int) => x.2.1 * 2 ^ (x.2.2 - low).toNat)).sum
  let plus := ps.contains (.inf false)
  let minus := ps.contains (.inf true)
  let free := Fp.ofWord (Config.fp32Sum (a.map (fun c => BitVec.ofNat 32 (c * 65536))) (w.map (fun c => BitVec.ofNat 32 (c * 65536))))
  if ps.contains .nan || (plus && minus) then .nan
  else if (bitLen total : Int) + low ≤ 127 && (plus || minus) then .inf minus
  else if total < 2 ^ 24 && -149 ≤ low && (bitLen total : Int) + low ≤ 128 && !plus && !minus then
    let v := (fins.map (fun (x : Bool × Nat × Int) => Fp.scaled x.1 x.2.1 x.2.2 low)).sum
    if v = 0 then .fin false 0 (-149) else (Fp.fin (v < 0) v.natAbs low).round
  else free

/-! ### CRC-64 (12 R337) -/

/-- One bit of the CRC: polynomial 0x42F0_E1EB_A9EA_3693, most significant bit first. -/
def crcBit (c : Dword) : Dword := if bit c 63 then (c <<< 1) ^^^ 0x42F0E1EBA9EA3693 else c <<< 1

/-- The CRC-64 of bytes from an initial value of 0, no reflection. -/
def crc64 (bs : List Byte) : Dword :=
  bs.foldl (fun (c : Dword) (b : Byte) =>
    (List.range 8).foldl (fun c _ => crcBit c) (c ^^^ ((BitVec.ofNat 64 b.toNat) <<< 56))) 0

end Sys2Proof.Machine
end

