-- ==== Sys2Proof/Machine/Quant.lean ====
section
/-! DEFINITION. What a Bastaef command computes from its operands (12 R322 to R325, R340 to R344, 13 R347 to R361): descriptor and
header fields, accumulators, outputs, escapes and side lists, statistics, fit, and cycles. Pure: no state. -/

namespace Sys2Proof.Machine

/-! ### The command descriptor (R340) -/

structure BstDesc where
  afmt : Nat
  wfmt : Nat
  outf : Nat
  stats : Bool
  escape : Bool
  bias : Bool
  m : Nat
  n : Nat
  k : Nat
  astride : Nat
  cstride : Nat
  a : Nat
  w : Nat
  c : Nat
  q : Nat
  side : Nat

/-- A 48-bit address in two words. -/
def vaField (d : List Word) (i : Nat) : Nat := ((nth 0 d i).toNat + (nth 0 d (i + 1)).toNat * 2 ^ 32) % 2 ^ 48

def bstDesc (d : List Word) : BstDesc :=
  let f (w lo n : Nat) := bits (nth 0 d w) lo n
  { afmt := f 0 0 4, wfmt := f 0 4 4, outf := f 0 8 3, stats := f 0 12 1 = 1, escape := f 0 13 1 = 1, bias := f 0 14 1 = 1
    m := f 1 0 16, n := f 1 16 16, k := f 2 0 15, astride := f 3 0 20, cstride := f 10 0 20
    a := vaField d 4, w := vaField d 6, c := vaField d 8, q := vaField d 12, side := vaField d 14 }

/-- Reserved bits of the descriptor (R340): word by word, the bits that are named. -/
def bstReserved (d : List Word) : Bool :=
  let mask : List Nat := [0x77FF, 0xFFFFFFFF, 0x7FFF, 0xFFFFF, 0xFFFFFFFF, 0xFFFF, 0xFFFFFFFF, 0xFFFF, 0xFFFFFFFF, 0xFFFF,
    0xFFFFF, 0, 0xFFFFFFFF, 0xFFFF, 0xFFFFFFFF, 0xFFFF]
  (List.zip d mask).any (fun x => x.1 &&& ~~~(BitVec.ofNat 32 x.2) ≠ 0)

namespace BstDesc

/-- Bytes of an activation element, and of an output element (R344). -/
def asize (d : BstDesc) : Nat := if wideFmt d.afmt then 2 else 1
def osize (d : BstDesc) : Nat := if d.outf = 0 then 4 else if d.outf = 1 then 1 else 2

def integer (d : BstDesc) : Bool := d.afmt ≠ 5

/-- A pair of R324 with an OUTF of R344. -/
def formatOk (d : BstDesc) : Bool :=
  [(1, 1), (1, 2), (1, 3), (4, 4), (5, 5)].contains (d.afmt, d.wfmt) && d.outf < 4

/-- The sizes of R343. -/
def sizeOk (d : BstDesc) : Bool := d.k ≤ 16384 && d.n ≤ (if nibbleFmt d.wfmt then 128 else 64)

def alignOk (d : BstDesc) : Bool :=
  [d.a, d.w, d.c, d.q, d.side, d.astride, d.cstride].all (fun x => x % 64 = 0)

def strideOk (d : BstDesc) : Bool := d.m ≤ 1 || (d.k * d.asize ≤ d.astride && d.n * d.osize ≤ d.cstride)

/-- Chunks of K (R322) and bytes of a chunk and of a row of one (R328). -/
def chunks (d : BstDesc) : Nat := (d.k + 127) / 128
def chunkBytes (d : BstDesc) : Nat := if wideFmt d.wfmt then 16384 else 8192
def rowBytes (d : BstDesc) : Nat := d.chunkBytes / 128

/-- Bytes from the first to the last that the command covers of A, W and C; rows beyond K of the last chunk are not read. -/
def aBytes (d : BstDesc) : Nat := if d.m = 0 ∨ d.k = 0 then 0 else (d.m - 1) * d.astride + d.k * d.asize
def wBytes (d : BstDesc) : Nat :=
  if d.k = 0 then 0 else (d.chunks - 1) * d.chunkBytes + (d.k - 128 * (d.chunks - 1)) * d.rowBytes
def cBytes (d : BstDesc) : Nat := if d.m = 0 ∨ d.n = 0 then 0 else (d.m - 1) * d.cstride + d.n * d.osize

/-- Whether the range of C meets another. -/
def meets (d : BstDesc) (va n : Nat) : Bool := 0 < n && 0 < d.cBytes && va < d.c + d.cBytes && d.c < va + n

def overlaps (d : BstDesc) : Bool := d.meets d.a d.aBytes || d.meets d.w d.wBytes

/-- Steps 4 to 8 of R330 on the words of a descriptor: 0, or the reason. -/
def early (d : BstDesc) (words : List Word) : Nat :=
  if bstReserved words then 1 else if !d.formatOk then 2 else if !d.sizeOk then 3 else if !d.alignOk then 4
  else if !d.strideOk then 5 else 0

/-! ### Blocks and cycles (R322, R323, R325) -/

/-- The rate factor; a half-width array takes twice the time. -/
def rate (d : BstDesc) (half : Bool) : Nat := (if wideFmt d.afmt then 4 else 1) * (if half then 2 else 1)

def blocks (d : BstDesc) : Nat := (d.m + 255) / 256
def blockRows (d : BstDesc) (b : Nat) : Nat := min 256 (d.m - 256 * b)

/-- Cycles of a block's tiles, and of its write-back with the side path's `extra` (R359). -/
def tileCycles (d : BstDesc) (half : Bool) (b : Nat) : Nat := d.chunks * (max (d.blockRows b) 64 * d.rate half)
def backCycles (d : BstDesc) (b : Nat) (extra : Nat) : Nat := (d.blockRows b * d.n * d.osize + 63) / 64 + extra

/-- The cycle at which each block's tiles end, from the pipeline fill on: the array waits while an earlier write-back lasts
longer than the tiles. -/
def tileEnds (d : BstDesc) (half : Bool) (extra : Nat → Nat) : List Nat :=
  ((List.range d.blocks).foldl (fun (x : List Nat × Nat) b =>
    let back := if b = 0 then 0 else d.backCycles (b - 1) (extra (b - 1))
    let e := x.2 + max (d.tileCycles half b) back
    (x.1 ++ [e], e)) ([], 96)).1

/-- A command's duration in array cycles (R323). -/
def cycles (d : BstDesc) (half : Bool) (extra : Nat → Nat) : Nat :=
  if d.m = 0 ∨ d.n = 0 then 0
  else (d.tileEnds half extra).getLastD 96 + d.backCycles (d.blocks - 1) (extra (d.blocks - 1))

/-- Array cycles that run tiles. -/
def tilesRun (d : BstDesc) (half : Bool) : Nat := ((List.range d.blocks).map (d.tileCycles half)).sum

end BstDesc

/-! ### The header of the quantisation block (R371) -/

structure QHead where
  sa : Nat
  so : Nat
  sarow : Bool
  zach : Bool
  zoch : Bool
  odyn : Bool
  pow2 : Bool
  wpol : Nat
  za : Int
  zo : Int
  amaxlim : Nat
  satlim : Nat
  esclim : Nat
  acnt : Nat
  wcnt : Nat
  aside : Nat
  wside : Nat
  rsin : Nat
  rsout : Nat
  wdesc : Nat

def qHead (h : List Word) : QHead :=
  let f (w lo n : Nat) := bits (nth 0 h w) lo n
  { sa := f 0 0 16, sarow := f 0 16 1 = 1, zach := f 0 17 1 = 1, zoch := f 0 18 1 = 1, odyn := f 0 19 1 = 1
    pow2 := f 0 20 1 = 1, wpol := f 0 21 2, za := signed 8 (f 0 24 8), so := f 1 0 16, zo := signed 8 (f 1 16 8)
    amaxlim := f 1 24 8, satlim := f 2 0 16, esclim := min (f 2 16 9) 256, acnt := min (f 3 0 9) 256
    wcnt := min (f 3 16 9) 256, aside := vaField h 4, wside := vaField h 6, rsin := vaField h 8, rsout := vaField h 10
    wdesc := vaField h 12 }

/-- Which side lists and vectors a command uses (R350, R356 to R358). -/
def usesAside (d : BstDesc) : Bool := d.escape && d.afmt = 1
def usesWside (d : BstDesc) : Bool := d.escape && (escapeCode d.wfmt).isSome
def usesRsin (d : BstDesc) (q : QHead) : Bool := q.sarow && (d.outf ≠ 0 || usesAside d || usesWside d)
def usesRsout (d : BstDesc) (q : QHead) : Bool := q.odyn && d.outf = 1
def usesZav (d : BstDesc) (q : QHead) : Bool := q.zach && d.afmt = 1

/-- A command can write output escapes (R357). -/
def usesSide (d : BstDesc) (q : QHead) : Bool := d.escape && d.outf = 1 && !q.odyn

/-! ### Operand data -/

/-- The operands as read: rows of A, the weights, scale words, biases, output zero points, ZAV, side lists and RSIN. -/
structure QData where
  rows : List (List Byte)
  w : Array Byte
  sw : List Nat
  bias : List Word
  zov : List Int
  zav : List Int
  aside : List Dword
  wside : List Dword
  rsin : List Nat

/-- The little-endian elements of `size` bytes of a row. -/
def elems (size : Nat) (bs : List Byte) : Nat → List Nat
  | 0 => []
  | n + 1 => natOf (bs.take size) :: elems size (bs.drop size) n

/-- The code of weight (k, n) (R328). -/
def weightCode (d : BstDesc) (w : Array Byte) (k n : Nat) : Nat :=
  let base := k / 128 * d.chunkBytes + k % 128 * d.rowBytes
  if nibbleFmt d.wfmt then
    let b := (w.getD (base + n / 2) 0).toNat
    if n % 2 = 0 then b % 16 else b / 16
  else if wideFmt d.wfmt then (w.getD (base + 2 * n) 0).toNat + 256 * (w.getD (base + 2 * n + 1) 0).toNat
  else (w.getD (base + n) 0).toNat

/-! ### Side lists (R356 to R358, R372) -/

/-- Row, column and value of a side-list entry. -/
def sideEntry (e : Dword) : Nat × Nat × Word := (bits e 52 12, bits e 40 12, BitVec.ofNat 32 (bits e 0 32))

/-- A side list as the command reads it: the entries that name an escape code in rising order, by key, and the unmatched cases
among entries and codes. -/
structure SideIn where
  found : Tbl Word
  unmatched : Nat

/-- Matches a list with the escape codes at `codes` (keys row × 65536 + column). -/
def matchSide (entries : List Dword) (codes : List Nat) : SideIn :=
  let r := entries.foldl (fun (x : Tbl Word × Nat × Option Nat) e =>
    let s := sideEntry e
    let key := s.1 * 65536 + s.2.1
    let rising := match x.2.2 with | none => true | some p => p < key
    if rising && codes.contains key && (Tbl.find x.1 key).isNone then (Tbl.put x.1 key s.2.2, x.2.1, some key)
    else (x.1, x.2.1 + 1, some key)) ([], 0, none)
  ⟨r.1, r.2.1 + (codes.filter (fun k => (Tbl.find r.1 k).isNone)).length⟩

/-! ### One row -/

/-- The work of a command: descriptor, header, operands, weights by column with escaped ones 0, and the two side lists. -/
structure QWork where
  d : BstDesc
  q : QHead
  data : QData
  cols : List (List Int)
  codes : List (List Nat)
  za : List Int
  aIn : SideIn
  wIn : SideIn

/-- What the rows so far have given: row bytes, RSOUT halfwords, side entries, clamps, saturation, overflow, escapes. -/
structure QOut where
  rows : List (List Byte) := []
  rsout : List Nat := []
  side : List (Nat × Dword) := []
  sat : Nat := 0
  satur : Bool := false
  sideovf : Bool := false
  amax : Nat := 0

/-- The activations of row `r` as codes. -/
def QWork.acts (x : QWork) (r : Nat) : List Nat := elems x.d.asize (nth [] x.data.rows r) x.d.k

/-- Activations less their zero point, escaped ones 0 (R352, R357). -/
def QWork.centred (x : QWork) (codes : List Nat) : List Int :=
  if x.d.afmt = 1 then List.zipWith (fun c z => if x.d.escape && c = 0x80 then 0 else signed 8 c - z) codes x.za
  else codes.map (codeValue x.d.afmt)

/-- sa(r) (R353). -/
def QWork.sa (x : QWork) (r : Nat) : Fp :=
  scaleValue x.q.pow2 (if x.q.sarow then nth 0 x.data.rsin r else x.q.sa)

/-- The side term of an output (R357): in ascending k, an activation escape's term and then a weight escape's. -/
def QWork.sideTerm (x : QWork) (r n : Nat) (centred : List Int) : Fp :=
  let sw := scaleValue x.q.pow2 (nth 0 x.data.sw n)
  let col := nth [] x.cols n
  (List.zipIdx (List.zip centred col)).foldl (fun t e =>
    let k := e.2
    let ax := Tbl.find x.aIn.found (r * 65536 + k)
    let t := match ax with
      | some v => t.add (((Fp.ofWord v).mul sw).mul (Fp.ofInt e.1.2))
      | none => t
    match Tbl.find x.wIn.found (k * 65536 + n) with
    | some v =>
      let a := match ax with | some y => Fp.ofWord y | none => (x.sa r).mul (Fp.ofInt e.1.1)
      t.add (a.mul (Fp.ofWord v))
    | none => t) (.fin false 0 (-149))

/-- The accumulator of an output (R352, R324). -/
def QWork.acc (x : QWork) (codes : List Nat) (centred : List Int) (n : Nat) : Int ⊕ Fp :=
  if x.d.integer then .inl ((List.zipWith (· * ·) centred (nth [] x.cols n)).sum)
  else .inr (bf16Dot codes (nth [] x.codes n))

/-- The bits of the largest accumulator that AMAXE reports (R360). -/
def accMag (a : Int ⊕ Fp) : Nat :=
  match a with
  | .inl v => v.natAbs
  | .inr f => f.mag.getD 0

def int32Lo : Int := -2147483648
def int32Hi : Int := 2147483647

/-- `t` of R353. -/
def scaledOut (t sa sw side : Fp) (bias : Option Fp) : Fp :=
  let t := ((t.mul sa).mul sw).add side
  match bias with
  | some b => t.add b
  | none => t

/-- side / (sa × sw), rounded as `q` is (R354); a NaN adds nothing and counts as saturated. -/
def sideInt (side sa sw : Fp) : Int × Bool :=
  match side, sa, sw with
  | .fin s n e, .fin _ m f, .fin _ l g =>
    let num := Fp.scaled s n e (min e (f + g))
    let den : Int := Fp.scaled false (m * l) (f + g) (min e (f + g))
    ((2 * num + den) / (2 * den), false)
  | .inf s, _, _ => (if s then -2 ^ 40 else 2 ^ 40, false)
  | _, _, _ => (0, true)

/-- OUTF 0 (R354): the 4 bytes and whether the value saturated. -/
def QWork.accOut (x : QWork) (r n : Nat) (centred : List Int) : Int ⊕ Fp → List Byte × Bool
  | .inl v =>
    let s := if x.d.escape then sideInt (x.sideTerm r n centred) (x.sa r) (scaleValue x.q.pow2 (nth 0 x.data.sw n)) else (0, false)
    let y := v + s.1
    (bytesOf 4 (wrap 32 (clampInt int32Lo int32Hi y)), s.2 || y < int32Lo || int32Hi < y)
  | .inr f => (bytesOf 4 f.word.toNat, false)

/-- The smallest scale exponent that holds a row (R355). -/
def dynScale (big : Fp) : Int :=
  let ok (sh : Int) : Bool := match big with
    | .fin _ n e => Fp.scaled false n e (min e sh) ≤ 127 * Fp.scaled false 1 sh (min e sh)
    | _ => false
  (((List.range 64).map (fun (i : Nat) => (i : Int) - 32)).find? ok).getD 31

/-- zo(n) (R353). -/
def QWork.zo (x : QWork) (n : Nat) (dyn : Bool) : Int :=
  if x.d.outf ≠ 1 || dyn then 0 else if x.q.zoch then nth 0 x.data.zov n else x.q.zo

/-- One INT8 or INT16 output (R353, R357): its bytes, joined to what the row has given so far. -/
def QWork.put (x : QWork) (r n : Nat) (t so : Fp) (dyn : Bool) (o : QOut) (row : List Byte) : QOut × List Byte :=
  let u := t.mul so
  let zo := x.zo n dyn
  let out (v : Int × Bool) (o : QOut) : QOut × List Byte :=
    ({ o with sat := o.sat + v.2.toNat, satur := o.satur || v.2 || u = Fp.nan }, row ++ bytesOf x.d.osize (wrap (8 * x.d.osize) v.1))
  if x.d.outf = 2 then out (quantise u zo (-32768) 32767) o
  else if !x.d.escape then out (quantise u zo (-128) 127) o
  else if !dyn && r < 4096 && escapes u zo then
    if o.side.length < 256 then
      ({ o with side := o.side ++ [(r, BitVec.ofNat 64 (r * 2 ^ 52 + n * 2 ^ 40 + t.word.toNat))] }, row ++ [0x80])
    else out (quantise u zo (-127) 127) { o with sideovf := true }
  else out (quantise u zo (-127) 127) o

/-- One output row. -/
def QWork.row (x : QWork) (o : QOut) (r : Nat) : QOut :=
  let codes := x.acts r
  let cen := x.centred codes
  let accs := (List.range x.d.n).map (fun n => x.acc codes cen n)
  let o := { o with amax := (accs.map accMag).foldl max o.amax }
  -- 12 R324, 13 R352: an INT16 accumulator is held to INT32 before requantisation.
  let held := accs.map (fun a => match a with
    | .inl v => if x.d.afmt = 4 then Sum.inl (clampInt int32Lo int32Hi v) else .inl v
    | .inr f => .inr f)
  let o := { o with satur := o.satur || (x.d.afmt = 4 && accs != held) }
  if x.d.outf = 0 then
    let outs := held.zipIdx.map (fun a => x.accOut r a.2 cen a.1)
    { o with rows := o.rows ++ [(outs.map (·.1)).flatten], satur := o.satur || outs.any (·.2) }
  else
    let sa := x.sa r
    let ts := held.zipIdx.map (fun a =>
      let t := match a.1 with | .inl v => Fp.ofInt v | .inr f => f
      let side := if x.d.escape && x.d.integer then x.sideTerm r a.2 cen else .fin false 0 (-149)
      scaledOut t sa (scaleValue x.q.pow2 (nth 0 x.data.sw a.2)) side
        (if x.d.bias then some (Fp.ofWord (nth 0 x.data.bias a.2)) else none))
    if x.d.outf = 3 then { o with rows := o.rows ++ [(ts.map (fun t => bytesOf 2 t.bf16)).flatten] }
    else
      let dyn := usesRsout x.d x.q
      let big := (ts.filterMap Fp.mag).foldl max 0
      let sh := dynScale (Fp.ofWord (BitVec.ofNat 32 big))
      let so := if dyn then Fp.fin false 1 (-sh) else scaleValue x.q.pow2 x.q.so
      let r' := ts.zipIdx.foldl (fun y t => x.put r t.2 t.1 so dyn y.1 y.2) (o, [])
      { r'.1 with rows := r'.1.rows ++ [r'.2], rsout := if dyn then r'.1.rsout ++ [wrap 6 sh] else r'.1.rsout }

/-! ### The whole command -/

/-- Prepares the weights and side lists. -/
def qWork (d : BstDesc) (q : QHead) (data : QData) : QWork :=
  let esc (c : Nat) : Bool := d.escape && escapeCode d.wfmt = some c
  let codes := (List.range d.n).map (fun n => (List.range d.k).map (fun k => weightCode d data.w k n))
  let cols := codes.map (fun l => l.map (fun c => if esc c then 0 else codeValue d.wfmt c))
  let wCodes := if !usesWside d then [] else
    (codes.zipIdx.flatMap (fun l => (l.1.zipIdx.filter (fun c => esc c.1)).map (fun c => c.2 * 65536 + l.2)))
  let aCodes := if !usesAside d then [] else
    data.rows.zipIdx.flatMap (fun row => ((elems 1 row.1 d.k).zipIdx.filter (fun c => c.1 = 0x80)).map (fun c => row.2 * 65536 + c.2))
  { d := d, q := q, data := data, cols := cols, codes := codes
    za := if usesZav d q then data.zav else List.replicate d.k q.za
    aIn := matchSide data.aside aCodes, wIn := matchSide data.wside wCodes }

/-- Input escape codes of a command: matched ones and codes without an entry. -/
def QWork.inputs (x : QWork) : Nat :=
  let esc (c : Nat) : Bool := x.d.escape && escapeCode x.d.wfmt = some c
  (if usesWside x.d then (x.codes.map (fun l => (l.filter esc).length)).sum else 0) +
  (if usesAside x.d then (x.data.rows.map (fun r => ((elems 1 r x.d.k).filter (· = 0x80)).length)).sum else 0)

/-- The side path's cycles in a block's write-back (R359). -/
def QWork.extra (x : QWork) (b : Nat) : Nat :=
  let mine := x.aIn.found.filter (fun e => e.1 / 65536 / 256 = b)
  mine.length * ((x.d.n + 63) / 64) + x.wIn.found.length * ((x.d.blockRows b + 63) / 64)

/-- AMAXE and QNT_AMAX of a largest accumulator (R360). -/
def QWork.amaxe (x : QWork) (o : QOut) : Nat := if x.d.integer then bitLen o.amax else o.amax / 2 ^ 23

/-- FITMISS (R361). -/
def QWork.fitmiss (x : QWork) (o : QOut) : Bool :=
  (x.d.stats && (x.q.amaxlim < x.amaxe o || x.q.satlim < o.sat || x.q.esclim < o.side.length)) ||
  o.sideovf || 0 < x.aIn.unmatched + x.wIn.unmatched

/-- The status word of a command that ran on array `a` (R341). -/
def QWork.status (x : QWork) (o : QOut) (a : Nat) : Word :=
  BitVec.ofNat 32 (2 ^ 31 + o.satur.toNat * 2 ^ 23 + (x.fitmiss o).toNat * 2 ^ 22 + o.sideovf.toNat * 2 ^ 21 +
    o.side.length * 2 ^ 12 + a * 256 + (if x.d.stats then x.amaxe o else 0))

def QWork.run (x : QWork) : QOut := (List.range x.d.m).foldl x.row {}

/-- The cycle at which row `r` has been written, counted from the start (R322, R323). -/
def QWork.rowCycle (x : QWork) (ends : List Nat) (r : Nat) : Nat :=
  nth 96 ends (r / 256) + ((r % 256 + 1) * x.d.n * x.d.osize + 63) / 64

end Sys2Proof.Machine
end

