-- ==== Sys2Proof/Machine/Window.lean ====
section
/-! DEFINITION. What a window pass computes (14 R385 to R388, R401 to R405): descriptor fields, checks that need no memory,
outputs of every mode, and durations. Pure: no state. -/

namespace Sys2Proof.Machine

/-! ### The pass descriptor (R402) -/

structure PassDesc where
  prv : Bool
  words : List Word
  mode : Nat
  afmt : Nat
  wfmt : Nat
  outf : Nat
  bias : Bool
  stats : Bool
  accum : Bool
  fence : Bool
  avgexcl : Bool
  kh : Nat
  kw : Nat
  sx : Nat
  sy : Nat
  dx : Nat
  dy : Nat
  pt : Nat
  pb : Nat
  pl : Nat
  pr : Nat
  padv : Int
  ih : Nat
  iw : Nat
  cin : Nat
  cout : Nat
  inp : Nat
  inRow : Nat
  inPlane : Nat
  out : Nat
  outRow : Nat
  outPlane : Nat
  w : Nat
  q : Nat
  acc : Nat
  accRow : Nat
  accPlane : Nat
  done : Nat
  doneEn : Bool

/-- The fields of a descriptor; `prv` tells the engine. -/
def passDesc (prv : Bool) (d : List Word) : PassDesc :=
  let f (w lo n : Nat) := bits (nth 0 d w) lo n
  { prv := prv, words := d, mode := f 0 0 4, afmt := f 0 4 4, wfmt := f 0 8 4, outf := f 0 12 3, bias := f 0 15 1 = 1, stats := f 0 16 1 = 1
    accum := f 0 17 1 = 1, fence := f 0 18 1 = 1, avgexcl := f 0 19 1 = 1
    kh := f 1 0 4, kw := f 1 4 4, sx := f 1 8 4, sy := f 1 12 4, dx := f 1 16 4, dy := f 1 20 4
    pt := f 2 0 4, pb := f 2 4 4, pl := f 2 8 4, pr := f 2 12 4, padv := signed 16 (f 2 16 16)
    ih := f 3 0 16, iw := f 3 16 16, cin := f 4 0 13, cout := f 4 16 13
    inp := vaField d 6, inRow := f 8 0 32, inPlane := f 9 0 32, out := vaField d 10, outRow := f 12 0 32, outPlane := f 13 0 32
    w := vaField d 14, q := vaField d 16, acc := vaField d 18, accRow := f 20 0 32, accPlane := f 21 0 32
    done := f 22 0 14, doneEn := f 22 31 1 = 1 }

/-- The bits of each word that a field names (R402). -/
def passMask : List Nat :=
  [0xFFFFF, 0xFFFFFF, 0xFFFFFFFF, 0xFFFFFFFF, 0x1FFF1FFF, 0, 0xFFFFFFFF, 0xFFFF, 0xFFFFFFFF, 0xFFFFFFFF, 0xFFFFFFFF, 0xFFFF,
   0xFFFFFFFF, 0xFFFFFFFF, 0xFFFFFFFF, 0xFFFF, 0xFFFFFFFF, 0xFFFF, 0xFFFFFFFF, 0xFFFF, 0xFFFFFFFF, 0xFFFFFFFF, 0x80003FFF,
   0, 0, 0, 0, 0, 0, 0, 0, 0xFFFFFFFF]

/-- A word has a 1 outside the bits that a mask names. -/
def outsideMask (mask : List Nat) (d : List Word) : Bool :=
  (List.zip d mask).any (fun x => x.1 &&& ~~~(BitVec.ofNat 32 x.2) ≠ 0)

namespace PassDesc

def conv (d : PassDesc) : Bool := d.mode = 1 || d.mode = 2
def pool (d : PassDesc) : Bool := d.mode = 3 || d.mode = 4
def global (d : PassDesc) : Bool := d.mode = 5 || d.mode = 6
def argmax (d : PassDesc) : Bool := d.mode = 7

/-- Element bytes of the input and of the output. -/
def es (d : PassDesc) : Nat := if d.afmt = 4 then 2 else 1
def osize (d : PassDesc) : Nat :=
  if d.argmax then 2 else if d.conv then (if d.outf = 0 then 4 else if d.outf = 1 then 1 else 2) else d.es

/-- The extent of a dilated kernel axis. -/
def span (k dil : Nat) : Nat := (k - 1) * dil + 1

/-- An output extent (R385): 0 where the window does not fit. -/
def outSize (i before after k stride dil : Nat) : Nat :=
  if i + before + after < span k dil then 0 else (i + before + after - span k dil) / (max stride 1) + 1

def oh (d : PassDesc) : Nat := if d.global then 1 else if d.argmax then d.ih else outSize d.ih d.pt d.pb d.kh d.sy d.dy
def ow (d : PassDesc) : Nat := if d.global then 1 else if d.argmax then d.iw else outSize d.iw d.pl d.pr d.kw d.sx d.dx

/-- A pass of no elements (R379). -/
def empty (d : PassDesc) : Bool := d.ih = 0 || d.iw = 0 || d.cin = 0 || d.cout = 0

/-! ### Checks (R377, R387, R401) -/

/-- Step 1: reserved bits, and fields that the mode does not use. -/
def reservedBad (d : PassDesc) : Bool :=
  outsideMask passMask d.words ||
  (d.mode ≠ 4 && (d.avgexcl || d.padv ≠ 0)) ||
  ((d.pool || d.global || d.argmax) && (d.bias || d.w ≠ 0 || d.q ≠ 0 || d.acc ≠ 0 || d.accRow ≠ 0 || d.accPlane ≠ 0))

/-- Step 2. -/
def modeBad (d : PassDesc) : Bool := !(d.conv || d.pool || d.global || (d.argmax && d.prv))

/-- Step 3. -/
def formatBad (d : PassDesc) : Bool :=
  !([1, 4].contains d.afmt && (if d.conv then d.wfmt = d.afmt && d.outf ≤ 2 else d.wfmt = 0 && d.outf = 0))

/-- Step 4. -/
def oneByOne (d : PassDesc) : Bool := !d.prv && d.conv && d.kh = 1 && d.kw = 1

def within (lo hi x : Nat) : Bool := lo ≤ x && x ≤ hi

/-- Step 5. -/
def sizeBad (d : PassDesc) : Bool :=
  let kmax := if d.prv then 7 else 11
  let smax := if d.prv then 4 else 8
  let pmax := if d.prv then 6 else 10
  let cmax := if d.prv then 16 else 4096
  let imax := if d.prv then 4096 else 16384
  let pads := [d.pt, d.pb, d.pl, d.pr]
  let steps := [d.sx, d.sy, d.dx, d.dy]
  let shape : Bool :=
    if d.conv then [d.kh, d.kw].all (within 1 kmax) && steps.all (within 1 smax) && pads.all (· ≤ pmax)
    else if d.pool then [d.kh, d.kw].all (within 1 kmax) && steps.all (within 1 smax) &&
      d.pt < d.kh && d.pb < d.kh && d.pl < d.kw && d.pr < d.kw
    else d.kh = 0 && d.kw = 0 && steps.all (· = 0) && pads.all (· = 0)
  let chans : Bool := d.cin ≤ cmax && d.cout ≤ cmax && (d.mode = 1 || (if d.argmax then d.cout = 1 else d.cout = d.cin))
  !(shape && chans && d.ih ≤ imax && d.iw ≤ imax && 1 ≤ d.oh && 1 ≤ d.ow &&
    2 * (span d.kh d.dy) * d.iw * d.es ≤ (if d.prv then 262144 else 1048576) && (!d.accum || d.conv))

/-- Step 6. -/
def alignBad (d : PassDesc) : Bool :=
  [d.inp, d.out, d.w, d.q, d.acc, d.inRow, d.inPlane, d.outRow, d.outPlane, d.accRow, d.accPlane].any (fun x => x % 64 ≠ 0)

/-- Step 7. -/
def strideBad (d : PassDesc) : Bool :=
  d.inRow < d.iw * d.es || d.inPlane < d.ih * d.inRow || d.outRow < d.ow * d.osize || d.outPlane < d.oh * d.outRow ||
  (d.accum && (d.accRow < d.ow * 4 || d.accPlane < d.oh * d.accRow))

/-- Steps 1 to 4: 0, or the reason (R405). -/
def early (d : PassDesc) : Nat :=
  if d.reservedBad then 1 else if d.modeBad then 9 else if d.formatBad then 2 else if d.oneByOne then 0xA else 0

/-- Steps 5 to 7. -/
def middle (d : PassDesc) : Nat := if d.sizeBad then 3 else if d.alignBad then 4 else if d.strideBad then 5 else 0

/-! ### Ranges (R377) -/

/-- Bytes from the first to the last of planes of rows. -/
def extent (planes plane rows row width : Nat) : Nat := (planes - 1) * plane + (rows - 1) * row + width

def inBytes (d : PassDesc) : Nat := extent d.cin d.inPlane d.ih d.inRow (d.iw * d.es)
def outBytes (d : PassDesc) : Nat := extent d.cout d.outPlane d.oh d.outRow (d.ow * d.osize)
def accBytes (d : PassDesc) : Nat := if d.accum then extent d.cout d.accPlane d.oh d.accRow (d.ow * 4) else 0
def wBytes (d : PassDesc) : Nat :=
  if d.mode = 1 then d.cout * d.cin * d.kh * d.kw * d.es else if d.mode = 2 then d.cout * d.kh * d.kw * d.es else 0

def meets (d : PassDesc) (va n : Nat) : Bool := 0 < n && va < d.out + d.outBytes && d.out < va + n

/-- Step 10. -/
def overlapBad (d : PassDesc) : Bool :=
  d.meets d.inp d.inBytes || d.meets d.w d.wBytes ||
  (d.meets d.acc d.accBytes && !(d.outf = 0 && d.out = d.acc && d.outRow = d.accRow && d.outPlane = d.accPlane))

/-! ### Strips, groups and cycles (R388, R401) -/

def lanes (d : PassDesc) : Nat := if d.prv then 65536 else 131072

/-- G and SH. -/
def group (d : PassDesc) : Nat := if d.mode = 1 then min (min (if d.prv then 16 else 64) d.cout) (d.lanes / d.ow) else 1
def strip (d : PassDesc) : Nat := if d.argmax then d.oh else min d.oh (d.lanes / (d.ow * d.group))

def taps (d : PassDesc) : Nat := if d.global then d.ih * d.iw else d.kh * d.kw

/-- A step: the first row and the rows of its strip, the first channel and the channels of its group, its input channel, and
whether it is the first and the last of its group. -/
structure Step where
  y : Nat
  rows : Nat
  o : Nat
  g : Nat
  c : Nat
  first : Bool
  last : Bool

/-- The steps in order. -/
def steps (d : PassDesc) : List Step :=
  let sh := max d.strip 1
  let g := max d.group 1
  let chans := if d.mode = 1 ∨ d.argmax then d.cin else 1
  (List.range ((d.oh + sh - 1) / sh)).flatMap (fun s =>
    (List.range ((d.cout + g - 1) / g)).flatMap (fun k =>
      (List.range chans).map (fun c =>
        ⟨s * sh, min sh (d.oh - s * sh), k * g, min g (d.cout - k * g), c, c = 0, c + 1 = chans⟩)))

/-- Input rows that a step uses within the plane. -/
def inRows (d : PassDesc) (s : Step) : Nat :=
  if d.global || d.argmax then d.ih
  else
    let used (y : Nat) : Bool := (List.range s.rows).any (fun r => (List.range d.kh).any (fun k =>
      (s.y + r) * d.sy + k * d.dy = y + d.pt))
    ((List.range d.ih).filter used).length

def stepCycles (d : PassDesc) (s : Step) : Nat :=
  let per := if d.prv then 8 else 16
  if d.argmax then (d.ih * d.iw + 7) / 8
  else if d.global then (d.taps + per * 8 - 1) / (per * 8)
  else s.rows * ((d.ow + 7) / 8) * ((d.taps + per - 1) / per) * ((s.g + 7) / 8)

def loadCycles (d : PassDesc) (s : Step) : Nat :=
  let acc := if s.first && d.accum then s.rows * d.ow * 4 * s.g else 0
  (d.inRows s * d.iw * d.es + s.g * d.taps * d.es + acc + 63) / 64

/-- Each step with the cycle at which it ends. -/
def timeline (d : PassDesc) (steps : List Step) : List (Step × Nat) :=
  let loads := steps.map d.loadCycles
  ((List.zip steps (loads.drop 1 ++ [0])).foldl (fun (x : List (Step × Nat) × Nat) e =>
    (x.1 ++ [(e.1, x.2 + d.stepCycles e.1)], x.2 + max (d.stepCycles e.1) e.2))
    ([], 64 + loads.headD 0)).1

/-- The bytes that a step's group writes. -/
def groupBytes (d : PassDesc) (s : Step) : Nat := s.rows * s.g * d.ow * d.osize

/-- The pass's duration (R388). -/
def cycles (d : PassDesc) : Nat :=
  match (d.timeline d.steps).getLast? with
  | some (s, t) => t + (d.groupBytes s + 63) / 64
  | none => 0

/-- The cycle at which each output row (channel, row) has been written: a group's rows follow its last step, channel by
channel. -/
def rowTimes (d : PassDesc) : List ((Nat × Nat) × Nat) :=
  ((d.timeline d.steps).filter (·.1.last)).flatMap (fun x =>
    (List.range (x.1.g * x.1.rows)).map (fun i =>
      ((x.1.o + i / x.1.rows, x.1.y + i % x.1.rows), x.2 + ((i + 1) * d.ow * d.osize + 63) / 64)))

end PassDesc

/-! ### Outputs (R385, R386) -/

/-- The operands of a pass: input elements by channel, row and column; weights; zero points; the initial plane; the header and
the vectors of the quantisation block. -/
structure PassData where
  inp : Array (Array (Array Int))
  w : Array Int
  za : List Int
  acc : Array (Array (Array Int))
  q : QHead
  sw : List Nat
  bias : List Word
  zov : List Int

/-- An input element, if it lies in the plane. -/
def PassData.at (x : PassData) (d : PassDesc) (c : Nat) (y z : Int) : Option Int :=
  if y < 0 ∨ z < 0 ∨ (d.ih : Int) ≤ y ∨ (d.iw : Int) ≤ z then none
  else some (((x.inp.getD c #[]).getD y.toNat #[]).getD z.toNat 0)

/-- The window of an output: for each tap in row-major order its element, if it lies in the plane. -/
def PassData.window (x : PassData) (d : PassDesc) (c y z : Nat) : List (Option Int) :=
  (List.range d.kh).flatMap (fun ky => (List.range d.kw).map (fun kx =>
    x.at d c ((y * d.sy + ky * d.dy : Nat) - (d.pt : Int)) ((z * d.sx + kx * d.dx : Nat) - (d.pl : Int))))

/-- The 48-bit accumulator of an exact value. -/
def hold48 (v : Int) : Int := if -(2 ^ 47) ≤ v ∧ v < 2 ^ 47 then v else (Config.acc48 v).toInt

/-- The accumulator of an output (R385). -/
def PassData.accOf (x : PassData) (d : PassDesc) (o y z : Nat) : Int :=
  let init : Int := if d.accum then ((x.acc.getD o #[]).getD y #[]).getD z 0 else 0
  let taps := d.kh * d.kw
  let term (c base : Nat) : Int :=
    let za := nth 0 x.za c
    ((x.window d c y z).zipIdx.map (fun t => match t.1 with
      | some v => (v - za) * x.w.getD (base + t.2) 0
      | none => 0)).sum
  hold48 (init + if d.mode = 2 then term o (o * taps)
    else ((List.range d.cin).map (fun c => term c ((o * d.cin + c) * taps))).sum)

/-- An output of a convolution by OUTF: its bytes and whether it saturated. -/
def PassData.convOut (x : PassData) (d : PassDesc) (o y z : Nat) (acc : Int) : List Byte × Bool :=
  if d.outf = 0 then (bytesOf 4 (wrap 32 (clampInt int32Lo int32Hi acc)), acc < int32Lo || int32Hi < acc)
  else if 128 ≤ o then (bytesOf d.osize (Config.farOutput d.words o y z).toNat, false)
  else
    let t := scaledOut (Fp.ofInt acc) (scaleValue x.q.pow2 x.q.sa) (scaleValue x.q.pow2 (nth 0 x.sw o)) (.fin false 0 (-149))
      (if d.bias then some (Fp.ofWord (nth 0 x.bias o)) else none)
    let u := t.mul (scaleValue x.q.pow2 x.q.so)
    let zo := if d.outf ≠ 1 then 0 else if x.q.zoch then nth 0 x.zov o else x.q.zo
    let v := if d.outf = 1 then quantise u zo (-128) 127 else quantise u zo (-32768) 32767
    (bytesOf d.osize (wrap (8 * d.osize) v.1), v.2 || u = Fp.nan)

/-- Whether a value lies in the range of the input format. -/
def PassDesc.inFormat (d : PassDesc) (v : Int) : Bool :=
  -(2 ^ (8 * d.es - 1)) ≤ v && v < 2 ^ (8 * d.es - 1)

/-- A pooled output (R386) of the elements of a window, padded ones `none`. -/
def PassDesc.pooled (d : PassDesc) (o y z : Nat) (l : List (Option Int)) : Int :=
  let vals := l.filterMap id
  let other : Int := (Config.poolValue d.words o y z).toInt
  if d.mode = 3 ∨ d.mode = 5 then (vals.max?).getD other
  else
    let n : Int := if d.mode = 4 && !d.avgexcl then l.length else vals.length
    let sum : Int := vals.sum + (if d.mode = 4 && !d.avgexcl then d.padv * ((l.length : Int) - vals.length) else 0)
    if n = 0 then other
    else
      let v := (2 * sum + n) / (2 * n)
      if d.inFormat v then v else other

/-- All elements of a plane. -/
def PassData.plane (x : PassData) (d : PassDesc) (c : Nat) : List (Option Int) :=
  (List.range d.ih).flatMap (fun (y : Nat) => (List.range d.iw).map (fun (z : Nat) => x.at d c (Int.ofNat y) (Int.ofNat z)))

/-- ARGMAX at a position (R401): the lowest index among the largest. -/
def PassData.argmaxAt (x : PassData) (d : PassDesc) (y z : Nat) : Nat :=
  let vals := (List.range d.cin).map (fun c => (x.at d c (y : Int) (z : Int)).getD 0)
  match vals.max? with
  | some m => (firstIdx vals (fun v => v = m)).getD 0
  | none => 0

/-- One output row: its bytes, whether an output saturated, and the largest |acc|. -/
def PassData.row (x : PassData) (d : PassDesc) (o y : Nat) : List Byte × Bool × Nat :=
  if d.conv then
    let r := (List.range d.ow).map (fun z =>
      let acc := x.accOf d o y z
      let v := x.convOut d o y z acc
      (v.1, v.2, acc.natAbs))
    ((r.map (·.1)).flatten, r.any (·.2.1), (r.map (·.2.2)).foldl max 0)
  else if d.argmax then (((List.range d.ow).map (fun z => bytesOf 2 (x.argmaxAt d y z))).flatten, false, 0)
  else
    (((List.range d.ow).map (fun z =>
      bytesOf d.es (wrap (8 * d.es) (d.pooled o y z (if d.global then x.plane d o else x.window d o y z))))).flatten, false, 0)

/-- The whole pass: its rows as (cycle at which it has been written, channel, row, bytes), SATUR, and AMAXE (R404). -/
def PassData.run (x : PassData) (d : PassDesc) : List (Nat × Nat × Nat × List Byte) × Bool × Nat :=
  let rows := d.rowTimes.map (fun t => (t, x.row d t.1.1 t.1.2))
  (rows.map (fun r => (r.1.2, r.1.1.1, r.1.1.2, r.2.1)), rows.any (fun r => r.2.2.1),
    if d.stats && d.conv then bitLen ((rows.map (fun r => r.2.2.2)).foldl max 0) else 0)

end Sys2Proof.Machine
end

