-- ==== Sys2Proof/Machine/Privet.lean ====
section
/-! DEFINITION. The Privet line-rate channels: reload and its checks, colour conversion, the first layer, frame entries, and what
the boundary does to a channel (14 R393 to R400, R406, R407). -/

namespace Sys2Proof.Machine

/-! ### The line-rate descriptor (R406) -/

structure LineDesc where
  pix : Nat
  cin : Nat
  colour : Bool
  labout : Bool
  layer : Bool
  lsrc : Bool
  iw : Nat
  cout : Nat
  kh : Nat
  kw : Nat
  sx : Nat
  sy : Nat
  pl : Nat
  pr : Nat
  outf : Nat
  out : Nat
  outRow : Nat
  outPlane : Nat
  nrows : Nat
  lab : Nat
  labRow : Nat
  labPlane : Nat
  labRows : Nat
  w : Nat
  q : Nat
  cblk : Nat
  ftab : Nat
  fsync : Nat
  fsyncEn : Bool

def lineDesc (d : List Word) : LineDesc :=
  let f (w lo n : Nat) := bits (nth 0 d w) lo n
  let va (w : Nat) := f w 0 32 + f (w + 1) 0 32 * 2 ^ 32
  { pix := f 0 0 2, cin := f 0 2 3, colour := f 0 5 1 = 1, labout := f 0 6 1 = 1, layer := f 0 7 1 = 1, lsrc := f 0 8 1 = 1
    iw := f 1 0 16, cout := f 1 16 6, kh := f 2 0 3, kw := f 2 4 3, sx := f 2 8 3, sy := f 2 12 3, pl := f 2 16 2, pr := f 2 18 2
    outf := f 2 20 3, out := va 4, outRow := f 6 0 32, outPlane := f 7 0 32, nrows := f 8 0 32
    lab := va 10, labRow := f 12 0 32, labPlane := f 13 0 32, labRows := f 14 0 32
    w := vaField d 16, q := vaField d 18, cblk := vaField d 20, ftab := vaField d 22, fsync := f 24 0 14, fsyncEn := f 24 31 1 = 1 }

/-- The bits of each word that a field names. -/
def lineMask : List Nat :=
  [0x1FF, 0x3FFFFF, 0x7F7777, 0, 0xFFFFFFFF, 0xFFFFFFFF, 0xFFFFFFFF, 0xFFFFFFFF, 0xFFFFFFFF, 0, 0xFFFFFFFF, 0xFFFFFFFF,
   0xFFFFFFFF, 0xFFFFFFFF, 0xFFFFFFFF, 0, 0xFFFFFFFF, 0xFFFF, 0xFFFFFFFF, 0xFFFF, 0xFFFFFFFF, 0xFFFF, 0xFFFFFFFF, 0xFFFF,
   0x80003FFF, 0, 0, 0, 0, 0, 0, 0]

/-- Whether L*a*b* rows are written. -/
def LineDesc.labs (d : LineDesc) : Bool := d.colour && d.labout

/-- Input channels of the layer, its output width, and bytes of an output. -/
def LineDesc.chans (d : LineDesc) : Nat := if d.lsrc then 3 else d.cin
def LineDesc.ow (d : LineDesc) : Nat := if d.iw + d.pl + d.pr < d.kw then 0 else (d.iw + d.pl + d.pr - d.kw) / (max d.sx 1) + 1
def LineDesc.osize (d : LineDesc) : Nat := if d.outf = 1 then 1 else 2

/-- Step 3. -/
def LineDesc.formatBad (d : LineDesc) : Bool := 2 ≤ d.pix || (d.layer && d.outf ≠ 1 && d.outf ≠ 2)

/-- Step 5, by the table of R397. -/
def LineDesc.sizeBad (d : LineDesc) : Bool :=
  let within (lo hi x : Nat) : Bool := lo ≤ x && x ≤ hi
  !(within 1 4 d.cin && within 1 16384 d.iw && (!(d.colour || (d.layer && d.lsrc)) || d.cin = 3) &&
    (!d.labs || within 1 65535 d.labRows) &&
    (!d.layer || ([d.kh, d.kw].all (within 1 7) && [d.sx, d.sy].all (within 1 4) && within 1 32 d.cout &&
      within 1 65535 d.nrows && 1 ≤ d.ow)))

/-- Step 6. -/
def LineDesc.alignBad (d : LineDesc) : Bool :=
  [d.out, d.lab, d.w, d.q, d.outRow, d.outPlane, d.labRow, d.labPlane].any (fun x => x % 64 ≠ 0)

/-- Step 7. -/
def LineDesc.strideBad (d : LineDesc) : Bool :=
  (d.layer && (d.outRow < d.ow * d.osize || d.outPlane < d.nrows * d.outRow)) ||
  (d.labs && (d.labRow < 2 * d.iw || d.labPlane < d.labRows * d.labRow))

/-- Bytes of the operands. -/
def LineDesc.wBytes (d : LineDesc) : Nat := if d.layer then d.cout * d.chans * d.kh * d.kw else 0
def LineDesc.qBytes (d : LineDesc) : Nat := if d.layer then 960 else 0
def LineDesc.cBytes (d : LineDesc) : Nat := if d.colour then 0x8012 else 0
def LineDesc.outBytes (d : LineDesc) : Nat :=
  if d.layer then (d.cout - 1) * d.outPlane + (d.nrows - 1) * d.outRow + d.ow * d.osize else 0
def LineDesc.labBytes (d : LineDesc) : Nat :=
  if d.labs then 2 * d.labPlane + (d.labRows - 1) * d.labRow + 2 * d.iw else 0

/-- Step 10: the layer's ring against its weights. -/
def LineDesc.overlapBad (d : LineDesc) : Bool := 0 < d.wBytes && d.w < d.out + d.outBytes && d.out < d.w + d.wBytes

/-! ### Reload (R394) -/

def lineFeed : Feed := ⟨prvCache, 5, true⟩

/-- The context for which a channel acts: its owner now, or the one it had. -/
def Hw.lineFor (h : Hw) (n : Nat) : Option Nat :=
  match h.lineOwner n with
  | some s => some s
  | none => (h.lineChan n).owner

/-- Steps 1 to 8 for the owner `s`: 0, or the reason (R405). -/
def Hw.lineCheck (h : Hw) (s n : Nat) (words : List Word) : Nat :=
  let d := lineDesc words
  let p := h.port (bits (h.lineChan n).ctl 1 3)
  if outsideMask lineMask words then 1 else if !(p.master && p.ownerSlot = some s) then 0xB else if d.formatBad then 2
  else if d.sizeBad then 3 else if d.alignBad then 4 else if d.strideBad then 5
  else if d.fsyncEn && !h.mayUse s d.fsync then 7 else 0

/-- A channel stops: nothing waits in it. -/
def LineChan.halt (c : LineChan) : LineChan := { c with running := false, reload := false, fifo := [], window := [], closing := none }

/-- A reload fails a check (R394). -/
def Hw.lineRefuse (h : Hw) (s n reason : Nat) : Hw :=
  (h.modLineChan n (fun c => { c.halt with err := true, reason := reason })).ctxFault s 6 0 0 0

/-- A reload meets poison (17 R472), or memory of the host that cannot be read. -/
def Hw.linePoison (h : Hw) (s n va : Nat) : Hw :=
  (h.modLineChan n (fun c => { c.halt with err := true })).ctxFault s 3 0 0 va

def Hw.lineXlat (h : Hw) (s n r va : Nat) : Hw := (h.modLineChan n LineChan.halt).xlatCtxFault s 0 r va

/-- The blocks that a descriptor names. -/
def Hw.lineBlocks (h : Hw) (s : Nat) (pages : Tbl Nat) (d : LineDesc) : Hw × Except Nat (List Byte × List Byte × List Byte) :=
  feedThen (h.feedRead lineFeed s pages d.w d.wBytes) fun h w =>
  feedThen (h.feedRead lineFeed s pages d.q d.qBytes) fun h q =>
  feedThen (h.feedRead lineFeed s pages d.cblk d.cBytes) fun h c => (h, .ok (w, q, c))

/-- Steps 9 and 10, the blocks, and the new start. -/
def Hw.lineRestart (h : Hw) (s n : Nat) (words : List Word) : Hw :=
  let d := lineDesc words
  match h.feedRanges lineFeed s [] [(d.w, d.wBytes, false), (d.q, d.qBytes, false), (d.cblk, d.cBytes, false),
      (d.out, d.outBytes, true), (d.lab, d.labBytes, true), (d.ftab, 256, true)] with
  | (h, .error (.reason r)) => h.lineRefuse s n r
  | (h, .error (.xlat r va)) => h.lineXlat s n r va
  | (h, .error (.poison va)) => h.linePoison s n va
  | (h, .ok pages) =>
    if d.overlapBad then h.lineRefuse s n 8
    else
      match h.lineBlocks s pages d with
      | (h, .error va) => h.linePoison s n va
      | (h, .ok (w, q, c)) => h.modLineChan n (fun x => { x with
          running := true, reload := false, err := false, reason := 0, owner := some s, words := words, wblk := w, qblk := q
          cblk := c, pages := pages, window := [], rows := 0, lines := 0, frameRows := 0, frameLines := 0
          flags := x.flags ||| 4, stopping := false })

/-- LINE_RATE_RELOAD: a channel that is to reload, and has closed the old frame, reads its descriptor. -/
def Hw.lineReload (h : Hw) (n : Nat) : Hw :=
  let c := h.lineChan n
  match h.lineFor n with
  | none => h
  | some s =>
    let st := (h.ctx s).state
    if !c.reload || c.closing.isSome || !h.ticksRun || !(st = CtxState.idle || st = CtxState.live) then h
    else
      let h := h.modLineChan n (fun x => { x with owner := some s })
      match h.vaRead prvCache 5 s c.desc.toNat 128 with
      | (h, _, some (.xlat r va)) => h.lineXlat s n r va
      | (h, _, some f) => h.linePoison s n f.va
      | (h, bs, none) =>
        let words := wordsOf bs 32
        let r := h.lineCheck s n words
        if r ≠ 0 then h.lineRefuse s n r else h.lineRestart s n words

/-! ### Colour conversion (R396, R407) -/

/-- A 16-bit element of a block of bytes. -/
def half (b : Array Byte) (o : Nat) : Nat := (b.getD o 0).toNat + 256 * (b.getD (o + 1) 0).toNat

/-- L*, a* and b* of one pixel; `p` are its R, G and B samples. -/
def labOf (cblk : Array Byte) (wide : Bool) (p : List Nat) : List Int :=
  let c := [0, 1, 2].map (fun j => (half cblk (2 * (4096 * j + (if wide then nth 0 p j / 16 else nth 0 p j * 16))) : Int))
  let f := [0, 1, 2].map (fun i =>
    let sum := ([0, 1, 2].map (fun j => signed 16 (half cblk (0x8000 + 2 * (3 * i + j))) * nth 0 c j)).sum
    (half cblk (0x6000 + 2 * ((clampInt 0 65535 (sum / 16384)).toNat / 16)) : Int))
  let f0 := nth 0 f 0; let f1 := nth 0 f 1; let f2 := nth 0 f 2
  [(116 * f1 + 64) / 128 - 4096, (500 * (f0 - f1) + 64) / 128, (200 * (f1 - f2) + 64) / 128].map (clampInt (-32768) 32767)

/-- The pixels of a line: `cin` samples each. -/
def pixelsOf (cin : Nat) (samples : Array Nat) (n : Nat) : List (List Nat) :=
  (List.range n).map (fun x => (List.range cin).map (fun j => samples.getD (x * cin + j) 0))

/-- Plane `j` of a list of pixels. -/
def planeOf {α : Type} (d : α) (l : List (List α)) (j : Nat) : List α := l.map (fun p => nth d p j)

/-! ### The first layer (R397) -/

/-- The rows in hand, newest first: each its channels, each its elements. -/
abbrev LineWindow := List (List (List Int))

/-- The accumulator of output channel `o` at column `x`. -/
def lineAcc (d : LineDesc) (w : Array Byte) (win : Array (Array (Array Int))) (o x : Nat) : Int :=
  hold48 ((List.range d.chans).map (fun c => ((List.range d.kh).map (fun ky => ((List.range d.kw).map (fun kx =>
    let col := x * d.sx + kx
    if col < d.pl then 0
    else ((win.getD (d.kh - 1 - ky) #[]).getD c #[]).getD (col - d.pl) 0 *
      ((w.getD (((o * d.chans + c) * d.kh + ky) * d.kw + kx) 0).toInt))).sum)).sum)).sum

/-- An output of the layer (R353): its bytes. -/
def lineOut (d : LineDesc) (qblk : List Byte) (o : Nat) (acc : Int) : List Byte :=
  let q := qHead (wordsOf qblk 16)
  let b := qblk.toArray
  let bias := BitVec.ofNat 32 (half b (0x140 + 4 * o) + 65536 * half b (0x142 + 4 * o))
  let t := scaledOut (Fp.ofInt acc) (scaleValue q.pow2 q.sa) (scaleValue q.pow2 (half b (0x40 + 2 * o))) (.fin false 0 (-149))
    (if Config.lineBias then some (Fp.ofWord bias) else none)
  let u := t.mul (scaleValue q.pow2 q.so)
  let zo := if q.zoch then (b.getD (0x340 + o) 0).toInt else q.zo
  bytesOf d.osize (wrap (8 * d.osize) (if d.outf = 1 then (quantise u zo (-128) 127).1 else (quantise u 0 (-32768) 32767).1))

/-- A row of the layer for output channel `o`. -/
def lineRow (d : LineDesc) (wblk qblk : List Byte) (win : LineWindow) (o : Nat) : List Byte :=
  let w := wblk.toArray
  let a := (win.map (fun r => (r.map List.toArray).toArray)).toArray
  ((List.range d.ow).map (fun x => lineOut d qblk o (lineAcc d w a o x))).flatten

/-! ### Lines (R395, R398) -/

/-- Writes bytes at a context address through the channel's pages. -/
def Hw.lineWrite (h : Hw) (slot : Nat) (pages : Tbl Nat) (va : Nat) (bs : List Byte) : Hw :=
  (pieces pages va bs (bs.length / 4096 + 2)).foldl (fun (h : Hw) p => h.placeWrite 5 slot p.1 p.2) h

/-- The layer takes the rows of a line: an output row if one is due. -/
def Hw.layerRow (h : Hw) (n slot : Nat) (d : LineDesc) (rows : List (List Int)) : Hw :=
  let c := h.lineChan n
  let win := (rows :: c.window).take d.kh
  let h := h.setLineChan n { c with window := win }
  let l := c.lines.toNat
  if d.kh - 1 ≤ l && (l - (d.kh - 1)) % d.sy = 0 then
    let row := c.rows.toNat % d.nrows
    let h := (List.range d.cout).foldl (fun (h : Hw) o =>
      h.lineWrite slot c.pages (d.out + o * d.outPlane + row * d.outRow) (lineRow d c.wblk c.qblk win o)) h
    (h.modLineChan n (fun c => { c with rows := c.rows + 1, frameRows := c.frameRows + 1 })).heldEvent (8 + n)
  else h

/-- A line of the right form passes through the stages that are on. -/
def Hw.processLine (h : Hw) (n slot : Nat) (d : LineDesc) (l : QueuedLine) : Hw :=
  let c := h.lineChan n
  let px := pixelsOf d.cin l.samples.toArray d.iw
  let cblk := c.cblk.toArray
  let labs : List (List Int) :=
    if d.colour then px.map (labOf cblk l.wide)
    else (List.range d.iw).map (fun x => [0, 1, 2].map (fun j => (Config.labValue l.samples j x).toInt))
  let h := if d.labs then
      [0, 1, 2].foldl (fun (h : Hw) j => h.lineWrite slot c.pages (d.lab + j * d.labPlane + c.lines.toNat % d.labRows * d.labRow)
        ((planeOf 0 labs j).flatMap (fun v => bytesOf 2 (wrap 16 v)))) h
    else h
  let rows : List (List Int) :=
    if d.lsrc then [0, 1, 2].map (planeOf 0 labs) else (List.range d.cin).map (fun j => (planeOf 0 px j).map Int.ofNat)
  let h := if d.layer then h.layerRow n slot d rows else h
  h.modLineChan n (fun c => { c with lines := c.lines + 1, frameLines := c.frameLines + 1 })

/-- The oldest line of the FIFO, if the channel may take it now: while a frame is to be closed only that frame's, and none
while a reload is due. -/
def LineChan.next (c : LineChan) : Option QueuedLine :=
  match c.fifo with
  | [] => none
  | l :: _ =>
    if !c.running then none
    else match c.closing with
      | some k => if l.frame = k then some l else none
      | none => if c.reload then none else some l

/-- LINE_RATE_LINE. -/
def Hw.lineTake (h : Hw) (n : Nat) : Hw :=
  let c := h.lineChan n
  match c.next with
  | none => h
  | some l =>
    let d := lineDesc c.words
    let h := h.setLineChan n { c with fifo := c.fifo.drop 1 }
    if l.width ≠ d.iw || l.wide ≠ (d.pix = 1) || l.cin ≠ d.cin then
      (h.modLineChan n (fun c => { c with flags := c.flags ||| 2 })).bump (Reg.prvLrerrl n) 1
    else if d.colour || d.layer then h.processLine n (c.owner.getD 0) d l
    else h

/-! ### Frame entries (R399, R407) -/

/-- The 32 bytes of the entry of frame `k`. -/
def LineChan.entry (c : LineChan) (k : Nat) : List Byte :=
  bytesOf 6 k ++ bytesOf 2 (c.flags + (if c.stopping then 8 else 0)) ++ bytesOf 8 (c.rows - BitVec.ofNat 64 c.frameRows).toNat ++
  bytesOf 4 c.frameRows ++ bytesOf 4 c.frameLines ++ bytesOf 8 (c.lines - BitVec.ofNat 64 c.frameLines).toNat

/-- FRAME_ENTRY: the ending frame, all of whose lines are done, is closed. -/
def Hw.lineClose (h : Hw) (n : Nat) : Hw :=
  let c := h.lineChan n
  match c.closing with
  | none => h
  | some k =>
    if !c.running || c.fifo.any (fun l => l.frame = k) then h
    else
      let d := lineDesc c.words
      let slot := c.owner.getD 0
      let h := (h.lineWrite slot c.pages (d.ftab + 32 * (k % 8)) (c.entry k)).heldEvent (12 + n)
      let h := if d.fsyncEn then h.signal ⟨slot, 6⟩ d.fsync 1 else h
      h.modLineChan n (fun c => { c with
        frameRows := 0, frameLines := 0, flags := c.nextFlags, nextFlags := 0, closing := none
        running := !c.stopping, stopping := false, fifo := if c.stopping then [] else c.fifo })

/-! ### The boundary (R393, R394, R400) -/

/-- What a channel had to do for the frame that opened last: it is done by the next boundary. -/
def Hw.lineCatchUp (h : Hw) : Hw :=
  (List.range 4).foldl (fun (h : Hw) n =>
    let h := if (h.lineChan n).closing.isSome then ((List.range 4).foldl (fun (h : Hw) _ => h.lineTake n) h).lineClose n else h
    h.lineReload n) h

/-- Whether the conditions of R393 hold for a channel of owner `s` with control word `ctl`. -/
def Hw.lineWanted (h : Hw) (s : Nat) (ctl : Word) : Bool :=
  let st := (h.ctx s).state
  bit ctl 0 && h.ticksRun && (st = CtxState.idle || st = CtxState.live) && (h.port (h.groupOf (bits ctl 1 3))).link

/-- The boundary closes the ending frame `old` of each running channel, unless the frame is the first, and decides reloads; `stop`: the
ticks stop here. -/
def Hw.lineBoundary (h : Hw) (first stop : Bool) (old : Nat) : Hw :=
  (List.range 4).foldl (fun (h : Hw) n =>
    let c := h.lineChan n
    match h.lineFor n with
    | none => h.setLineChan n { c.halt with owner := none }
    | some s =>
      let ctl := h.actReg (Reg.ofCtx s (Reg.prvLrctl n))
      let desc := dword (h.actReg (Reg.ofCtx s (Reg.prvLrdesc n))) (h.actReg (Reg.ofCtx s (Reg.prvLrdesc n) + 4))
      let wanted := !stop && h.lineWanted s ctl
      h.setLineChan n { c with
        owner := if c.running then c.owner else some s, ctl := ctl, desc := desc
        closing := if c.running && !first then some old else none
        stopping := c.running && !wanted
        reload := wanted && (!c.running || c.reload || ctl ≠ c.ctl || desc ≠ c.desc) }) h

end Sys2Proof.Machine
end

