-- ==== Sys2Proof/Machine/Tick.lean ====
section
/-! DEFINITION. The tick and its boundary window (02 R33 to R51), each window step an operation of its own, in the order of
R41, and the end of the tick (R34, R35). -/

namespace Sys2Proof.Machine

/-! ### Window step 1: the frame number and the cut-off (R39, R45, R46) -/

/-- The frame logic latches the new frame's facts (R39, R56). -/
def Hw.openFrame (h : Hw) : Hw :=
  let s := h.tickSource
  let pos : BitVec 48 := if s.sel = 1 then h.posOf 0 else if s.sel = 2 then h.posOf 1 else 0
  let first := h.frm.waiting
  let stall : Bool := match h.frm.due with | some d => decide (d.1 = .stall) | none => false
  { h with
    frm.lastLines := if first || !(s.sel = 1 || s.sel = 2) || s.leads then 0 else if stall then h.frm.lastLines else s.fl
    frm.fnum := if first then 0 else h.frm.fnum + 1
    frm.tickTime := h.ptp.time
    frm.tickPos := pos
    frm.lastLen := if first then h.frm.lastLen else h.now - h.frm.lastTick
    frm.lastTick := h.now
    frm.countFrom := h.now
    frm.waiting := false
    frm.ticked := true
    frm.tailBegun := false
    frm.due := match h.frm.after with | some k => if stall then none else some (k, h.now + 1500) | none => none
    frm.after := none
    web.capture := ((h.ptp.time, h.posOf 0, h.posOf 1) :: h.web.capture).take 4 }

/-- One admitted job of the ending frame that has not finished is cut off (R45, R46); `age` and measured cost follow
07 R200 and R202. -/
def Hw.cutOffJob (h : Hw) (a : Admit) : Hw :=
  if !h.unfinished a.slot a.job then h
  else
    let e := h.runEnergy a.slot a.job a.paired
    let h := (h.stopRuns (fun s j => s = a.slot && j = a.job)).hw
    let h := h.modStat a.slot a.job (fun s => { s with measured := max s.measured e, age := min (s.prev + 1) 65535 })
    let h := { h with web.results := h.web.results ++ [⟨a.slot, a.job, false, false, false⟩] }
    if a.cls = 0 then (h.bump Reg.frmCutoff 1).setRegBit Reg.frmStat 4 else h

def Hw.cutOffs (h : Hw) : Hw := h.col.plan.jobs.foldl (fun (h : Hw) a => h.cutOffJob a) h

/-! ### Window step 3: staged to active, swaps, and what takes effect with them (R12, R51) -/

/-- The staged copy of every RB register becomes active (R12). -/
def Hw.copyStaged (h : Hw) : Hw := { h with act := h.regs }

/-- Where the tick's settings change with the copy, counting starts at this boundary and no event held before it gives a tick
(R34); `g` is the state after the copy. -/
def Hw.retime (h g : Hw) : Hw :=
  if [Reg.frmSrc, Reg.frmFl, Reg.frmPeriod, Reg.frmPhase, Reg.frmMaxp].all (fun r => h.actReg r = g.actReg r) then g
  else { g with frm.lines := 0, frm.due := none }

/-- Statistics after a swap: a changed descriptor, or a newly filled index, starts anew (07 R202). -/
def swapStats (old new : Tbl (List Word)) (stats : Tbl JobStat) : Tbl JobStat :=
  new.foldl (fun t j =>
    if Tbl.get [] old j.1 = j.2 then t
    else Tbl.set {} t j.1 { Tbl.get {} t j.1 with measured := 0, runs := 0 }) stats

/-- A context's swap applies (R51). -/
def Hw.applySwap (h : Hw) (slot : Nat) (keep : Bool) : Hw :=
  h.modCtx slot (fun c => { c with
    active := c.staged
    staged := if keep then c.staged else c.active
    stats := swapStats c.active.jobs c.staged.jobs c.stats
    swap := none, lastSwap := h.frm.fnum.toNat, swapped := true })

/-- The armed swaps of single contexts that are due (R50), each signalling its counter. -/
def Hw.applySwaps (h : Hw) : Hw :=
  (h.ctxs.filter (fun (e : Nat × Ctx) => match e.2.swap with
    | some w => w.committed || w.target = h.frm.fnum.toNat
    | none => false)).foldl (fun (h : Hw) e =>
      match e.2.swap with
      | some w => (h.applySwap e.1 w.keep).signal ⟨e.1, 10⟩ w.counter 1
      | none => h) h

/-- The module's packet for a domain swap is answered (04 R146, 20 R558). -/
def Hw.answerDomainSwap (h : Hw) (status result : Nat) : Hw :=
  h.execs.foldl (fun (h : Hw) (x : RingId × Exec) =>
    if x.2.waits = .domainSwap then h.reply x.1 x.2.packet status (resultOf [(0, 8, result)]) else h) h

/-- A domain swap commits at this boundary, or is aborted (R558). -/
def Hw.domainSwapStep (h : Hw) : Hw :=
  match h.wml.swap with
  | none => h
  | some d =>
    if h.wml.commit then
      let h := d.slots.foldl (fun (h : Hw) s => h.applySwap s d.keep) h
      let h := match d.slots.head? with | some s => h.signal ⟨s, 10⟩ d.counter 1 | none => h
      let h := { h with wml.swap := none, wml.lastSwap := h.frm.fnum.toNat, wml.activeSlots := d.slots }
      h.answerDomainSwap Status.ok h.frm.fnum.toNat
    else if h.wml.abort then { h with wml.swap := none }.answerDomainSwap Status.swapAborted 0
    else h

/-- CTX_RUN changes staged for this boundary (05 R154). -/
def Hw.applyRuns (h : Hw) : Hw :=
  { h with ctxs := List.map (fun (e : Nat × Ctx) =>
      (e.1, match e.2.pendingLive, e.2.state with
        | some true, .idle => { e.2 with state := .live, pendingLive := none }
        | some false, .live => { e.2 with state := .idle, pendingLive := none }
        | _, _ => { e.2 with pendingLive := none })) h.ctxs }

/-- Output bindings change, and pulses queued for the previous owner are cancelled (04 R139, 19 R530). -/
def Hw.applyBinds (h : Hw) : Hw :=
  { h with web.outputs := List.map (fun (e : Nat × Output) =>
      (e.1, match e.2.pending with
        | some b => { e.2 with bound := b, pending := none, orphan := false, queue := [], activeUntil := none }
        | none => e.2)) h.web.outputs }

/-- RUN or HOLD as requested, and HOLD from READY at the first tick (22 R596, 04 R99, R101). -/
def Hw.applyModuleState (h : Hw) : Hw :=
  let h := if h.isState .ready then h.enterState .hold else h
  match h.frm.pendingState with
  | some s =>
    let h := { h with frm.pendingState := none }.enterState s
    if s = .hold then h.holdOutputs else h
  | none => h

/-! ### Window steps 5 and 6: the operating point and the published list (R43, R47, 07 R200, R205, R210) -/

/-- The point that admission chose: a lower one at once, a higher one when its rail has settled (R43). -/
def Hw.setPoint (h : Hw) (p : Nat) : Hw :=
  if h.col.point < p then { h with col.point := p, col.raising := none }
  else if p < h.col.point then { h with col.raising := some p }
  else { h with col.raising := none }

/-- Ages at a publish: a job in the list starts again from 0, every other job of a LIVE context ages (R200), but not where the
list repeats because the tick came before admission had finished (At the edges). -/
def Hw.ageJobs (h : Hw) (missed : Bool) : Hw :=
  { h with ctxs := List.map (fun (e : Nat × Ctx) =>
      if e.2.state ≠ .live then e
      else (e.1, { e.2 with stats := e.2.active.jobs.foldl (fun t j =>
        let s := Tbl.get {} t j.1
        if h.col.plan.jobs.any (fun a => a.slot = e.1 && a.job = j.1) then Tbl.set {} t j.1 { s with prev := s.age, age := 0 }
        else if missed then t
        else Tbl.set {} t j.1 { s with age := min (s.age + 1) 65535 }) e.2.stats })) h.ctxs }

/-- C1 jobs left out of a repeating plan that are overdue count in each of its frames (R209). -/
def Hw.missedInPlan (h : Hw) : Hw :=
  let n := (h.candidates.filter (fun c => c.overdue && h.col.plan.leftC1.contains (c.slot, c.job))).length
  h.bump Reg.colC1miss n

/-- The job that a later strike takes: C2 of lowest PRIO, ties to the higher slot, then the higher index (R210). -/
def strikeVictim (l : List Admit) : Option Admit :=
  let c2 := l.filter (·.cls = 2)
  let key (a : Admit) : Nat := (7 - a.prio) * 65536 + a.slot * 64 + a.job
  c2.foldl (fun best a => match best with
    | some b => if key b < key a then some a else some b
    | none => some a) none

/-- Strikes from the repeating plan while the junction is at or above the target (R210). -/
def Hw.strike (h : Hw) : Hw :=
  let hot := (bits (h.actReg Reg.thmTgt) 0 16 : Int) ≤ signed 16 h.col.hot.toNat
  if !h.frm.fixedPlan || !hot then { h with col.struck := 0 }
  else
    let p := h.col.plan
    let h := { h with col.struck := h.col.struck + 1 }
    if h.col.struck = 1 then
      let h := if p.jobs.any (·.cls = 3) || !p.items.isEmpty then h.setRegBit Reg.colStat 4 else h
      { h with col.plan.jobs := p.jobs.filter (·.cls ≠ 3), col.plan.items := [] }
    else
      match strikeVictim p.jobs with
      | some a => ({ h with col.plan.jobs := p.jobs.filter (· ≠ a) }).setRegBit Reg.colStat 4
      | none => h

/-- Jobs of contexts that are no longer LIVE leave the list that is published, with the verdicts that it owes (R159, R163). -/
def Hw.dropDead (h : Hw) : Hw :=
  { h with
    col.plan.jobs := h.col.plan.jobs.filter (fun a => (h.ctx a.slot).state = .live)
    col.plan.late := h.col.plan.late.filter (fun x => (h.ctx x.1).state = .live) }

/-- The unit that an item of the steward's C3 work occupies. -/
def C3Item.units : C3Item → List Nat
  | .test u _ => (testUnit u).toList
  | .scrub _ => []

/-- Power gating (R205): units that no job or test has for GATEIDLE frames are gated; assigned gated units wake. -/
def Hw.gateUnits (h : Hw) : Hw :=
  let used := h.col.plan.jobs.flatMap Admit.units ++ h.col.plan.items.flatMap C3Item.units
  let limit := bits (h.actReg Reg.colCfg) 24 4
  (List.range 22).foldl (fun (h : Hw) u =>
    if used.contains u then
      let h := { h with col.idle := Tbl.set 0 h.col.idle u 0 }
      if h.col.gated.contains u then
        { h with
          col.gated := h.col.gated.filter (· ≠ u), col.waking := h.col.waking ++ [u]
          col.frameWakes := h.col.frameWakes + (if u < 18 then 180 else 2400) }
      else h
    else
      let n := Tbl.get 0 h.col.idle u + 1
      let h := { h with col.idle := Tbl.set 0 h.col.idle u n }
      if limit ≤ n && !h.col.gated.contains u then { h with col.gated := h.col.gated ++ [u] } else h) h

/-- The ages of the steward's items, which R206 orders by: every unit of the sweep, every suspect, and the scrub item (key 0). -/
def Hw.ageItems (h : Hw) : Hw :=
  let keys := ((List.range 18).map coreUnit ++ (List.range 4).map arrayUnit ++ h.cpc.suspects.map wholeOf ++ [0]).eraseDups
  { h with col.itemAges := keys.foldl (fun t k =>
      Tbl.set 0 t k (if h.col.plan.items.any (·.key = k) then 0 else min (Tbl.get 0 t k + 1) 65535)) h.col.itemAges }

/-- The list for the new frame is published (R41, R47): the admission just made, or the list of the ending frame again, with
TAILMISS where an admission was due and had not finished (`missed`); such a boundary advances no age (07, At the edges). -/
def Hw.publish (h : Hw) (first missed : Bool) : Hw :=
  let h :=
    match h.col.next with
    | some p =>
      let h := if h.frm.fixedPlan then h else h.setPoint p.point
      { h with col.plan := p, col.next := none, frm.planAge := 0, col.pred := p.pred }
    | none =>
      let h := { h with frm.planAge := if first then 0 else h.frm.planAge + 1 }
      let h := if missed then h.setRegBit Reg.frmStat 3 else h
      if h.frm.fixedPlan && !missed && !first then h.missedInPlan else h
  let h := h.dropDead
  let h := h.ageJobs missed
  let h := if missed then h else h.ageItems
  let h := h.strike
  let h := h.gateUnits
  let p := h.col.plan
  let owed := p.late.map (fun x => Owed.mk x.1 x.2 (jobVcount (h.activeJob x.1 x.2)) 1)
  { h with
    web.owed := h.web.owed ++ owed
    col.itemsLeft := h.col.plan.items
    wpool := p.budget - p.admitted
    degraded := [], fitDiff := [], pairEnds := [] }

/-- Whether the coming boundary publishes a new admission (R48, R209). -/
def Hw.admitsNow (h : Hw) : Bool :=
  !h.frm.fixedPlan || 1024 ≤ h.frm.planAge + 1 || h.ctxs.any (fun (e : Nat × Ctx) => h.swapDue e.1 h.nextFrame)

/-- Collier's mode from the length of the frame just ended (R48). -/
def Hw.decideMode (h : Hw) (first : Bool) : Hw :=
  if first then h
  else if h.frm.lastLen < 20000 then { h with frm.fixedPlan := true, frm.longFrames := 0 }
  else if h.frm.fixedPlan then
    if 15 ≤ h.frm.longFrames then { h with frm.fixedPlan := false, frm.longFrames := 0 }
    else { h with frm.longFrames := h.frm.longFrames + 1 }
  else h

/-! ### The meters at a boundary (07 R197) -/

/-- COL_FEN, and the static draw folded with weight 1/8. -/
def Hw.foldStatic (h : Hw) (ns : Nat) : Hw :=
  let total : Nat := (List.zipWith (fun (a b : Nat) => a - b) h.col.meters h.col.atTick).sum
  let rest : Int := (total : Int) - h.col.frameJobs - h.col.frameWakes - h.col.frameWide
  let mw : Int := if ns = 0 then 0 else rest * 1000 / ns
  let p : Int := (h.col.pstatic : Int) + (mw - h.col.pstatic) / 8
  { h with
    col.fen := total, col.pstatic := p.toNat, col.atTick := h.col.meters
    col.frameJobs := 0, col.frameWakes := 0, col.frameWide := 0, col.pstaticAt := h.now }

/-! ### The domain at a boundary (20 R551, R555 to R559) -/

/-- Whether every member below acknowledges the swap, by the beacons received so far (R558). -/
def Hw.childrenAck (h : Hw) : Bool :=
  allLinks.all (fun k => !(h.link k).child || (match (h.link k).beacon with | some b => b.ackAll | none => false))

/-- The leader's place goes to a realigned member of lower ID at a tick flagged REALIGN (R552): such a member takes it, and the
old leader yields it. -/
def Hw.handOver (h : Hw) : Hw :=
  let w := h.wml
  if !w.joined || !w.realign then h
  else if !w.isLeader then
    if w.id < w.leader && !w.unsync then
      { h with wml.isLeader := true, wml.leader := w.id, wml.depth := 0, wml.plat := 0, wml.parent := none }
    else h
  else
    let lower := allLinks.filterMap (fun k => match (h.link k).child, (h.link k).beacon with
      | true, some b => if b.member.toNat < w.id && !b.unsync then some (k, b.member.toNat) else none
      | _, _ => none)
    match lower with
    | [] => h
    | (k, m) :: _ =>
      { h.modLink k (fun l => { l with child := false }) with
        wml.isLeader := false, wml.leader := m, wml.parent := some k, wml.depth := 1, wml.sourceEvent := none }

/-- UNSYNC, the leader's latch, waits that count ticks, and the flags of the tick just taken. -/
def Hw.domainStep (h : Hw) (kind : TickKind) : Hw :=
  let took : Bool := decide (kind = TickKind.domain)
  let h := { h with
    wml.unsyncHist := (h.wml.unsync :: h.wml.unsyncHist).take 4
    wml.unsync := if took && h.wml.matched then false else h.wml.unsync
    wml.catchup := if took then none else h.wml.catchup
    wml.holding := if took then false else h.wml.holding
    wml.dlat := if took && h.wml.realign then h.wml.dlatNext else h.wml.dlat
    wml.latch := h.wml.isLeader && h.wml.swap.isSome && h.childrenAck
    wml.sentBeacon := false, wml.beaconAt := h.now
    wml.beaconFrames := h.wml.beaconFrames + 1
    wml.held := h.wml.held.map (fun (w : HeldWait) => { w with ticks := w.ticks + 1 })
    wml.outs := h.wml.outs.map (fun (w : OutWait) => { w with ticks := w.ticks + 1 })
    frm.domainSeen := h.frm.domainSeen || took
    frm.lost := if took then none else h.frm.lost }
  let h := if took then h.handOver else h
  { h with wml.commit := false, wml.abort := false, wml.realign := false, wml.matched := false }

/-- The ROUTE payload that this module sends of itself (R553, R563). -/
def Hw.ownRoute (h : Hw) : RoutePayload :=
  ⟨BitVec.ofNat 14 h.wml.id, BitVec.ofNat 8 h.wml.depth, h.wml.joined, h.wml.leaving, BitVec.ofNat 32 h.wml.plat,
   BitVec.ofNat 14 h.wml.leader⟩

/-- ROUTE frames go out on every UP link. -/
def Hw.sendRoutes (h : Hw) : Hw := allLinks.foldl (fun (h : Hw) k => h.linkSend k (.route h.ownRoute)) h

/-- A link of a module that left its domain. -/
def Link.leave (l : Link) : Link :=
  { l with child := false, subtree := [], beacon := none, neighbour := none, state := if l.state = .foreign then .up else l.state }

/-- The module leaves the domain at this boundary (04 R145, R551). -/
def Hw.leaveStep (h : Hw) : Hw :=
  if !h.wml.leaving then h
  else
    let h := h.sendRoutes
    { h with wml := { h.wml with
      joined := false, id := 0, leader := 0, isLeader := false, members := [], plats := [], depth := 0, plat := 0, parent := none
      leaving := false, unsync := false, catchup := none, holding := false, ticks := [], down := none, sourceEvent := none
      relays := []
      links := List.map (fun (e : Nat × Link) => (e.1, e.2.leave)) h.wml.links } }

/-- SYN_WAIT packets count a tick of their TIMEOUT (04 R116). -/
def tickWait (r : Ring) : Ring :=
  match r.exec with
  | some ⟨p, .synWait i t n⟩ => { r with exec := some ⟨p, .synWait i t (n - 1)⟩ }
  | _ => r

/-! ### The end of the tick (R34, R35) -/

/-- Every SYN_WAIT replies when the tick stops (R116). -/
def Hw.endWaits (h : Hw) : Hw :=
  h.execs.foldl (fun (h : Hw) (x : RingId × Exec) =>
    match x.2.waits with
    | .synWait i _ _ => h.reply x.1 x.2.packet Status.ok (resultOf [(0, 8, (h.counter i).value.toNat)])
    | _ => h) h

/-- The tick stops: RUNNING clears, nothing more is admitted (R34, R35). -/
def Hw.stopTick (h : Hw) : Hw :=
  { h with
    frm.running := false, frm.waiting := false, frm.stopPending := false, frm.due := none, frm.lines := 0
    frm.pendingState := none, frm.after := none, frm.tailBegun := false, frm.lost := none
    wml.swap := none
    col.plan := {}, col.next := none, col.itemsLeft := [], col.raising := none }.endWaits.answerDomainSwap Status.swapAborted 0

/-! ### The tick -/

/-- A context reset counts the boundaries it still has to pass (05 R165). -/
def ResetInfo.boundary (r : ResetInfo) : ResetInfo := { r with boundaries := r.boundaries - 1 }

/-- The whole boundary window of a tick that falls now (R41). -/
def Hw.boundary (h : Hw) (kind : TickKind) : Hw :=
  let first := h.frm.waiting
  let old := h.frm.fnum.toNat
  let missed := !first && h.col.next.isNone && h.admitsNow
  let h := h.lineCatchUp
  let held := h.frm.after.isSome && kind ≠ TickKind.stall
  let h := h.openFrame.decideMode first
  let h := if held then h.setRegBit Reg.frmStat 0 else h
  let h := if first then { h with col.atTick := h.col.meters, col.frameJobs := 0, col.frameWakes := 0, col.frameWide := 0 }
    else h.foldStatic h.frm.lastLen
  let h := h.cutOffs
  let h := h.verdictStep
  let swaps := h.ctxs.any (fun (e : Nat × Ctx) => h.swapDue e.1 h.frm.fnum.toNat)
  let h := h.retime h.copyStaged
  let h := h.applySwaps
  let h := h.domainSwapStep
  let h := h.applyRuns
  let h := h.applyBinds
  let h := h.applyRemaps
  let stop := h.frm.stopPending || bits (h.actReg Reg.frmSrc) 0 3 = 0
  let h := { h with
    ctxRings := List.map (fun (e : Nat × Ring) => (e.1, tickWait e.2)) h.ctxRings
    ctxs := List.map (fun (e : Nat × Ctx) => (e.1, { e.2 with reset := e.2.reset.map ResetInfo.boundary })) h.ctxs }
  let h := h.lineBoundary first stop old
  let h := h.domainStep kind
  let h := h.leaveStep
  let h := h.sendResults
  let h := (h.pulseEvent 18).triggerAll 2 0
  if stop then
    let h := (h.stopTick).holdOutputs
    (h.enterState .ready).pass 96
  else
    let h := h.applyModuleState
    let h := h.publish first missed
    let h := if swaps && h.frm.fixedPlan then { h with frm.planAge := 0 } else h
    (h.pass 96).startJobs

end Sys2Proof.Machine
end

