-- ==== Sys2Proof/Machine/Power.lean ====
section
/-! DEFINITION. Power, boot, resets, Ember, trips, and the sensors and meters that feed them (22, 07 R201, R211, R217), and
whether the host's accesses reach the block (21 R572, R579, R583). -/

namespace Sys2Proof.Machine

/-! ### The host's accesses (R572, R579, R583, R591, R594, R598) -/

/-- Whether a function exists (R572). -/
def Hw.fnExists (h : Hw) (f : Nat) : Bool := f = 0 || (h.pci.vfEnable && f ≤ h.pci.numVfs)

/-- Whether accesses to a function's BARs arrive at all: the link is up and Memory Space Enable is 1 (R579). -/
def Hw.barOpen (h : Hw) (f : Nat) : Bool := h.pci.up && h.fnExists f && (h.func f).memSpace

/-- Whether a function's accesses are served: not before READY, and not from a hard reset to READY. -/
def Hw.served (h : Hw) (f : Nat) : Bool := h.barOpen f && h.sys.everReady

/-- Whether the PF's accesses to the SYS block are served: also in recovery (R594). -/
def Hw.sysServed (h : Hw) : Bool := h.served 0 || (h.barOpen 0 && h.sys.recovery)

/-- Between a hard reset and READY, reads of SYS_ID, SYS_STATE, SYS_RSTCAUSE and SYS_BOOT are served (R598). -/
def Hw.earlyRead (h : Hw) (off : Nat) : Bool :=
  h.barOpen 0 && !h.pci.crs && (off = 0 || off = 0x40 || off = 0x48 || off = 0x4C)

/-- A PF register write of the SYS block. -/
def Hw.viaSys (h : Hw) (f : Hw → Hw) : Hw := if h.sysServed then f h else h

/-- A PF register write. -/
def Hw.viaPf (h : Hw) (f : Hw → Hw) : Hw := if h.served 0 then f h else h

/-! ### Boot (R590 to R596) -/

def ms (n : Nat) : Nat := n * 1000000

/-- What survives any loss of power: flash, fuses, the seven-segment of the outside world. Maps, image slots, the rollback
counter, host memory and its answers, and what stands in the cages. -/
def Hw.powerOff (h : Hw) (s : ModState) : Hw :=
  { Hw.reset with
    now := h.now
    sys := { Hw.reset.sys with
      state := s, fuseFail := h.sys.fuseFail, slotA := h.sys.slotA, slotB := h.sys.slotB, activeB := h.sys.activeB
      rollback := h.sys.rollback, unpowered := h.sys.unpowered, powerGoodAt := h.now, booting := false
      cages := h.sys.cages }
    cpc := { Hw.reset.cpc with
      factory := h.cpc.factory, field := h.cpc.field, hbmUsed := h.cpc.hbmUsed }
    web.raw := h.web.raw
    web.enc := List.map (fun (e : Nat × Encoder) => (e.1, { e.2 with pos := 0 })) h.web.enc
    eth := List.map (fun (e : Nat × EthPort) => (e.1, { ({} : EthPort) with link := false, sent := e.2.sent })) h.eth
    pci.hostMem := h.pci.hostMem, pci.hostBad := h.pci.hostBad, pci.out := h.pci.out, pci.answer := h.pci.answer }

/-- A boot attempt whose rail sequencing or self-check fails (R595): the third leaves the module unpowered. -/
def Hw.bootFailed (h : Hw) (railsOk : Bool) : Hw :=
  let n := h.sys.attempts + 1
  { h with
    sys.attempts := n, sys.booting := false, sys.unpowered := decide (3 ≤ n), sys.bootErr := if railsOk then 5 else 6 }

/-- One attempt of Kindling. -/
def Hw.bootAttempt (h : Hw) (railsOk selfCheckOk : Bool) : Hw :=
  if railsOk && selfCheckOk then { h with sys.booting := true, sys.retries := h.sys.attempts } else h.bootFailed railsOk

/-- Power good (R590): from OFF, or when an unpowered module has been without input for 1 s. -/
def Hw.powerGood (h : Hw) (railsOk selfCheckOk : Bool) : Hw :=
  if !h.isState .off then h
  else
    let h := if h.sys.unpowered then h.advanceTo (h.sys.powerGoodAt + ms 1000) else h
    let h := { h.powerOff .kindling with now := 0, sys.powerGoodAt := 0, sys.unpowered := false }
    h.bootAttempt railsOk selfCheckOk

/-- Kindling tries again 1 s after a failure (R595). -/
def Hw.bootRetry (h : Hw) (railsOk selfCheckOk : Bool) : Hw :=
  if !h.isState .kindling || h.sys.booting || h.sys.attempts = 0 || h.sys.unpowered then h
  else
    let h := h.advanceTo (h.sys.powerGoodAt + ms 1000)
    { h with sys.powerGoodAt := h.now }.bootAttempt railsOk selfCheckOk

/-- Why Kindling refuses an image slot (R593, R610): 0 when it accepts it. -/
def Hw.slotErr (h : Hw) (s : FlashSlot) : Nat :=
  if !s.present || !s.authentic then 1 else if s.security < h.sys.rollback then 2 else 0

/-- Kindling chooses the image: the active slot, else the other, else recovery (R593, R594). -/
def Hw.chooseImage (h : Hw) : Hw :=
  let first := if h.sys.activeB then h.sys.slotB else h.sys.slotA
  let second := if h.sys.activeB then h.sys.slotA else h.sys.slotB
  if h.sys.fuseFail then { h with sys.recovery := true, sys.bootErr := 4 }
  else if h.slotErr first = 0 then
    { h with sys.bootSlot := h.sys.activeB, sys.fallback := false, sys.fwVersion := first.version }
  else if h.slotErr second = 0 then
    { h with sys.bootSlot := !h.sys.activeB, sys.fallback := true, sys.bootErr := h.slotErr first, sys.fwVersion := second.version }
  else { h with sys.recovery := true, sys.bootErr := 3 }

/-- 40 ms after power good or a hard reset the steward starts, the trips are armed and link training is enabled; the maps and
the image were taken before (R590, R593). -/
def Hw.stewardStart (h : Hw) : Hw :=
  if !h.isState .kindling || !h.sys.booting || h.sys.stewardOn || h.sys.recovery then h
  else
    let h := (h.advanceTo (h.sys.powerGoodAt + ms 40)).applyMaps.chooseImage
    { h with pci.trainOn := true, sys.stewardOn := !h.sys.recovery, sys.armedTrips := !h.sys.recovery }

/-- The module enters READY (R590, R596): every core and array tested, the BOOT and STATE entries logged; the rollback counter
follows the running image when its header asks (R593). -/
def Hw.stewardReady (h : Hw) (failing : List Nat) : Hw :=
  if !h.isState .kindling || !h.sys.stewardOn then h
  else
    let h := h.advanceTo (h.sys.powerGoodAt + (if h.sys.hardResets = 0 then ms 340 else ms 250))
    let h := h.fullTests failing
    let run := if h.sys.bootSlot then h.sys.slotB else h.sys.slotA
    let h := { h with
      sys.booting := false, sys.everReady := true, pci.crs := false
      sys.rollback := if run.advance then max h.sys.rollback run.security else h.sys.rollback }
    (h.stewardLog 1 h.sys.bootSlot.toNat h.sys.fwVersion).enterState .ready

/-! ### Resets (R597 to R600) -/

/-- The registers that a hard reset keeps: the PCI block and the sensor readings (R598). -/
def keptReg (k : Nat) : Bool := (0x30000 ≤ k && k < 0x40000) || (0xA100 ≤ k && k < 0xA200)

/-- What a hard reset leaves of a function: all of its PCI state; of the requests held, those of PF events (R598). -/
def Func.hardReset (f : Func) : Func :=
  { f with flr := false, held := f.held.filter (fun r => match r with | .event _ => true | _ => false) }

/-- A hard reset (R598): everything takes its reset value but what is named here; configuration requests are performed
throughout. -/
def Hw.hardReset (h : Hw) (cause : Nat) : Hw :=
  let h := { h with sys.rstCause := cause, sys.hardResets := (h.sys.hardResets + 1) % 65536 }
  let h := (h.stewardLog 5 cause (BitVec.ofNat 32 h.sys.hardResets)).enterState .kindling
  { Hw.reset with
    now := h.now
    regs := h.regs.filter (fun e => keptReg e.1)
    act := h.act.filter (fun e => keptReg e.1)
    mem := { Hw.reset.mem with cells := h.mem.cells, gran := h.mem.gran.filter (fun e => e.1 < coreBase) }
    sys := { Hw.reset.sys with
      state := .kindling, booting := true, fuseFail := h.sys.fuseFail, rstCause := h.sys.rstCause
      hardResets := h.sys.hardResets, bootSlot := h.sys.bootSlot, fallback := h.sys.fallback, bootErr := h.sys.bootErr
      retries := h.sys.retries, slotA := h.sys.slotA, slotB := h.sys.slotB, activeB := h.sys.activeB
      rollback := h.sys.rollback, log := h.sys.log, ctxSel := h.sys.ctxSel, supply := h.sys.supply
      supplySince := h.sys.supplySince, lossSince := h.sys.lossSince, hotSince := h.sys.hotSince
      powerGoodAt := h.now, cages := h.sys.cages }
    col := { Hw.reset.col with
      meters := h.col.meters, history := h.col.history, sampledAt := h.col.sampledAt, sensedAt := h.col.sensedAt
      hot := h.col.hot, hotIndex := h.col.hotIndex, hotRaw := h.col.hotRaw, plate := h.col.plate, samples := h.col.samples
      pstaticAt := h.now, atTick := h.col.meters }
    cpc := { Hw.reset.cpc with
      factory := h.cpc.factory, field := h.cpc.field, hbmUsed := h.cpc.hbmUsed }
    web := { Hw.reset.web with enc := h.web.enc, counting := h.web.counting, raw := h.web.raw, filtered := h.web.filtered }
    eth := List.map (fun (e : Nat × EthPort) => (e.1, { ({} : EthPort) with link := e.2.link, sent := e.2.sent })) h.eth
    ptp := { Hw.reset.ptp with time := h.ptp.time, timeFrac := h.ptp.timeFrac }
    pci := { h.pci with
      crs := false
      funcs := List.map (fun (e : Nat × Func) => (e.1, e.2.hardReset)) h.pci.funcs } }

/-- Input is lost (R597): the module is OFF at once. -/
def Hw.supplyLoss (h : Hw) : Hw :=
  if h.isState .off then h
  else
    let h := match h.sys.lossSince with | some t => h.advanceTo (t + ms 2) | none => h
    h.powerOff .off

/-- HARDARM arms for 1 ms; HARDRST without it is discarded (R597). `v` is the word written to SYS_CTL. -/
def Hw.sysCtl (h : Hw) (src : RegSrc) (v : Word) : Hw :=
  let armed := match h.sys.hardArm with | some t => decide (h.now ≤ t) | none => false
  let h := if bit v 0 && h.isState .tripped then { h with sys.acked := true } else h
  if bit v 9 && armed then h.hardReset 1
  else
    let h := if bit v 9 then h.regErr src true 3 (regBase + 0x44) else h
    if bit v 8 then { h with sys.hardArm := some (h.now + ms 1) } else h

def Hw.hardarmLapse (h : Hw) : Hw :=
  match h.sys.hardArm with
  | some t => { h.advanceTo (t + 1) with sys.hardArm := none }
  | none => h

/-! ### The recovery loader (R594, R608) -/

def Hw.rcvCtl (h : Hw) (src : RegSrc) (v : Word) : Hw :=
  let n := bits v 0 24
  if h.sys.fuseFail then h.regErr src true 3 (regBase + 0x58)
  else if n = 0 || 8388608 < n then h.regErr src true 2 (regBase + 0x58)
  else { h with sys.rcvLen := n, sys.rcvBytes := [], sys.rcvErr := false }

def Hw.rcvData (h : Hw) (src : RegSrc) (v : Word) : Hw :=
  let have_ := h.sys.rcvBytes.length
  if h.sys.rcvLen ≤ have_ then h.regErr src true 3 (regBase + 0x5C)
  else { h with sys.rcvBytes := h.sys.rcvBytes ++ (bytesOf 4 v.toNat).take (h.sys.rcvLen - have_) }

/-- The loader checks a complete image (R593, R594). -/
def Hw.rcvCheck (h : Hw) : Hw :=
  if !h.sys.recovery || h.sys.fuseFail || h.sys.rcvLen = 0 || h.sys.rcvErr || h.sys.rcvBytes.length ≠ h.sys.rcvLen then h
  else
    let x := Config.imageFacts h.sys.rcvBytes
    if x.authentic && h.sys.rollback ≤ x.security then
      { h with sys.slotA := ⟨true, true, x.security, x.advance, x.version⟩, sys.activeB := false }.hardReset 4
    else { h with sys.rcvErr := true }

/-! ### Cameras, DMA and diagnostic runs stop together (R601, R604, 24 R642) -/

/-- PoCXP goes off and every camera link drops; groups keep their owners (R601, R604, 19 R511). -/
def Hw.camerasOff (h : Hw) : Hw :=
  let h := { h with cxp.ports := List.map (fun (e : Nat × CamPort) =>
    (e.1, { e.2 with powered := false, link := false, line := none })) h.cxp.ports }
  (List.range 8).foldl (fun (h : Hw) n => if (h.port n).master then h.setRegBit (Reg.cxpEvt n) 0 else h) h

/-- DMA channels stop as under DMA_STOP (15 R424). -/
def Hw.dmaOff (h : Hw) : Hw :=
  (List.range 128).foldl (fun (h : Hw) n =>
    let c := h.dmaChan n
    if c.state.busy then h.setDmaChan n c.stopped else h) h

/-- Every diagnostic run halts; FTC_DBGPCc holds the next bundle (24 R642). -/
def Hw.diagOff (h : Hw) : Hw :=
  h.mapCores (fun c => if c.run = .diag then { c with run := .none, halted := true, dbgPc := c.pc, slots := [], stall := none, vrun := none } else c)

/-- Every unit that can be gated is gated. -/
def Hw.gateAll (h : Hw) : Hw := { h with col.gated := List.range 22, col.waking := [] }

/-! ### Trips (R603 to R605, 07 R211) -/

/-- The packets of MODULE_STATE that a trip abandons. -/
def Hw.abortEmber (h : Hw) : Hw :=
  h.execs.foldl (fun (h : Hw) (x : RingId × Exec) =>
    if x.2.waits = .emberEntry || x.2.waits = .emberExit then h.reply x.1 x.2.packet Status.aborted [] else h) h

/-- A trip by cause `i` (0 thermal, 1 power, 2 supply), with the facts of its log entry (R604, R605). -/
def Hw.trip (h : Hw) (i : Nat) (data : Word) : Hw :=
  if h.isState .tripped then
    if bit h.sys.tripCause i then h
    else { h with sys.tripCause := setBit h.sys.tripCause i true, sys.clearSince := setAt h.sys.clearSince i none }
  else if h.isState .kindling || h.isState .off then h
  else
    let h := h.abortEmber
    let h := (h.stopRuns (fun _ _ => true)).hw
    let src := h.actReg Reg.frmSrc
    let h := h.stopTick
    let h := { h with
      act := Tbl.set (Reg.resetValue Reg.frmSrc) h.act Reg.frmSrc (setBits src 0 3 0)
      ctxs := List.map (fun (e : Nat × Ctx) => (e.1, { e.2 with swap := none })) h.ctxs
      wml.swap := none, web.posts := [], web.results := [], web.owed := [] }
    let h := h.answerDomainSwap Status.swapAborted 0
    let h := ((h.dmaOff).camerasOff.diagOff).gateAll
    let h := { h with win.chans := List.map (fun (e : Nat × LineChan) => (e.1, { e.2 with
      running := false, reload := false, fifo := [], window := [], closing := none })) h.win.chans }
    let h := { h with sys.tripCause := setBit 0 i true, sys.acked := false, sys.clearSince := [none, none, none] }
    let h := (h.pciEvent 1).stewardLog 3 (i + 1) data
    (h.enterState .tripped).holdOutputs

/-- When a trip's filter began: when its condition arose, or when the trip was armed (R603). -/
def Hw.filterFrom (h : Hw) (since armDelay : Nat) : Nat := max since (h.sys.powerGoodAt + armDelay)

/-- Whether a trip may act in the present state. -/
def Hw.canTrip (h : Hw) : Bool := !h.isState .kindling && !h.isState .off

def Hw.thermalTrip (h : Hw) : Hw :=
  match h.sys.hotSince with
  | some t =>
    if h.sys.armedTrips && h.canTrip then
      let h := (h.advanceTo (h.filterFrom t (ms 40) + ms 1)).setRegBit Reg.thmStat 1
      h.trip 0 (BitVec.ofNat 32 (h.col.hotRaw.getD 0 + h.col.hotIndex * 65536))
    else h
  | none => h

/-- The sum of the 24 meters averaged over the last 1 ms, in mW (R211): the sum of 10,000 samples in nJ. -/
def Hw.powerMean (h : Hw) : Nat := (h.col.history.take 10000).sum / 1000

def Hw.powerTrip (h : Hw) : Hw :=
  if h.sys.armedTrips && h.canTrip && bits (h.reg Reg.pwrTriplvl) 0 18 < h.powerMean then
    let h := (h.advanceTo (h.sys.powerGoodAt + ms 41)).setRegBit Reg.pwrStat 0
    h.trip 1 (BitVec.ofNat 32 h.powerMean)
  else h

def Hw.supplyTrip (h : Hw) : Hw :=
  match h.sys.supplySince with
  | some t =>
    if h.canTrip then
      let h := h.advanceTo (h.filterFrom t 0 + 100000)
      h.trip 2 (h.sys.supply.setWidth 32)
    else h
  | none => h

/-- When the last cause of the trip has been absent for 1 s, if all are absent (R605). -/
def Hw.clearAt (h : Hw) : Option Nat :=
  let causes := (List.range 3).filter (bit h.sys.tripCause ·)
  causes.foldl (fun (a : Option Nat) i =>
    match a, nth none h.sys.clearSince i with
    | some x, some t => some (max x (t + ms 1000))
    | _, _ => none) (some 0)

def Hw.tripClear (h : Hw) : Hw :=
  match h.clearAt with
  | some t =>
    if h.isState .tripped && h.sys.acked then
      let h := { h.advanceTo t with sys.tripCause := 0, sys.acked := false }
      (h.stewardLog 4 0 0).enterState .ready
    else h
  | none => h

/-! ### Sensors and meters (07 R201, R217) -/

/-- Since when a condition holds. -/
def sinceWhen (was : Option Nat) (holds : Bool) (now : Nat) : Option Nat := if holds then some (was.getD now) else none

/-- The mean of a sensor's last 16 samples, rounded down (R217). -/
def sensorMean (l : List (BitVec 16)) : Int := (l.map (fun x => signed 16 x.toNat)).sum / max 1 l.length

/-- The hottest of the sensors by their means: the lowest index of them. -/
def hottest (ss : List (List (BitVec 16))) : Nat :=
  (List.zip (List.range ss.length) (ss.map sensorMean)).foldl (fun (b : Nat × Int) x => if b.2 < x.2 then x else b)
    (0, sensorMean (nth [] ss 0)) |>.1

/-- The trip causes that are absent now (R605). -/
def Hw.causeAbsent (h : Hw) : List Bool :=
  [decide (signed 16 h.col.hot.toNat ≤ (bits (h.actReg Reg.thmTgt) 0 16 : Int)),
   decide (h.powerMean ≤ bits (h.reg Reg.pwrTriplvl) 0 18),
   decide (18000 ≤ h.sys.supply.toNat ∧ h.sys.supply.toNat ≤ 32000)]

/-- Follows since when each cause has been absent. -/
def Hw.followCauses (h : Hw) : Hw :=
  { h with sys.clearSince := List.zipWith (fun was ok => sinceWhen was ok h.now) h.sys.clearSince h.causeAbsent }

/-- One sample of the sensors (R217, R603). -/
def Hw.sensorSample (h : Hw) (t : SensorReading) : Hw :=
  let h := h.advanceTo (h.col.sensedAt + 100)
  let new := (List.range 64).map (fun i => (nth 0 t.sensors i :: nth [] h.col.samples i).take 16)
  let i := hottest new
  let raw := nth 0 t.sensors i
  let hot := sensorMean (nth [] new i)
  let regs := (List.range 64).foldl (fun (h : Hw) n => h.setReg (Reg.thmSens n) ((nth 0 t.sensors n).setWidth 32)) h
  let h := { regs with
    col.sensedAt := h.now, col.samples := new, col.hot := BitVec.ofInt 16 hot, col.hotIndex := i
    col.hotRaw := some raw.toNat, col.plate := t.plate, sys.supply := t.supply
    sys.hotSince := sinceWhen h.sys.hotSince (decide ((bits (h.reg Reg.thmTrip) 0 16 : Int) < signed 16 raw.toNat)) h.now
    sys.supplySince := sinceWhen h.sys.supplySince (decide (t.supply.toNat < 18000 ∨ 32000 < t.supply.toNat)) h.now
    sys.lossSince := sinceWhen h.sys.lossSince (decide (t.supply.toNat < 16000)) h.now }
  let h := if (bits (h.actReg Reg.thmTgt) 0 16 : Int) ≤ hot then h.setRegBit Reg.thmStat 0 else h
  h.followCauses

/-- Energy goes to a job. -/
def Hw.attribute (h : Hw) (key nj : Nat) : Hw :=
  if nj = 0 then h
  else { h with
    col.jobEnergy := Tbl.set 0 h.col.jobEnergy key (Tbl.get 0 h.col.jobEnergy key + nj)
    col.frameJobs := h.col.frameJobs + nj }

/-- The energy of an array goes to its command's job, or to the wide run (R201, 13 R365). -/
def Hw.attributeArray (h : Hw) (a nj : Nat) : Hw :=
  match (h.array a).run with
  | some r =>
    if r.phase = .wide then { h with wspent := h.wspent + BitVec.ofNat 64 nj, col.frameWide := h.col.frameWide + nj }
    else if h.col.waking.contains (18 + a) then h
    else h.attribute (jobKey r.cmd.slot r.cmd.job) nj
  | none => h

/-- Energy shared in proportion to a count of each job (R201), rounded down. -/
def Hw.attributeShares (h : Hw) (shares : List (Nat × Nat)) (nj : Nat) : Hw :=
  let total := (shares.map (·.2)).sum
  if total = 0 then h else shares.foldl (fun (h : Hw) s => h.attribute s.1 (nj * s.2 / total)) h

/-- One completed sample of the meters (R201). -/
def Hw.meterSample (h : Hw) (m : MeterReading) : Hw :=
  let h := h.advanceTo (h.col.sampledAt + 100)
  let e (i : Nat) : Nat := nth 0 m.energy i
  let h := { h with
    col.sampledAt := h.now
    col.meters := (List.range 24).map (fun i => nth 0 h.col.meters i + e i)
    col.history := (((List.range 24).map e).sum :: h.col.history).take 10000 }
  let h := (List.range 18).foldl (fun (h : Hw) c =>
    let k := h.core c
    if k.run = .job && !h.col.waking.contains c then h.attribute (jobKey k.slot k.job) (e c) else h) h
  let h := (List.range 4).foldl (fun (h : Hw) a => h.attributeArray a (e (18 + a))) h
  let h := h.attributeShares m.lines (e 22)
  (h.attributeShares m.requests (e 23 - m.baseline)).followCauses

/-! ### Ember (R601, R602) -/

/-- The packet that waits for a kind of event, with its ring. -/
def Hw.findExec (h : Hw) (w : Waiting) : Option (RingId × Packet) :=
  (h.execs.find? (fun x => x.2.waits = w)).map (fun x => (x.1, x.2.packet))

/-- Ember entry completes (R601). -/
def Hw.emberEntry (h : Hw) : Hw :=
  match h.findExec .emberEntry with
  | none => h
  | some (r, p) =>
    if !h.isState .ready || h.frm.running then h.reply r p Status.aborted []
    else
      let h := ((h.dmaOff).camerasOff.diagOff).gateAll
      let h := if h.wml.joined then { h with wml.leaving := true }.leaveStep else h
      (h.enterState .ember).reply r p Status.ok []

/-- Ember exit completes (R602): a full test of every core and array, then READY. -/
def Hw.emberExit (h : Hw) (failing : List Nat) : Hw :=
  match h.findExec .emberExit with
  | none => h
  | some (r, p) => ((h.fullTests failing).enterState .ready).reply r p Status.ok []

end Sys2Proof.Machine
end

