-- ==== Sys2Proof/Machine/Frame.lean ====
section
/-! DEFINITION. The commands of the frame logic, of encoders and inputs, and of Collier's tail (02, 07 R205, R206, 19 R520 to
R523). A command whose event cannot occur in the present state leaves it unchanged; a command of a known time first moves
the clock there (log entries 8 and 9). -/

namespace Sys2Proof.Machine

/-! ### When ticks come -/

/-- The time of the stall tick of the present frame, or of the wait for the first tick (R33, R37). A DOMAIN source has none until
its first domain tick (R33, At the edges). -/
def Hw.stallAt (h : Hw) : Option Nat :=
  if !h.frm.running then none
  else if (h.frm.waiting || !h.frm.domainSeen) && bits (h.actReg Reg.frmSrc) 0 3 = 6 then none
  else some (h.frm.countFrom + bits (h.actReg Reg.frmMaxp) 0 30)

/-- Whether a time comes no later than the stall tick. -/
def Hw.beforeStall (h : Hw) (t : Nat) : Bool := match h.stallAt with | some s => decide (t ≤ s) | none => true

/-- The period, the phase and the next expiry of a TIMER source (R29): from the last tick, or for a domain's leader from the
link time of its last event (20 R555). -/
def Hw.timerDue (h : Hw) (s : TickSource) : Nat :=
  if s.leads then
    let period := bits (h.dcfg 2) 0 30
    match h.wml.lastFire with
    | some f => h.now + (f.toNat + period - h.wml.dlat - h.wml.ltime.toNat)
    | none => h.frm.countFrom + period
  else h.frm.countFrom + bits (h.actReg Reg.frmPeriod) 0 30

def Hw.timerExpiry (h : Hw) : Hw :=
  let s := h.tickSource
  let t := h.timerDue s
  if h.frm.running && s.sel = 4 && h.frm.due.isNone && h.wml.sourceEvent.isNone && (s.leads || h.beforeStall t) then
    (h.advanceTo t).tickEvent s 0
  else h

/-- Fabric cycles until module time satisfies the phase condition (R29, At the edges). -/
def Hw.phaseWait (h : Hw) (period phase : Nat) : Nat :=
  if period = 0 then 0
  else
    let d := (phase % period + period - h.ptp.time.toNat % period) % period
    let d := if d = 0 && h.frm.ticked && h.frm.lastTick = h.now then period else d
    (((d : Int) * 1000000000 + (1000000000 + h.ptp.freq) - 1) / (1000000000 + h.ptp.freq)).toNat

def Hw.phaseMatch (h : Hw) : Hw :=
  let s := h.tickSource
  let w := if s.leads then h.phaseWait (bits (h.dcfg 2) 0 30) (bits (h.dcfg 3) 0 30)
    else h.phaseWait (bits (h.actReg Reg.frmPeriod) 0 30) (bits (h.actReg Reg.frmPhase) 0 30)
  if h.frm.running && s.sel = 3 && h.frm.due.isNone && h.wml.sourceEvent.isNone && (s.leads || h.beforeStall (h.now + w)) then
    (h.advanceTo (h.now + w)).tickEvent s 0
  else h

def Hw.stallTick (h : Hw) : Hw :=
  match h.stallAt with
  | none => h
  | some t =>
    let first : Bool := match h.frm.due with | some d => decide (t < d.2) | none => true
    if first then
      let h := (h.advanceTo t).setRegBit Reg.frmStat 1
      { h with frm.due := some (.stall, t), frm.after := none, frm.lastLines := h.frm.lines.toNat, frm.lines := 0 }
    else h

/-- A tick generated while the domain is lost (R38). -/
def Hw.srcLostTick (h : Hw) : Hw :=
  if h.ticksRun && bits (h.actReg Reg.frmSrc) 0 3 = 6 && h.frm.domainSeen && h.frm.due.isNone then
    let len := h.frm.lost.getD h.frm.lastLen
    let t := h.frm.lastTick + (if h.frm.lost.isSome then len else 2 * len)
    if h.beforeStall t then
      let h := (h.advanceTo t).setRegBit Reg.frmStat 2
      { h with frm.due := some (.srcLost, t), frm.lost := some len, wml.unsync := true }
    else h
  else h

/-- The tick that is due falls, unless the stall tick comes first (R37, R41). -/
def Hw.tick (h : Hw) : Hw :=
  match h.frm.due with
  | none => h
  | some d => if d.1 = .stall || h.beforeStall d.2 then (h.advanceTo d.2).boundary d.1 else h

/-! ### START and STOP (R33, R35) -/

/-- The staged frame settings are taken and the tick runs (R33); diagnostic runs halt (24 R642). -/
def Hw.startTick (h : Hw) : Hw :=
  let take (h : Hw) (r : Nat) : Hw := { h with act := Tbl.set (Reg.resetValue r) h.act r (h.reg r) }
  let h := [Reg.frmSrc, Reg.frmFl, Reg.frmPeriod, Reg.frmPhase, Reg.frmMaxp].foldl take h.diagOff
  { h with
    frm.running := true, frm.waiting := true, frm.stopPending := false, frm.due := none, frm.after := none, frm.lines := 0
    frm.countFrom := h.now, frm.domainSeen := false, frm.lost := none }

/-- Whether START is accepted (R33). -/
def Hw.canStart (h : Hw) : Bool := !h.frm.running && bits (h.reg Reg.frmSrc) 0 3 ≠ 0 && h.isState .ready

/-- STOP: at the next boundary while ticks run, at once before the first tick (R35). -/
def Hw.stopRequest (h : Hw) : Hw := if h.frm.waiting then h.stopTick else { h with frm.stopPending := true }

def frmCtlAddr : Nat := regBase + 0x1000

def Hw.frmStart (h : Hw) : Hw := if h.canStart then h.startTick else h.regErr .pf true 3 frmCtlAddr

def Hw.frmStop (h : Hw) : Hw := if h.frm.running then h.stopRequest else h.regErr .pf true 3 frmCtlAddr

/-! ### The frame tail (R47, 07 R206) -/

/-- The predicted time of the next tick (R47): from the last measured length, for encoders the lines still missing at the last
frame's rate, and FRM_MAXP with nothing to predict from. -/
def Hw.predictedTick (h : Hw) : Nat :=
  let s := h.tickSource
  let byLength := h.frm.lastTick + (if h.frm.lastLen = 0 then bits (h.actReg Reg.frmMaxp) 0 30 else h.frm.lastLen)
  let p := match h.frm.due with
    | some d => d.2
    | none =>
      if s.leads then byLength
      else if (s.sel = 1 ∨ s.sel = 2) ∧ 0 < h.frm.lastLines then
        h.now + h.frm.lastLen * (s.fl - h.frm.lines).toNat / h.frm.lastLines
      else if s.sel = 4 then h.timerDue s
      else if s.sel = 3 then h.now + h.phaseWait (bits (h.actReg Reg.frmPeriod) 0 30) (bits (h.actReg Reg.frmPhase) 0 30)
      else byLength
  let p := max p (h.frm.lastTick + 1500)
  match h.stallAt with
  | some t => min p t
  | none => p

/-- Swaps whose boundary is the next are committed when the tail begins (04 R124). -/
def Hw.commitSwaps (h : Hw) : Hw :=
  { h with ctxs := List.map (fun (e : Nat × Ctx) =>
      (e.1, { e.2 with swap := e.2.swap.map (fun (w : Swap) => if w.target = h.nextFrame then { w with committed := true } else w) })) h.ctxs }

def Hw.frameTail (h : Hw) : Hw :=
  if h.ticksRun && !h.frm.tailBegun then
    let h := h.advanceTo (h.predictedTick - 400)
    let h := ({ h with frm.tailBegun := true }.markTail).pulseEvent 19
    let h := h.commitSwaps
    if h.admitsNow then
      let r := h.admitJobs
      { r.1 with col.next := some r.2 }
    else h
  else h

/-- While no ticks run, COL_PSTATIC is folded every 1,000,000 ns (07 R197). -/
def Hw.staticIdle (h : Hw) : Hw :=
  if h.ticksRun then h
  else
    let fen := h.col.fen
    let h := h.advanceTo (h.col.pstaticAt + 1000000)
    { { h with col.frameJobs := 0 }.foldStatic 1000000 with col.fen := fen }

/-- A unit that admission woke is ready (07 R205). -/
def Hw.wakeReady (h : Hw) (u : Nat) : Hw :=
  if h.col.waking.contains u then
    let ns := if u < 18 then (48000 + fintoicMhz h.col.point - 1) / fintoicMhz h.col.point else 256
    let h := h.advanceTo (h.frm.lastTick + 96 + ns)
    { h with col.waking := h.col.waking.filter (· ≠ u) }
  else h

/-! ### Encoders and inputs -/

/-- A valid quadrature edge (R520, R521). -/
def Hw.encoderEdge (h : Hw) (e : Nat) (a b : Bool) : Hw :=
  let x := h.encoder e
  let h' := h.setEncoder e { x with a := a, b := b, edgeAt := h.now }
  if !h.web.counting then h'
  else if a ≠ x.a && b ≠ x.b then (h'.bump (Reg.webEncerr e) 1).setRegBit (Reg.webEncstat e) 0
  else
    let cfg := h.actReg (Reg.webEnccfg e)
    let n := edgeCount (bits cfg 0 2) x.a x.b a b
    if n = 0 then h' else h'.count e (if bit cfg 2 then -n else n)

/-- A filtered edge of an isolated input (R523). -/
def Hw.inputEdge (h : Hw) (i : Nat) (level : Bool) : Hw :=
  if bit h.web.filtered i = level then h
  else
    let h := { h with web.filtered := setBit h.web.filtered i level, web.raw := setBit h.web.raw i level }
    if !h.inputsAct then h
    else
      let h := if level then h.lineRise (20 + i) else h.lineFall (20 + i)
      let h := if level then h.triggerAll 3 i else h
      let s := h.tickSource
      if h.frm.running && s.sel = 5 && s.insel = i && (s.falling ≠ level) then h.tickEvent s 40 else h

end Sys2Proof.Machine
end

