-- ==== Sys2Proof/Machine/Doors.lean ====
section
/-! DEFINITION. Registers whose write acts: command tails and completion heads, the function ring's control, the SYN window of a
doorbell page, mailbox endpoints, pass submission and verdict posts (03 R62 to R70, R84 to R87, 16 R444 to R461, 14 R375,
19 R524). Each takes the source of the access for the register error it may record. -/

namespace Sys2Proof.Machine

/-! ### Command rings -/

/-- A tail write (R62). -/
def Ring.tailWrite (r : Ring) (v : Nat) : Ring :=
  let s := r.sqSize
  if s ≤ v || (v + s - r.sqHead) % s < r.published then { r with tailErr := true } else { r with sqTail := v }

/-- A completion-head write (R64). -/
def Ring.cheadWrite (r : Ring) (v : Nat) : Ring :=
  let s := r.cqSize
  if s ≤ v || r.unread < (v + s - r.cqHead) % s then { r with cheadErr := true } else { r with cqHead := v }

/-- A write of CMD_FCTL (R85). -/
def Ring.fctlWrite (r : Ring) (v : Word) : Ring :=
  let r := { r with intAll := bit v 1 }
  if !bit v 0 then { r with live := false }
  else if r.live then r
  else { r with
    live := true, sqHead := 0, sqTail := 0, cqHead := 0, cqTail := 0, phase := true, seq := r.startSeq }

/-- The W1C bits of CMD_FSTAT and CMD_RSTAT (R86). -/
def Ring.statClear (r : Ring) (v : Word) : Ring :=
  { r with tailErr := r.tailErr && !bit v 0, cheadErr := r.cheadErr && !bit v 1, fetchErr := r.fetchErr && !bit v 2 }

def Ring.stat (r : Ring) : Nat :=
  r.tailErr.toNat + 2 * r.cheadErr.toNat + 4 * r.fetchErr.toNat + 8 * (r.live && r.cqFull).toNat + 16 * r.exec.isSome.toNat

/-- A tail or completion-head write to a function ring: discarded while it is disabled (R84). -/
def Hw.fnPosition (h : Hw) (src : RegSrc) (f : Fin 32) (addr : Nat) (g : Ring → Ring) : Hw :=
  if (h.ring (.fn f)).live then h.modRing (.fn f) g else h.regErr src true 3 addr

/-- A parameter write to a function ring: discarded while it is enabled (R84). -/
def Hw.fnParam (h : Hw) (src : RegSrc) (f : Fin 32) (addr : Nat) (g : Ring → Ring) : Hw :=
  if (h.ring (.fn f)).live then h.regErr src true 3 addr else h.modRing (.fn f) g

/-- The low half that a 64-bit write of a source uses (R11): the one it wrote last, else `own`. -/
def Hw.lowHeld (h : Hw) (src : RegSrc) (off : Nat) (own : Word) : Word :=
  (Tbl.find h.helds (Reg.ofCtx (srcIndex src) off)).getD own

/-- A source writes a low half (R11). -/
def Hw.holdLow (h : Hw) (src : RegSrc) (off : Nat) (v : Word) : Hw :=
  { h with helds := Tbl.put h.helds (Reg.ofCtx (srcIndex src) off) v }

/-- A write to a CMD register of a function's own ring at offset `o` (R84, R85); `addr` is the recorded address and `key` the
register's offset for the held low half. -/
def Hw.cmdWrite (h : Hw) (src : RegSrc) (f : Fin 32) (o addr key : Nat) (v : Word) : Hw :=
  let r := h.ring (.fn f)
  match o with
  | 0x00 => h.modRing (.fn f) (·.fctlWrite v)
  | 0x04 =>
    let sq := bits v 0 5
    let cq := bits v 8 5
    if r.live then h.regErr src true 3 addr
    else if sq < 4 || 16 < sq || cq < 4 || 16 < cq then h.regErr src true 2 addr
    else h.modRing (.fn f) (fun r => { r with sqLog := sq, cqLog := cq })
  | 0x08 => h.holdLow src key v
  | 0x0C => h.fnParam src f addr (fun r => { r with sqBase := dword (h.lowHeld src (key - 4) (lowHalf r.sqBase)) v &&& ~~~0xFFF })
  | 0x10 => h.holdLow src key v
  | 0x14 => h.fnParam src f addr (fun r => { r with cqBase := dword (h.lowHeld src (key - 4) (lowHalf r.cqBase)) v &&& ~~~0xFFF })
  | 0x18 => if 64 ≤ bits v 0 11 then h.regErr src true 2 addr else h.modRing (.fn f) (fun r => { r with vec := bits v 0 11 })
  | 0x1C => h.fnParam src f addr (fun r => { r with startSeq := v })
  | 0x20 => h.fnPosition src f addr (·.tailWrite (bits v 0 16))
  | 0x24 => h.fnPosition src f addr (·.cheadWrite (bits v 0 16))
  | 0x2C => h.modRing (.fn f) (·.statClear v)
  | _ => h

/-! ### A context's doorbell page (R87, R444) -/

/-- Whether a function's page serves a context (R83): the slot is in use and the function owns it. -/
def Hw.pageOpen (h : Hw) (f slot : Nat) : Bool := (h.ctx slot).state ≠ .free && (h.ctx slot).owner = f

/-- A SIGNAL write (R444, R455). -/
def Hw.pageSignal (h : Hw) (src : RegSrc) (slot addr : Nat) (v : Word) : Hw :=
  if bits v 14 2 ≠ 0 then h.regErr src true 2 addr
  else if h.isState .ember then h.regErr src true 3 addr
  else if (h.ctx slot).state = .resetting then h.synRefuse ⟨slot, 1⟩ (bits v 0 14) false
  else h.signal ⟨slot, 1⟩ (bits v 0 14) (BitVec.ofNat 64 (bits v 16 16))

/-- A write to page `slot` by an agent of function `f`. -/
def Hw.pageWrite (h : Hw) (src : RegSrc) (f : Nat) (slot : Fin 256) (o addr : Nat) (v : Word) : Hw :=
  if !h.pageOpen f slot then h
  else
    match o with
    | 0x00 => h.modRing (.ctx slot) (·.tailWrite (bits v 0 16))
    | 0x04 => h.modRing (.ctx slot) (·.cheadWrite (bits v 0 16))
    | 0x14 => h.modRing (.ctx slot) (·.statClear v)
    | 0x100 => h.pageSignal src slot addr v
    | 0x104 => h.modCtx slot (fun c => { c with vbase := BitVec.ofNat 14 v.toNat })
    | _ => h

/-- What page `slot` shows at offset `o`: a word, or a 64-bit counter view. -/
def Hw.pageView (h : Hw) (slot : Fin 256) (o : Nat) : Word ⊕ (Nat × Dword) :=
  let r := h.ring (.ctx slot)
  let c := h.ctx slot
  if 0x200 ≤ o then
    let n := (c.vbase.toNat + (o - 0x200) / 8) % 16384
    .inr (o / 8 * 8, if c.state ≠ .resetting && h.mayUse slot n then (h.counter n).value else 0)
  else
    .inl (match o with
      | 0x10 => BitVec.ofNat 32 r.sqHead
      | 0x14 => BitVec.ofNat 32 r.stat
      | 0x18 => r.seq
      | 0x104 => c.vbase.setWidth 32
      | _ => 0)

/-! ### SYN_CTL (R456, R457) -/

/-- SYN_CTL of a counter. -/
def Hw.synCtlValue (h : Hw) (n : Nat) : Word :=
  let c := h.counter n
  match c.state with
  | .free => BitVec.ofNat 32 c.remote.toNat
  | .owned => BitVec.ofNat 32 (c.remote.toNat + 2 + c.slot * 256 + (h.ctx c.slot).owner * 65536)
  | .frozen => BitVec.ofNat 32 (c.remote.toNat + 4 + c.slot * 256 + (h.ctx c.slot).owner * 65536)

/-- A write of SYN_CTL: only the owning context's agents write it. -/
def Hw.synCtlWrite (h : Hw) (src : RegSrc) (n addr : Nat) (v : Word) : Hw :=
  let c := h.counter n
  if srcCode src = 3 && c.state = .owned && c.slot = h.slotOf src then h.setCounter n { c with remote := bit v 0 }
  else h.regErr src true 4 addr

/-! ### Mailbox endpoints (R446 to R453, R459 to R461) -/

/-- A send (R447). -/
def Hw.mbxSend (h : Hw) (n d : Nat) (v : Word) : Hw :=
  let ch := h.channel n
  if Tbl.get 0 ch.sstate d = 1 then h.setChannel n { ch with srefused := ch.srefused ||| (1 <<< d) }
  else h.setChannel n { ch with
    sstate := Tbl.set 0 ch.sstate d 1
    flight := ch.flight ++ [(d, Tbl.get 0 ch.sptr d, v)] }

/-- The receiver takes the notices of the DB bits written as 1 (R449). -/
def Hw.mbxTake (h : Hw) (n : Nat) (v : Word) : Hw :=
  let ch := h.channel n
  let slots := (List.range 32).filter (fun d => bit v d && bit ch.db d)
  let live := if ch.sender.isSome then slots.filter (fun d => !bit ch.stale d) else []
  let h := h.setChannel n { ch with
    db := ch.db &&& ~~~v, stale := ch.stale &&& ~~~(v &&& ch.db)
    sstate := live.foldl (fun t d => Tbl.set 0 t d 2) ch.sstate }
  live.foldl (fun (h : Hw) _ => h.mbxSignal ch.sender ch.ssig) h

/-- A write of MASK in doorbell mode; unmasking a waiting doorbell raises MBX (R450, R451). -/
def Hw.mbxMask (h : Hw) (n : Nat) (v : Word) : Hw :=
  let ch := h.channel n
  if ch.poll then h
  else
    let new := { ch with mask := v }
    let h := h.setChannel n new
    if (ch.mask &&& ~~~v &&& ch.db) ≠ 0 then h.raiseRoute new else h

/-- A write to a sender endpoint. -/
def Hw.senderWrite (h : Hw) (n o : Nat) (v : Word) : Hw :=
  let ch := h.channel n
  let d := o / 16
  if o < 0x200 then
    match o % 16 with
    | 0 => h.setChannel n { ch with sptr := Tbl.set 0 ch.sptr d (dword v (highHalf (Tbl.get 0 ch.sptr d))) }
    | 4 => h.setChannel n { ch with sptr := Tbl.set 0 ch.sptr d (dword (lowHalf (Tbl.get 0 ch.sptr d)) v) }
    | 8 => h.mbxSend n d v
    | _ => h
  else
    match o with
    | 0x208 => h.setChannel n { ch with srefused := ch.srefused &&& ~~~v }
    | 0x20C => h.setChannel n { ch with ssig := v &&& 0x80003FFF }
    | _ => h

/-- A write to a receiver endpoint. -/
def Hw.receiverWrite (h : Hw) (n o : Nat) (v : Word) : Hw :=
  match o with
  | 0x200 => h.mbxTake n v
  | 0x204 => h.mbxMask n v
  | 0x208 => h.modChannel n (fun ch => { ch with route := v &&& 0xFFF })
  | 0x20C => h.modChannel n (fun ch => { ch with rsig := v &&& 0x80003FFF })
  | _ => h

/-- Sender states of a channel as SSTAT shows them (R459). -/
def Channel.sstat (ch : Channel) : Dword :=
  BitVec.ofNat 64 ((List.range 32).foldl (fun a d => a + Tbl.get 0 ch.sstate d * 4 ^ d) 0)

/-- What a sender endpoint shows. -/
def Channel.senderView (ch : Channel) (o : Nat) : Word ⊕ (Nat × Dword) :=
  let p := Tbl.get 0 ch.sptr (o / 16)
  if o < 0x200 then .inl (match o % 16 with | 0 => lowHalf p | 4 => highHalf p | _ => 0)
  else if o < 0x208 then .inr (0x200, ch.sstat)
  else .inl (match o with | 0x208 => ch.srefused | 0x20C => ch.ssig | _ => 0)

/-- What a receiver endpoint shows. -/
def Channel.receiverView (ch : Channel) (o : Nat) : Word ⊕ (Nat × Dword) :=
  let d := o / 16
  if o < 0x200 then
    if o % 16 < 8 then .inr (o / 16 * 16, Tbl.get 0 ch.rptr d)
    else .inl (if o % 16 = 8 then Tbl.get 0 ch.rword d else 0)
  else .inl (match o with
    | 0x200 => ch.db
    | 0x204 => if ch.poll then 0 else ch.mask
    | 0x208 => ch.route
    | 0x20C => ch.rsig
    | 0x210 => BitVec.ofNat 32 (ch.poll.toNat + (ch.sender.getD 0) * 256 + ch.sender.isSome.toNat * 65536)
    | _ => 0)

/-- The outcome of the mailbox block's check of an access (R446, R453): refused, a security fault, or let in. -/
inductive MbxGate where
  | grant
  | deny
  | fault
deriving DecidableEq, Repr

def Hw.mbxGate (h : Hw) (src : RegSrc) (n : Nat) (recv : Bool) : MbxGate :=
  match src with
  | .core c =>
    let k := h.core c
    let ch := h.channel n
    if k.run ≠ .job then .deny
    else if 32 ≤ n && !(h.ctx k.slot).secure then .fault
    else if (if recv then ch.receiver else ch.sender) = some k.slot then .grant
    else .deny
  | _ => .deny

/-- The physical core of a source (R453). -/
def srcUnit : RegSrc → Nat
  | .core c => c
  | _ => 0

/-- A mailbox access that is not let in (R446, R453). -/
def Hw.mbxRefuse (h : Hw) (src : RegSrc) (write : Bool) (addr : Nat) : MbxGate → Hw
  | .fault => h.ctxFault (h.slotOf src) 7 0 (srcUnit src) addr
  | _ => (h.regErr src write 4 addr).bump Reg.mbxDeny 1

/-- A write to mailbox space, `o` from its base (R446). -/
def Hw.mbxWrite (h : Hw) (src : RegSrc) (o : Nat) (v : Word) : Hw :=
  let n := o / 0x1000
  let recv := 0x800 ≤ o % 0x1000
  match h.mbxGate src n recv with
  | .grant => if recv then h.receiverWrite n (o % 0x800) v else h.senderWrite n (o % 0x800) v
  | g => h.mbxRefuse src true (mbxBase + o) g

/-! ### Submitting passes (14 R375) -/

/-- A pass engine's refusal record (R378). -/
def Hw.winRecord (h : Hw) (e : Engine) (slot reason va : Nat) : Hw :=
  (h.setReg (Reg.winErr e) (BitVec.ofNat 32 (slot + reason * 256))).setReg64 (Reg.winErrva e) (BitVec.ofNat 64 va)

/-- A submission with the address `va` (R375, At the edges). -/
def Hw.submit (h : Hw) (e : Engine) (c : Nat) (va : Nat) : Hw :=
  let k := h.core c
  if va % 64 ≠ 0 then (h.winRecord e k.slot 4 va).ctxFault k.slot 6 0 0 0
  else
    let w := h.engine e
    let n := Tbl.get 0 w.orders c
    let p : Pass := ⟨k.slot, k.job, k.half, c, jobClass (h.activeJob k.slot k.job), va, n, [], []⟩
    h.setEngine e { w with waiting := w.waiting ++ [p], orders := Tbl.set 0 w.orders c (n + 1) }

/-- A write to a submit register: `high` is its high half. -/
def Hw.submitWrite (h : Hw) (e : Engine) (src : RegSrc) (off : Nat) (high : Bool) (v : Word) : Hw :=
  match src with
  | .core c =>
    if (h.core c).run ≠ .job then h.regErr src true 4 (regBase + off)
    else if !high then h.holdLow src off v
    else h.submit e c (dword (h.lowHeld src (off - 4) 0) v).toNat
  | _ => h.regErr src true 4 (regBase + off)

/-! ### Verdict posts (19 R524, R533) -/

/-- A post of a core (R524): the later post of one index in a run replaces the earlier. -/
def Hw.post (h : Hw) (c : Nat) (d : Dword) (src : RegSrc) (addr : Nat) : Hw :=
  let k := h.core c
  let job := h.activeJob k.slot k.job
  let i := bits d 48 8
  let o := bits d 56 4
  if k.run ≠ .job || jobClass job ≠ 0 then (h.bump Reg.webVerr 1).regErr src true 4 addr
  else if jobVcount job ≤ i || 12 ≤ o || bits d 61 3 ≠ 0 then (h.bump Reg.webVerr 1).regErr src true 2 addr
  else
    let p : Post := ⟨k.slot, k.job, k.half, i, bit d 60, o, BitVec.ofNat 48 d.toNat⟩
    { h with web.posts := h.web.posts.filter (fun x =>
        !(x.slot = k.slot && x.job = k.job && x.half = k.half && x.index = i)) ++ [p] }

/-- A write to WEB_VPOST. -/
def Hw.postWrite (h : Hw) (src : RegSrc) (off : Nat) (high : Bool) (v : Word) : Hw :=
  if !high then
    match src with
    | .dma _ => h.regErr src true 4 (regBase + off)
    | _ => h.holdLow src off v
  else
    match src with
    | .core c => h.post c (dword (h.lowHeld src (off - 4) 0) v) src (regBase + off)
    | _ => (h.bump Reg.webVerr 1).regErr src true 4 (regBase + off)

/-! ### DMA_KICK (15 R427) -/

/-- A write to a channel's kick register. -/
def Hw.kickWrite (h : Hw) (src : RegSrc) (n addr : Nat) : Hw :=
  let c := h.dmaChan n
  if srcCode src = 3 && c.state ≠ .free && c.slot = h.slotOf src then h.dmaKick n else h.regErr src true 4 addr

end Sys2Proof.Machine
end

