-- ==== Sys2Proof/Machine/RegView.lean ====
section
/-! DEFINITION. What each register of the register space reads as (24 R632 to R649 and the register tables of every chapter):
block by block, from the part of the state that the register shows. -/

namespace Sys2Proof.Machine

/-- What stands at a register-space offset: nothing (reserved), a word, or half of a 64-bit register with the offset of its
low half. -/
inductive View where
  | absent
  | word (v : Word)
  | wide (base : Nat) (d : Dword)

/-- A word built from a number. -/
def View.num (n : Nat) : View := .word (BitVec.ofNat 32 n)

/-- A 64-bit register at offset `o` that shows a number. -/
def View.num64 (o n : Nat) : View := .wide (o / 8 * 8) (BitVec.ofNat 64 n)

/-- The words of an index range: `some i` when `o` lies at `base + step * i + rel` for an `i` below `n`. -/
def idx (o base step n : Nat) : Option (Nat × Nat) :=
  if base ≤ o && o < base + step * n then some ((o - base) / step, (o - base) % step) else none

/-! ### SYS, FRM, CMD, CTX, ATU -/

/-- SYS_BOOT (22 R608). -/
def SysBlock.boot (s : SysBlock) : Nat := s.bootSlot.toNat + 2 * s.fallback.toNat + 16 * s.bootErr + 256 * s.retries

/-- SYS_STATE (R609). -/
def Hw.sysState (h : Hw) : Nat :=
  h.sys.state.code + 16 * h.sys.tripCause.toNat + 128 * h.sys.acked.toNat + 256 * h.sys.recovery.toNat

/-- SYS_RCVCTL (R608): BUSY from the start of a load until its check. -/
def SysBlock.rcvctl (s : SysBlock) : Nat :=
  s.rcvLen + (if s.rcvLen ≠ 0 && !s.rcvErr then 2 ^ 29 else 0) + s.rcvErr.toNat * 2 ^ 30

def Hw.viewSys (h : Hw) (o : Nat) : View :=
  match o with
  | 0x00 => .word 0x0880B100
  | 0x04 => .word h.cpc.sysUnits
  | 0x08 | 0x0C | 0x68 => .word (h.reg o)
  | 0x10 | 0x14 => .wide 0x10 (h.reg64 0x10)
  | 0x18 => .num h.sys.ctxSel
  | 0x20 | 0x24 => .wide 0x20 Config.serial
  | 0x40 => .num h.sysState
  | 0x44 | 0x5C => .word 0
  | 0x48 => .num (h.sys.rstCause + h.sys.hardResets * 65536)
  | 0x4C => .num h.sys.boot
  | 0x50 => .word h.sys.fwVersion
  | 0x54 => .word h.sys.heartbeat
  | 0x58 => .num h.sys.rcvctl
  | 0x60 => .num h.sys.supply.toNat
  | 0x64 => .num h.sys.log.length
  | _ => .absent

def Hw.viewFrm (h : Hw) (o : Nat) : View :=
  match o with
  | 0x00 => .num (h.frm.running.toNat * 4)
  | 0x04 | 0x08 | 0x0C | 0x10 | 0x14 | 0x40 => .word (h.reg (0x1000 + o))
  | 0x20 | 0x24 => .num64 0x1020 h.frm.fnum.toNat
  | 0x28 | 0x2C => .wide 0x1028 h.frm.tickTime
  | 0x30 | 0x34 => .num64 0x1030 h.frm.tickPos.toNat
  | 0x38 => .num (h.frm.lastLen % 2 ^ 30)
  | 0x3C => .word (setBit (h.reg Reg.frmStat) 8 h.frm.fixedPlan)
  | 0x104 | 0x108 | 0x10C | 0x110 | 0x114 => .word (h.actReg (0x1000 + o - 0x100))
  | _ => .absent

/-- The CMD registers of a ring at offset `o` (03 R84); `base` is the offset of the ring's first register. -/
def Ring.view (r : Ring) (base o : Nat) : View :=
  match o with
  | 0x00 => .num (r.live.toNat + 2 * r.intAll.toNat)
  | 0x04 => .num (r.sqLog + 256 * r.cqLog)
  | 0x08 | 0x0C => .wide (base + 0x08) r.sqBase
  | 0x10 | 0x14 => .wide (base + 0x10) r.cqBase
  | 0x18 => .num r.vec
  | 0x1C => .word (if r.live then r.seq else r.startSeq)
  | 0x20 | 0x24 => .word 0
  | 0x28 => .num r.sqHead
  | 0x2C => .num r.stat
  | _ => .absent

def Hw.viewCmd (h : Hw) (o : Nat) : View :=
  (h.ring (.fn (Fin.ofNat 32 (o / 0x100)))).view (0x2000 + o / 0x100 * 0x100) (o % 0x100)

/-- The slots that a function's contexts hold (05 R156). -/
def Hw.slotsOf (h : Hw) (f : Nat) : List Nat :=
  (h.ctxs.filter (fun e => e.2.state ≠ .free && e.2.owner = f)).map (·.1)

/-- Job entries of a context: indices filled in the staged or the active set (R156). -/
def Ctx.jobEntries (c : Ctx) : Nat :=
  (c.staged.jobs.map (·.1) ++ (c.active.jobs.map (·.1)).filter (fun i => (Tbl.find c.staged.jobs i).isNone)).length

/-- Endpoints that a context holds. -/
def Hw.endpointsOf (h : Hw) (slot : Nat) : Nat :=
  (h.channels.map (fun e => (decide (e.2.sender = some slot)).toNat + (decide (e.2.receiver = some slot)).toNat)).sum

def Hw.jobsUsed (h : Hw) (f : Nat) : Nat := ((h.slotsOf f).map (fun s => (h.ctx s).jobEntries)).sum
def Hw.dmaUsed (h : Hw) (f : Nat) : Nat := ((h.slotsOf f).map (fun s => (h.ownedChans s).length)).sum
def Hw.mbxUsed (h : Hw) (f : Nat) : Nat := ((h.slotsOf f).map h.endpointsOf).sum
def Hw.synUsed (h : Hw) (f : Nat) : Nat := ((h.slotsOf f).map (fun s => (h.ownedCounters s).length)).sum

/-- CTX_FUSEA and CTX_FUSEB (R170). -/
def Hw.fuseA (h : Hw) (f : Nat) : Nat := (h.slotsOf f).length + h.jobsUsed f * 65536
def Hw.fuseB (h : Hw) (f : Nat) : Nat := h.dmaUsed f + h.mbxUsed f * 256 + h.synUsed f * 65536

/-- The limits and use of a function: FLIMA, FLIMB, FUSEA, FUSEB by word. -/
def Hw.viewLimits (h : Hw) (f w : Nat) : View :=
  match w with
  | 0 => .word (h.reg (Reg.ctxFlima f))
  | 4 => .word (h.reg (Reg.ctxFlimb f))
  | 8 => .num (h.fuseA f)
  | 12 => .num (h.fuseB f)
  | _ => .absent

/-- The registers of a context slot (R172, R173). -/
def Hw.viewSlot (h : Hw) (n w : Nat) : View :=
  let c := h.ctx n
  let base := 0x5000 + 0x20 * n
  match w with
  | 0x00 => .num (c.state.code + (if c.state = .free then 0 else c.owner * 256 + c.secure.toNat * 8192) + c.gen * 65536)
  | 0x04 => .num (c.cause + c.detail * 256 + c.unit * 65536 + c.multi.toNat * 2 ^ 24)
  | 0x08 | 0x0C => .wide (base + 8) c.fva
  | 0x10 | 0x14 => .num64 (base + 0x10) c.fframe.toNat
  | _ => .absent

def Hw.viewCtx (h : Hw) (o : Nat) : View :=
  if o = 0 then .num (h.ctxs.filter (fun e => e.2.state ≠ .free)).length
  else if 0x20 ≤ o && o < 0x40 then
    let w := (o - 0x20) / 4
    .num ((List.range 32).foldl (fun a i => a + (decide ((h.ctx (32 * w + i)).state = .faulted)).toNat * 2 ^ i) 0)
  else
    match idx o 0x100 0x10 32, idx o 0x1000 0x20 256 with
    | some (f, w), _ => h.viewLimits f w
    | _, some (n, w) => h.viewSlot n w
    | _, _ => .absent

def Hw.viewAtu (h : Hw) (o : Nat) : View :=
  match o with
  | 0x00 | 0x04 => .num64 0x8000 drmBase
  | 0x08 | 0x0C => .num64 0x8008 drmLimit
  | 0x10 | 0x14 => .num64 0x8010 0x5E0000000
  | 0x18 => .num h.atu.log.length
  | 0x1C | 0x20 | 0x24 => .word (h.reg (0x8000 + o))
  | _ => .absent

/-! ### COL, THM, PWR, FTC -/

def Hw.viewCol (h : Hw) (o : Nat) : View :=
  match o with
  | 0x00 | 0x04 | 0x08 | 0x0C => .word (h.reg (0x9000 + o))
  | 0x10 => .num h.col.pstatic
  | 0x14 => .num h.col.plan.palow
  | 0x18 => .num 180
  | 0x1C => .num 2400
  | 0x20 | 0x24 => .num64 0x9020 h.col.plan.budget
  | 0x28 | 0x2C => .num64 0x9028 h.col.plan.resv
  | 0x30 | 0x34 => .num64 0x9030 h.col.plan.admitted
  | 0x38 | 0x3C => .num64 0x9038 h.col.fen
  | 0x800 | 0x804 => .word (h.actReg (0x9000 + o - 0x800))
  | _ =>
    match idx o 0x100 8 24 with
    | some (n, _) => .num64 (0x9000 + o) (nth 0 h.col.meters n)
    | none => .absent

def Hw.viewThm (h : Hw) (o : Nat) : View :=
  match o with
  | 0x00 | 0x04 | 0x08 | 0x0C | 0x10 | 0x20 => .word (h.reg (0xA000 + o))
  | 0x14 => .num (h.col.hot.toNat + h.col.hotIndex * 65536)
  | 0x18 => .num h.col.plate.toNat
  | 0x1C => .num h.col.pred.toNat
  | 0x800 | 0x808 | 0x80C | 0x810 => .word (h.actReg (0xA000 + o - 0x800))
  | _ => if (idx o 0x100 4 64).isSome then .word (h.reg (0xA000 + o)) else .absent

/-- Typical power of a point (R208). -/
def typicalPower (p : Nat) : Nat := nth 0 [140000, 118000, 98000, 80000, 64000, 50000] p

def Hw.viewPwr (h : Hw) (o : Nat) : View :=
  match o with
  | 0x00 => .num h.col.point
  | 0x04 | 0x08 => .word (h.reg (0xB000 + o))
  | _ =>
    match idx o 0x10 4 6, idx o 0x30 4 6 with
    | some (p, _), _ => .num (typicalPower p)
    | _, some (p, _) => .num (escale p)
    | _, _ => .absent

/-- The low half's number of a 64-bit control register (08 R248). -/
def crWide (r : Nat) : Option Nat :=
  if r = 12 || r = 13 then some 12
  else if 14 ≤ r && r < 20 then some (r / 2 * 2)
  else if r = 24 || r = 25 then some 24
  else none

def Core.wide (c : Core) (r : Nat) : Dword := dword (c.getCr r) (c.getCr (r + 1))

/-- The copy of a core's control registers, and its debug registers (24 R641, R642, R649). -/
def Hw.viewFtc (h : Hw) (o : Nat) : View :=
  match idx o 0 0x100 18, idx o 0x2000 0x10 18 with
  | some (c, w), _ =>
    let k := h.core c
    let r := w / 4
    let seen := (k.ran || k.run ≠ .none) && !h.cpc.retired.contains c
    if 30 ≤ r then .absent
    else
      match crWide r with
      | some l => .wide (0xC000 + 0x100 * c + 4 * l) (if seen then k.wide l else 0)
      | none => .word (if seen then k.getCr r else 0)
  | _, some (c, w) =>
    let k := h.core c
    if w = 0 then .num (256 * (decide (k.run = .none) || k.halted).toNat + 512 * k.trapped.toNat)
    else if w = 4 then .word (k.dbgPc.setWidth 32)
    else .absent
  | _, _ => .absent

/-! ### BST, QNT, HDG, PRV, DMA -/

/-- The admitted job that holds array `a` in this frame. -/
def Hw.arrayJob (h : Hw) (a : Nat) : Option Admit := h.col.plan.jobs.find? (fun j => (j.arrays ++ j.arrays2).contains a)

/-- Healthy physical columns of an array that carry no logical column (12 R346). -/
def Hw.spareColumns (h : Hw) (a : Nat) : Nat :=
  ((List.range 68).filter (fun c => h.healthy (columnUnit a c) && !(inUse h.cpc.columns (a * 64)).contains c)).length

def Hw.viewBst (h : Hw) (o : Nat) : View :=
  match idx o 0 0x100 4 with
  | none => .absent
  | some (a, w) =>
    let x := h.array a
    match w with
    | 0x00 =>
      let who := match h.arrayJob a with | some j => j.slot * 256 + j.job * 65536 + 2 ^ 31 | none => 0
      .num ((h.cpc.arrays.contains a).toNat + 2 * (h.halfWidth a).toNat + 4 * x.run.isSome.toNat + 8 * x.drain.isSome.toNat +
        16 * (h.col.gated.contains (18 + a)).toNat + who)
    | 0x04 => .num (h.columnsOf a + h.spareColumns a * 256)
    | 0x08 | 0x0C => .word (h.reg (0x10000 + o))
    | 0x10 | 0x14 => .wide (0x10000 + o / 8 * 8) x.busy
    | 0x18 | 0x1C => .wide (0x10000 + o / 8 * 8) x.stall
    | 0x20 => .num (x.bound.length + x.run.isSome.toNat)
    | _ => .absent

def Hw.viewQnt (h : Hw) (o : Nat) : View :=
  match o with
  | 0x00 | 0x18 | 0x1C | 0x20 | 0x24 => .word (h.reg (0x11000 + o))
  | 0x04 => .num 9216
  | 0x08 | 0x0C => .num64 0x11008 h.wpool
  | 0x10 | 0x14 => .wide 0x11010 h.wspent
  | 0x388 | 0x38C => .wide 0x11388 (h.array 1).amax
  | 0x800 => .word (h.actReg 0x11000)
  | 0x804 => .absent
  | _ =>
    match idx o 0x400 0x400 4 with
    | none => .absent
    | some (a, w) =>
      match w with
      | 0x00 | 0x04 => .wide (0x11000 + o / 8 * 8) (h.array a).amax
      | 0x08 | 0x0C | 0x10 | 0x14 | 0x18 => .word (h.reg (0x11000 + o))
      | _ =>
        match idx w 0x200 4 128 with
        | some (n, _) => .word ((Tbl.get 0 (h.array a).columns n).setWidth 32)
        | none => .absent

/-- HDG_PSTATp and PRV_HSTAT (14 R408). -/
def Pipe.stat (p : Pipe) : Nat :=
  let who := match p.pass, p.drain with
    | some q, _ => q.slot * 256 + q.job * 65536
    | none, some d => d.1 * 256 + d.2 * 65536
    | none, none => 0
  p.pass.isSome.toNat + 2 * p.drain.isSome.toNat + who

/-- The registers at 0x0000 to 0x001C that both engines have; `b` is the block's base. -/
def Hw.viewEngine (h : Hw) (e : Engine) (b o : Nat) : View :=
  match o with
  | 0x00 | 0x04 => .word 0
  | 0x08 => .num (h.engine e).queue.length
  | 0x0C | 0x18 | 0x1C => .word (h.reg (b + o))
  | 0x10 | 0x14 => .wide (b + 0x10) (h.reg64 (b + 0x10))
  | _ => .absent

def Hw.viewHdg (h : Hw) (o : Nat) : View :=
  match idx o 0x40 0x20 4 with
  | none => h.viewEngine .hdg 0x13000 o
  | some (p, w) =>
    let x := nth {} h.win.hdg.pipes p
    match w with
    | 0x00 => .num x.stat
    | 0x08 | 0x0C => .wide (0x13000 + o / 8 * 8) x.busy
    | 0x10 | 0x14 => .wide (0x13000 + o / 8 * 8) x.stall
    | _ => .absent

/-- The slot whose copies the PF sees (24 R638), `none` while it is FREE. -/
def Hw.selected (h : Hw) : Option Nat := if (h.ctx h.sys.ctxSel).state = .free then none else some h.sys.ctxSel

/-- A per-context register of the selected slot; a FREE slot's copy reads 0. -/
def Hw.viewCopy (h : Hw) (staged : Bool) (off : Nat) : Word :=
  match h.selected with
  | none => 0
  | some s => if staged then h.reg (Reg.ofCtx s off) else h.actReg (Reg.ofCtx s off)

/-- Both halves of PRV_LRDESCn of the selected slot. -/
def Hw.viewDesc (h : Hw) (staged : Bool) (off : Nat) : Dword := dword (h.viewCopy staged off) (h.viewCopy staged (off + 4))

def LineChan.stat (c : LineChan) (owner : Option Nat) : Nat :=
  c.running.toNat + 2 * c.err.toNat + 4 * c.reason + 256 * owner.getD 0 + 65536 * c.fifo.length

def Hw.viewPrv (h : Hw) (o : Nat) : View :=
  match idx o 0x100 0x40 4, idx o 0x900 0x40 4 with
  | some (n, w), _ =>
    let x := h.lineChan n
    let off := 0x14000 + o
    match w with
    | 0x00 => .word (h.viewCopy true off)
    | 0x08 | 0x0C => .wide (off / 8 * 8) (h.viewDesc true (off / 8 * 8))
    | 0x10 => .num (x.stat (match x.owner with | some s => some s | none => h.lineOwner n))
    | 0x18 | 0x1C => .wide (off / 8 * 8) x.rows
    | 0x20 | 0x24 => .wide (off / 8 * 8) x.lines
    | 0x28 | 0x2C => .word (h.reg off)
    | _ => .absent
  | _, some (_, w) =>
    let off := 0x14000 + o - 0x800
    match w with
    | 0x00 => .word (h.viewCopy false off)
    | 0x08 | 0x0C => .wide ((off + 0x800) / 8 * 8) (h.viewDesc false (off / 8 * 8))
    | _ => .absent
  | _, _ =>
    if o = 0x20 then .num (nth {} h.win.prv.pipes 0).stat else h.viewEngine .prv 0x14000 o

/-- DMA_REQ (15 R432). -/
def Hw.requestLevels (h : Hw) : Nat := (List.range 28).foldl (fun a k => a + (h.lineHigh k).toNat * 2 ^ k) 0

/-- The registers of a DMA channel. -/
def Hw.viewChan (h : Hw) (n w off : Nat) : View :=
  let c := h.dmaChan n
  match w with
  | 0x00 => .num (h.dmaStat c)
  | 0x08 | 0x0C => .wide (off / 8 * 8) c.desc
  | 0x10 | 0x14 => .num64 off c.left
  | 0x18 => .word c.done
  | 0x1C => .word 0
  | 0x20 => .word (h.reg off)
  | _ => .absent

def Hw.viewDma (h : Hw) (o : Nat) : View :=
  let off := 0x18000 + o
  match o with
  | 0x00 | 0x04 => .num64 0x18000 h.requestLevels
  | 0x08 => .word (h.reg off)
  | _ =>
    match idx o 0x100 0x10 4, idx o 0x1000 0x40 128 with
    | some (e, w), _ =>
      if w = 0 || w = 4 then .wide (off / 8 * 8) (h.dmaEngine e).busy else if w = 8 then .word (h.reg off) else .absent
    | _, some (n, w) => h.viewChan n w off
    | _, _ => .absent

/-! ### MBX, MEM, CPC, WEB -/

def Hw.viewMbx (h : Hw) (o : Nat) : View :=
  if o = 0x100 then .word (h.reg Reg.mbxDeny)
  else
    match idx o 0 4 64 with
    | none => .absent
    | some (c, _) =>
      let x := h.channel c
      let dbs := ((List.range 32).filter (bit x.db ·)).length
      .num (x.sender.getD 0 + x.sender.isSome.toNat * 256 + x.receiver.getD 0 * 65536 + x.receiver.isSome.toNat * 2 ^ 24 +
        x.poll.toNat * 2 ^ 25 + dbs * 2 ^ 26)

def Hw.viewMem (h : Hw) (o : Nat) : View :=
  match o with
  | 0x00 | 0x04 | 0x08 | 0x0C | 0x10 | 0x14 | 0x18 | 0x20 | 0x24 | 0x28 | 0x40 => .word (h.reg (0x1D000 + o))
  | 0x1C => .num h.mem.log.length
  | 0x30 | 0x34 => .num64 0x1D030 h.mem.scrubPos
  | 0x38 => .word h.mem.scrubPass
  | 0x3C => .num (140 + 24 * 65536)
  | _ => .absent

/-- CPC_COREc (18 R507). -/
def Hw.coreReport (h : Hw) (c : Nat) : Nat :=
  let st := if h.cpc.inService.contains c then 0 else if h.cpc.spareCores.contains c then 1
    else if h.cpc.retired.contains c then 2 else 3
  let r := h.unitRec (coreUnit c)
  let used := inUse h.cpc.lanes (c * 64)
  let spare := ((List.range 68).filter (fun l => h.healthy (laneUnit c l) && !used.contains l)).length
  st + 4 * r.suspect.toNat + 8 * spare + 64 * (r.count % 4)

/-- CPC_BANKb (R507). -/
def Hw.bankReport (h : Hw) (b : Nat) : Nat :=
  let logical := (h.cpc.banks.find? (fun e => e.2 = b)).map (·.1)
  let copying := h.cpc.copy.find? (fun c => c.new = b)
  let st := if logical.isSome then 0 else if copying.isSome then 2
    else if h.cpc.retiredBanks.contains b || h.mapped (bankUnit b) then 3 else 1
  let l := match logical, copying with | some l, _ => l | none, some c => c.logical | none, none => 0
  st + 16 * l + 65536 * Tbl.get 0 h.cpc.spareRows b

def Hw.viewCpc (h : Hw) (o : Nat) : View :=
  match o with
  | 0x00 => .word (setBit (h.reg Reg.cpcStat) 0 (!h.cpc.pending.isEmpty || !h.cpc.copy.isEmpty))
  | 0x04 => .num h.cpc.suspects.length
  | 0x08 | 0x0C | 0x1C => .word (h.reg (0x1E000 + o))
  | 0x10 => .word h.cpc.remaps
  | 0x14 => .num (h.cpc.field.length + h.cpc.factory.length * 65536)
  | 0x18 => .num h.cpc.log.length
  | _ =>
    match idx o 0x100 4 18, idx o 0x200 0x10 4, idx o 0x300 4 34 with
    | some (c, _), _, _ => .num (h.coreReport c)
    | _, some (a, w), _ =>
      if w < 12 then
        .num ((List.range 32).foldl (fun s i =>
          let c := w / 4 * 32 + i
          s + (decide (c < 68) && h.healthy (columnUnit a c)).toNat * 2 ^ i) 0)
      else .absent
    | _, _, some (b, _) => .num (h.bankReport b)
    | _, _, _ => .absent

def Hw.outputStat (h : Hw) (n : Nat) : Nat :=
  let o := h.output n
  o.activeUntil.isSome.toNat + 2 * o.queue.length + 256 * o.bound.getD 0 + 65536 * o.bound.isSome.toNat

def Hw.viewWeb (h : Hw) (o : Nat) : View :=
  let off := 0x1F000 + o
  match o with
  | 0x40 => .num (h.web.filtered.toNat + 256 * h.web.raw.toNat)
  | 0x80 | 0x84 => .word 0
  | 0x88 => .word (h.reg off)
  | 0x800 | 0x820 => .word (h.actReg (off - 0x800))
  | _ =>
    match idx o 0 0x20 2, idx o 0x48 4 8, idx o 0x100 0x20 12 with
    | some (e, w), _, _ =>
      match w with
      | 0x00 | 0x18 | 0x1C => .word (h.reg off)
      | 0x08 | 0x0C => .num64 off (h.posOf e).toNat
      | 0x10 | 0x14 => .wide (off / 8 * 8) (h.reg64 (off / 8 * 8))
      | _ => .absent
    | _, some _, _ => .word (h.reg off)
    | _, _, some (n, w) =>
      match w with
      | 0x00 | 0x08 | 0x0C => .word (h.reg off)
      | 0x04 => .num (h.outputStat n)
      | _ => .absent
    | _, _, _ => .absent

/-! ### ETH, PTP, WML, PCI, SYN, CXP -/

def Hw.viewEth (h : Hw) (o : Nat) : View :=
  match idx o 0 0x100 2 with
  | none => .absent
  | some (p, w) =>
    let off := 0x20000 + o
    let x := h.ethPort p
    match w with
    | 0x00 => .num (x.link.toNat + 2 * x.enabled.toNat + 4 * x.rate.toNat +
        8 * (x.link && x.rate && bit (h.reg (Reg.ethCfg p)) 0).toNat)
    | 0x08 | 0x0C => .wide (off / 8 * 8) (Config.mac p)
    | 0x20 | 0x24 => .wide (off / 8 * 8) (h.reg64 (off / 8 * 8))
    | 0x04 | 0x10 | 0x14 | 0x18 | 0x28 | 0x30 | 0x34 | 0x38 | 0x3C => .word (h.reg off)
    | _ => .absent

/-- LOCKED of PTP_STAT: a slave with a measured master and no TIME_FAULT (20 R567). -/
def PtpBlock.locked (p : PtpBlock) : Bool := p.hasMaster && p.measured && !p.fault

def Hw.viewPtp (h : Hw) (o : Nat) : View :=
  let p := h.ptp
  match o with
  | 0x00 | 0x08 | 0x28 => .word (h.reg (0x21000 + o))
  | 0x04 => .num (nth 0 p.states 0 + 16 * nth 0 p.states 1 + 256 * p.role + 1024 * p.peerDelay.toNat + 2048 * p.locked.toNat +
      4096 * p.fault.toNat + 8192 * p.holdover.isSome.toNat)
  | 0x10 | 0x14 => .wide 0x21010 p.time
  | 0x18 | 0x1C => .wide 0x21018 (BitVec.ofInt 64 p.offset)
  | 0x20 => .word p.mpd
  | 0x24 => .word (BitVec.ofInt 32 p.freq)
  | 0x30 | 0x34 => .wide 0x21030 p.master
  | _ => .absent

def LinkState.code : LinkState → Nat
  | .down => 0
  | .train => 1
  | .up => 2
  | .foreign => 3

def Hw.viewWml (h : Hw) (o : Nat) : View :=
  let w := h.wml
  let off := 0x22000 + o
  match o with
  | 0x00 => .num (if w.joined then w.id + 2 ^ 31 else 0)
  | 0x04 => .num w.leader
  | 0x08 => .num (w.minor + w.major * 65536)
  | 0x0C => .num (w.depth + 256 * (decide (10 < w.depth)).toNat)
  | 0x10 => .num w.dlat
  | 0x18 | 0x1C => .wide 0x22018 w.ltime
  | 0x20 => .word (h.reg off ||| BitVec.ofNat 32 (w.unsync.toNat + 2 * w.catchup.isSome.toNat + 4 * w.holding.toNat))
  | 0x28 => .num w.held.length
  | 0x24 | 0x2C | 0x30 | 0x34 | 0x40 | 0x44 => .word (h.reg off)
  | _ =>
    match idx o 0x100 0x20 8, idx o 0x400 4 16 with
    | some (k, x), _ =>
      let l := h.link k
      match x with
      | 0x00 => .num (l.state.code + l.partner * 65536 + (l.child || decide (w.parent = some k)).toNat * 2 ^ 31)
      | 0x04 => .word l.delay
      | 0x08 | 0x0C | 0x10 => .word (h.reg off)
      | _ => .absent
    | _, some _ => .word (h.reg off)
    | _, _ => .absent

/-- A word of a function's MSI-X table (21 R580). -/
def Func.tableWord (f : Func) (o : Nat) : Word :=
  let e := Tbl.get {} f.table (o / 16)
  match o % 16 with
  | 0 => e.addrLo
  | 4 => e.addrHi
  | 8 => e.data
  | _ => BitVec.ofNat 32 e.masked.toNat

/-- The MSI-X table and the Pending Bit Array at 0x8000 and 0x9000 (R580). -/
def Hw.viewMsix (h : Hw) (f base o : Nat) : View :=
  if 0x8000 ≤ o && o < 0x8400 then .word ((h.func f).tableWord (o - 0x8000))
  else if o = 0x9000 || o = 0x9004 then .wide (base + 0x9000) (h.func f).pending
  else .absent

/-- PCI_FLRSTAT (R586). -/
def Hw.flrStat (h : Hw) : Nat := (List.range 32).foldl (fun a f => a + (h.func f).flr.toNat * 2 ^ f) 0

def Hw.viewPci (h : Hw) (o : Nat) : View :=
  match o with
  | 0x00 => .num (h.pci.speed + 16 * h.pci.width + 256 * h.pci.up.toNat)
  | 0x04 | 0x08 | 0x0C | 0x20 | 0x24 | 0x28 | 0x2C => .word (h.reg (0x30000 + o))
  | 0x10 => .num h.flrStat
  | 0x18 | 0x1C => .wide 0x30018 (h.reg64 0x30018)
  | _ => h.viewMsix 0 0x30000 o

def Hw.viewSyn (h : Hw) (o : Nat) : View :=
  if o < 0x40000 then
    let n := o / 16
    match o % 16 with
    | 0 | 4 => .wide (0x80000 + o / 8 * 8) (h.counter n).value
    | 8 => .word (h.synCtlValue n)
    | _ => .absent
  else
    match o - 0x40000 with
    | 0 => .num (16384 - (h.counters.filter (fun e => e.2.state ≠ .free)).length)
    | 4 | 8 | 12 => .word (h.reg (0x80000 + o))
    | _ => .absent

/-- A word of the line slots and records (19 R531). -/
def Hw.lineWord (h : Hw) (o : Nat) : Word :=
  BitVec.ofNat 32 (natOf ((List.range 4).map (fun i => Tbl.get 0 h.cxp.bytes (o / 4 * 4 + i))))

/-- CXP_STATn (R532). -/
def CamPort.stat (p : CamPort) : Nat :=
  p.link.toNat + 2 * p.master.toNat + 4 * p.links + 256 * p.speed + 4096 * p.masterPort + 32768 * p.powered.toNat +
    65536 * p.noDev.toNat + 131072 * p.disc

def Hw.viewCxp (h : Hw) (o : Nat) : View :=
  let off := 0x2000000 + o
  if 0x800 ≤ o && o < 0x1000 || 0x1000000 ≤ o then .word (h.lineWord o)
  else
    match idx o 0 0x40 8, idx o 0x1810 0x40 8 with
    | some (n, w), _ =>
      let p := h.port n
      match w with
      | 0x00 => .num p.stat
      | 0x04 | 0x08 | 0x20 | 0x24 => .word (h.reg off)
      | 0x0C => .num (if p.powered then bits (Config.portDraw n h.now) 0 14 else 0)
      | 0x10 => .word (h.viewCopy true off)
      | 0x18 | 0x1C => .wide (off / 8 * 8) p.lseq
      | 0x28 => .word p.owner
      | _ => .absent
    | _, some (n, w) => if w = 0 then .word (h.viewCopy false (Reg.cxpTrig n)) else .absent
    | _, _ => .absent

/-! ### The whole space (24 R633) -/

/-- The blocks of the register space. -/
inductive Block where
  | sys | frm | cmd | ctx | atu | col | thm | pwr | ftc | bst | qnt | hdg | prv | dma | mbx | mem | cpc | web | eth | ptp | wml
  | pci | syn | cxp
deriving DecidableEq, Repr

/-- Bases and sizes (R633). -/
def blockTable : List (Nat × Nat × Block) :=
  [(0x0, 0x1000, .sys), (0x1000, 0x1000, .frm), (0x2000, 0x2000, .cmd), (0x4000, 0x4000, .ctx), (0x8000, 0x1000, .atu),
   (0x9000, 0x1000, .col), (0xA000, 0x1000, .thm), (0xB000, 0x1000, .pwr), (0xC000, 0x4000, .ftc), (0x10000, 0x1000, .bst),
   (0x11000, 0x2000, .qnt), (0x13000, 0x1000, .hdg), (0x14000, 0x1000, .prv), (0x18000, 0x4000, .dma), (0x1C000, 0x1000, .mbx),
   (0x1D000, 0x1000, .mem), (0x1E000, 0x1000, .cpc), (0x1F000, 0x1000, .web), (0x20000, 0x1000, .eth), (0x21000, 0x1000, .ptp),
   (0x22000, 0x1000, .wml), (0x30000, 0x10000, .pci), (0x80000, 0x80000, .syn), (0x2000000, 0x2000000, .cxp)]

/-- The block of an offset, and the offset in it. -/
def blockOf (off : Nat) : Option (Block × Nat) :=
  (blockTable.find? (fun e => e.1 ≤ off && off < e.1 + e.2.1)).map (fun e => (e.2.2, off - e.1))

/-- What a register-space offset shows. -/
def Hw.view (h : Hw) (off : Nat) : View :=
  match blockOf off with
  | none => .absent
  | some (b, o) =>
    match b with
    | .sys => h.viewSys o
    | .frm => h.viewFrm o
    | .cmd => h.viewCmd o
    | .ctx => h.viewCtx o
    | .atu => h.viewAtu o
    | .col => h.viewCol o
    | .thm => h.viewThm o
    | .pwr => h.viewPwr o
    | .ftc => h.viewFtc o
    | .bst => h.viewBst o
    | .qnt => h.viewQnt o
    | .hdg => h.viewHdg o
    | .prv => h.viewPrv o
    | .dma => h.viewDma o
    | .mbx => h.viewMbx o
    | .mem => h.viewMem o
    | .cpc => h.viewCpc o
    | .web => h.viewWeb o
    | .eth => h.viewEth o
    | .ptp => h.viewPtp o
    | .wml => h.viewWml o
    | .pci => h.viewPci o
    | .syn => h.viewSyn o
    | .cxp => h.viewCxp o

/-- Whether an offset is listed (R634). -/
def View.listed : View → Bool
  | .absent => false
  | _ => true

end Sys2Proof.Machine
end

