-- ==== Sys2Proof/Machine/RegWrite.lean ====
section
/-! DEFINITION. Reads and writes of the register space by type (00 R10 to R15, R20, 24 R632 to R648), from the PF's BAR0, a VF's
view, a doorbell page and a context's agent through the device aperture. Writes of FTC_DBGCTL act in the core's own file. -/

namespace Sys2Proof.Machine

/-! ### What a plain register takes (R20) -/

/-- The types of the registers that the state holds as plain words: read only, write 1 to clear, or written (`keep` are its
fields' bits, `ok` says which words are in range; R648 VALUE). -/
inductive RegType where
  | ro
  | w1c (mask : Word)
  | rw (keep : Word) (ok : Bool)

/-- A written field in a range. -/
def within (v lo hi : Nat) : Bool := lo ≤ v && v ≤ hi

def typeFrm (o : Nat) (v : Word) : RegType :=
  match o with
  | 0x04 => .rw 0xF07 (bits v 0 3 ≠ 7)
  | 0x08 => .rw 0xFFFF (bits v 0 16 ≠ 0)
  | 0x0C | 0x14 => .rw 0x3FFFFFFF (within (bits v 0 30) 1500 1000000000)
  | 0x10 => .rw 0x3FFFFFFF true
  | 0x3C => .w1c 0x1F
  | _ => .ro

def typeCol (o : Nat) (v : Word) : RegType :=
  match o with
  | 0x00 => .rw 0x0F0773F7 (bits v 12 3 < 6 && bits v 16 3 < 6 && bits v 12 3 ≤ bits v 16 3)
  | 0x04 => .rw 0xFFFFFFFF (within v.toNat 20000 150000)
  | 0x08 => .w1c 0x1F
  | _ => .ro

def Hw.typeThm (h : Hw) (o : Nat) (v : Word) : RegType :=
  let n := v.toNat
  match o with
  | 0x00 => .rw 0xFFFFFFFF (n + 16 ≤ (h.reg Reg.thmTrip).toNat)
  | 0x04 => .rw 0xFFFFFFFF (within n 1280 1840 && (h.reg Reg.thmTgt).toNat + 16 ≤ n && (h.actReg Reg.thmTgt).toNat + 16 ≤ n)
  | 0x08 => .rw 0xFFFFFFFF (within n 1 10000)
  | 0x0C => .rw 0xFFFFFFFF (within n 100 1000000)
  | 0x10 => .rw 0xFFFFFFFF (within n 100 100000)
  | 0x20 => .w1c 3
  | _ => .ro

def typeMem (o : Nat) (v : Word) : RegType :=
  match o with
  | 0x00 => .rw 0x1FF (bits v 0 8 ≠ 0)
  | 0x04 => .w1c 0x3F
  | 0x28 => .rw 0xFF01 (bits v 8 8 ≠ 0)
  | _ => .ro

def typeWeb (o : Nat) (v : Word) : RegType :=
  match idx o 0 0x20 2, idx o 0x48 4 8, idx o 0x100 0x20 12 with
  | some (_, 0x00), _, _ => .rw 0xFF07 (bits v 0 2 ≠ 3)
  | some (_, 0x1C), _, _ => .w1c 1
  | _, some _, _ => .rw 0xFF true
  | _, _, some (n, 0x00) => .rw (if n < 8 then 1 else 0) true
  | _, _, some (_, 0x08) => .w1c 0xF
  | _, _, _ => .ro

def typeEth (o : Nat) : RegType :=
  match o % 0x100 with
  | 0x04 => .rw 3 true
  | 0x10 | 0x14 | 0x18 => .rw 0xFFFFFFFF true
  | 0x28 => .rw 0xFFFF true
  | _ => .ro

def typePtp (o : Nat) (v : Word) : RegType :=
  match o with
  | 0x00 => .rw 0x0FFFFF01 (bits v 24 4 ≤ 1 || 12 ≤ bits v 24 4)
  | 0x08 => .w1c 7
  | 0x28 => .rw 0xFFFF (bits v 0 16 ≤ 60000)
  | _ => .ro

def typeDcfg (i : Nat) (v : Word) : RegType :=
  match i with
  | 0 => .rw 0xF07 (within (bits v 0 3) 1 5)
  | 1 => typeFrm 0x08 v
  | 2 => typeFrm 0x0C v
  | 3 => typeFrm 0x10 v
  | 4 => typeFrm 0x14 v
  | _ => .rw 0xFFFFFFFF true

def typeWml (o : Nat) (v : Word) : RegType :=
  match o with
  | 0x20 => .w1c 0x18
  | 0x24 => .rw 0xFF (bits v 0 8 ≠ 0)
  | 0x40 | 0x44 => .rw 3 (bits v 0 2 ≠ 3)
  | _ => match idx o 0x400 4 16 with | some (i, _) => typeDcfg i v | none => .ro

def typePci (o : Nat) : RegType :=
  match o with
  | 0x04 => .w1c 7
  | 0x08 => .rw 0x3F3F true
  | 0x0C => .w1c 0x3F
  | _ => .ro

def typeCxp (o : Nat) (v : Word) : RegType :=
  match idx o 0 0x40 8 with
  | some (_, 0x04) => .w1c 0xF
  | some (_, 0x08) => .rw 0xFFFFFFFF (v.toNat ≤ 13000)
  | _ => .ro

/-- The type of the plain register at offset `o` of a block. -/
def Hw.regType (h : Hw) (b : Block) (o : Nat) (v : Word) : RegType :=
  match b with
  | .frm => typeFrm o v
  | .col => typeCol o v
  | .thm => h.typeThm o v
  | .pwr => if o = 4 then .rw 0xFFFFFFFF (within v.toNat 20000 175000) else if o = 8 then .w1c 1 else .ro
  | .qnt => if o = 0 then .rw 0xFF01 true else .ro
  | .dma => if o = 8 then .w1c 0xFFFF else .ro
  | .mem => typeMem o v
  | .cpc => if o = 0 then .w1c 0xE else .ro
  | .web => typeWeb o v
  | .eth => typeEth o
  | .ptp => typePtp o v
  | .wml => typeWml o v
  | .pci => typePci o
  | .cxp => typeCxp o v
  | _ => .ro

/-- A write of a plain register by its type. -/
def Hw.typedWrite (h : Hw) (src : RegSrc) (off : Nat) (v : Word) : RegType → Hw
  | .ro => h
  | .w1c m => h.setReg off (h.reg off &&& ~~~(v &&& m))
  | .rw keep ok => if ok then h.setReg off (v &&& keep) else h.regErr src true 2 (regBase + off)

/-! ### The MSI-X table (21 R580, R581) -/

/-- Sends the pending vectors of a function that are unmasked, in rising order (R581), or holds them under R579. -/
def Hw.sendPending (h : Hw) (f : Nat) : Hw :=
  (List.range 64).foldl (fun (h : Hw) v =>
    let c := h.func f
    if c.msixOn && bit c.pending v && c.unmasked v then
      let h := h.setFunc f { c with pending := c.pending &&& ~~~((1 : Dword) <<< v) }
      h.request f v (.vector v)
    else h) h

/-- A write of a word of an entry. -/
def MsixEntry.write (e : MsixEntry) (w : Nat) (v : Word) : MsixEntry :=
  match w with
  | 0 => { e with addrLo := v &&& ~~~3 }
  | 4 => { e with addrHi := v }
  | 8 => { e with data := v }
  | _ => { e with masked := bit v 0 }

/-- A write to a function's MSI-X table at table offset `o`; clearing a mask sends what is pending. -/
def Hw.tableWrite (h : Hw) (f o : Nat) (v : Word) : Hw :=
  let c := h.func f
  let e := (Tbl.get {} c.table (o / 16)).write (o % 16) v
  (h.setFunc f { c with table := Tbl.set {} c.table (o / 16) e }).sendPending f

/-! ### Registers with a rule of their own -/

/-- CTX_FLIMA and CTX_FLIMB (05 R171). -/
def Hw.limitWrite (h : Hw) (src : RegSrc) (off : Nat) (v : Word) : Hw :=
  let ok := if off % 0x10 = 0 then bits v 0 9 ≤ 256 && bits v 16 13 ≤ 4096
    else bits v 0 8 ≤ 128 && bits v 8 8 ≤ 128 && bits v 16 15 ≤ 16384
  h.typedWrite src off v (.rw (if off % 0x10 = 0 then 0x1FFF01FF else 0x7FFFFFFF) ok)

/-- The kept bits and the range of a per-context register (24 R638, 14 R409, 19 R532). -/
def copyType (off : Nat) (v : Word) : RegType :=
  if 0x2000000 ≤ off then .rw 0xFFFF007F (bits v 16 16 ≠ 0) else .rw 0xFF0F true

/-- Stages the high half of PRV_LRDESCn for a slot with the low half that source index `who` holds (R11, R639). -/
def Hw.stageDesc (h : Hw) (who slot low : Nat) (v : Word) : Option Hw :=
  let key := Reg.ofCtx slot low
  let lo := (Tbl.find h.helds (Reg.ofCtx who low)).getD (h.reg key)
  if lo.toNat % 64 ≠ 0 then none else some ((h.setReg key lo).setReg (Reg.ofCtx slot (low + 4)) v)

/-- A PF write to a per-context copy (R638). -/
def Hw.copyWrite (h : Hw) (src : RegSrc) (off : Nat) (v : Word) : Hw :=
  match h.selected with
  | none => h.regErr src true 3 (regBase + off)
  | some s =>
    if 0x2000000 ≤ off || off % 0x40 = 0 then
      match copyType off v with
      | .rw keep ok => if ok then h.setReg (Reg.ofCtx s off) (v &&& keep) else h.regErr src true 2 (regBase + off)
      | _ => h
    else if off % 8 = 0 then h.holdLow src off v
    else match h.stageDesc (srcIndex src) s (off - 4) v with
      | some h => h
      | none => h.regErr src true 2 (regBase + off)

/-- SYS_REGERR (24 R645). -/
def Hw.clearRegerr (h : Hw) (v : Word) : Hw :=
  h.setReg Reg.sysRegerr (if bit v 0 then 0 else h.reg Reg.sysRegerr &&& ~~~(v &&& 2))

def Hw.sysWrite (h : Hw) (src : RegSrc) (o : Nat) (v : Word) : Hw :=
  match o with
  | 0x08 => h.clearRegerr v
  | 0x18 => { h with sys.ctxSel := bits v 0 8 }
  | 0x44 => h.sysCtl src v
  | 0x58 => h.rcvCtl src v
  | 0x5C => h.rcvData src v
  | _ => h

/-- WEB_POSSETe (19 R522): the position takes effect with the high half. -/
def Hw.possetWrite (h : Hw) (src : RegSrc) (e : Nat) (high : Bool) (v : Word) : Hw :=
  let off := Reg.webPosset e
  if !high then h.holdLow src off v
  else
    let d := dword (h.lowHeld src off (h.reg off)) v &&& 0xFFFFFFFFFFFF
    (h.setReg64 off d).setEncoder e { h.encoder e with pos := d.setWidth 48 }

/-- ETH_ACLp (20 R566). -/
def Hw.aclWrite (h : Hw) (src : RegSrc) (p : Nat) (high : Bool) (v : Word) : Hw :=
  let off := Reg.ethAcl p
  if !high then h.holdLow src off v else h.setReg64 off (dword (h.lowHeld src off (h.reg off)) v)

/-- FTC_DBGPCc (24 R649). -/
def Hw.dbgPcWrite (h : Hw) (src : RegSrc) (c off : Nat) (v : Word) : Hw :=
  let k := h.core c
  if h.cpc.retired.contains c || (k.run ≠ .none && !k.halted) then h.regErr src true 3 (regBase + off)
  else h.setCore c { k with dbgPc := v.setWidth 16 }

/-- A write of FRM_CTL (02 R54): START, then STOP. -/
def Hw.frmCtlWrite (h : Hw) (v : Word) : Hw :=
  let h := if bit v 0 then h.frmStart else h
  if bit v 1 then h.frmStop else h

/-- A WEB write. -/
def Hw.webWrite (h : Hw) (src : RegSrc) (o : Nat) (v : Word) : Hw :=
  match o with
  | 0x10 => h.possetWrite src 0 false v
  | 0x14 => h.possetWrite src 0 true v
  | 0x30 => h.possetWrite src 1 false v
  | 0x34 => h.possetWrite src 1 true v
  | 0x80 => h.postWrite src 0x1F080 false v
  | 0x84 => h.postWrite src 0x1F084 true v
  | _ => h.typedWrite src (0x1F000 + o) v (typeWeb o v)

/-- An ETH write. -/
def Hw.ethWrite (h : Hw) (src : RegSrc) (o : Nat) (v : Word) : Hw :=
  match o % 0x100 with
  | 0x20 => h.aclWrite src (o / 0x100) false v
  | 0x24 => h.aclWrite src (o / 0x100) true v
  | _ => h.typedWrite src (0x20000 + o) v (typeEth o)

/-- A write to a listed register of a block, from the PF's view (R635) or the steward. -/
def Hw.blockWrite (h : Hw) (src : RegSrc) (b : Block) (o off : Nat) (v : Word) : Hw :=
  match b with
  | .sys => h.sysWrite src o v
  | .cmd =>
    if 0x100 ≤ o then h.regErr src true 4 (regBase + off) else h.cmdWrite src 0 o (regBase + off) off v
  | .frm => if o = 0 then h.frmCtlWrite v else h.typedWrite src off v (h.regType b o v)
  | .ctx => if 0x100 ≤ o && o < 0x300 && o % 0x10 < 8 then h.limitWrite src off v else h
  | .ftc => match idx o 0x2000 0x10 18 with
    | some (c, 4) => h.dbgPcWrite src c off v
    | _ => h
  | .hdg => if o < 8 then h.submitWrite .hdg src off (o = 4) v else h
  | .prv =>
    if o < 8 then h.submitWrite .prv src off (o = 4) v
    else match idx o 0x100 0x40 4 with
      | some (_, w) => if w = 0 || w = 8 || w = 12 then h.copyWrite src off v else h
      | none => h
  | .dma => match idx o 0x1000 0x40 128 with
    | some (n, 0x1C) => h.kickWrite src n (regBase + off)
    | _ => h.typedWrite src off v (h.regType b o v)
  | .web => h.webWrite src o v
  | .eth => h.ethWrite src o v
  | .pci => if 0x8000 ≤ o && o < 0x8400 then h.tableWrite 0 (o - 0x8000) v else h.typedWrite src off v (h.regType b o v)
  | .wml =>
    let h' := h.typedWrite src off v (h.regType b o v)
    if (o = 0x40 || o = 0x44) && h'.reg off ≠ h.reg off then h'.portDown ((o - 0x40) / 4) else h'
  | .syn => if o < 0x40000 && o % 16 = 8 then h.synCtlWrite src (o / 16) (regBase + off) v else h
  | .cxp => match idx o 0 0x40 8 with
    | some (_, 0x10) => h.copyWrite src off v
    | _ => h.typedWrite src off v (h.regType b o v)
  | _ => h.typedWrite src off v (h.regType b o v)

/-- Blocks that the PF writes in every module state (R82). -/
def Block.anyState : Block → Bool
  | .sys | .frm | .cmd | .pci => true
  | _ => false

/-- A write of one aligned word through the PF's view. -/
def Hw.pfWrite (h : Hw) (src : RegSrc) (off : Nat) (v : Word) : Hw :=
  match blockOf off with
  | none => h
  | some (b, o) =>
    if !(h.view off).listed then h
    else if !b.anyState && !h.isState .ready && src = .pf then h.regErr src true 3 (regBase + off)
    else h.blockWrite src b o off v

/-! ### Reads (R11, R20) -/

/-- Registers of type RC. -/
def isRc (off : Nat) : Bool :=
  match blockOf off with
  | none => false
  | some (b, o) =>
    match b with
    | .sys => o = 0x68
    | .frm => o = 0x40
    | .atu => within o 0x1C 0x24
    | .col => o = 0x0C
    | .bst => o % 0x100 = 8 || o % 0x100 = 0xC
    | .qnt => within o 0x18 0x24 || (0x400 ≤ o && within (o % 0x400) 8 0x18)
    | .hdg => o = 0x18 || o = 0x1C
    | .prv => o = 0x18 || o = 0x1C || (within o 0x100 0x1FF && within (o % 0x40) 0x28 0x2C)
    | .dma => (within o 0x100 0x13F && o % 0x10 = 8) || (0x1000 ≤ o && o % 0x40 = 0x20)
    | .mbx => o = 0x100
    | .mem => within o 0x08 0x18 || o = 0x20 || o = 0x24
    | .cpc => o = 0x08 || o = 0x0C || o = 0x1C
    | .web => o = 0x18 || o = 0x38 || o = 0x88 || (within o 0x100 0x27F && o % 0x20 = 0xC)
    | .eth => within (o % 0x100) 0x30 0x3C
    | .wml => within o 0x2C 0x34 || (within o 0x100 0x1FF && within (o % 0x20) 8 0x10)
    | .pci => within o 0x20 0x28
    | .syn => o = 0x40004 || o = 0x4000C
    | .cxp => o < 0x200 && (o % 0x40 = 0x20 || o % 0x40 = 0x24)
    | _ => false

/-- One half of a 64-bit register, as source number `who` reads it: the low half leaves a snapshot of the high half, which the
next read of the high half takes (R11). -/
def Hw.wideRead (h : Hw) (who low : Nat) (high : Bool) (d : Dword) : Hw × Word :=
  let key := Reg.ofCtx who low
  if !high then ({ h with snaps := Tbl.put h.snaps key (highHalf d) }, lowHalf d)
  else
    match Tbl.find h.snaps key with
    | some w => ({ h with snaps := Tbl.del h.snaps key }, w)
    | none => (h, highHalf d)

/-- A read of one aligned word of the register space. -/
def Hw.regRead (h : Hw) (src : RegSrc) (off : Nat) : Hw × Word :=
  match h.view off with
  | .absent => (h, 0)
  | .word v => (if isRc off then h.setReg off 0 else h, v)
  | .wide base d => h.wideRead (srcIndex src) base (off ≠ base) d

/-! ### A VF's view and the doorbell pages (21 R587, 03 R83, R87) -/

/-- What a VF's BAR0 shows. -/
def Hw.vfView (h : Hw) (f : Fin 32) (o : Nat) : View :=
  if o = 0 then .word 0x0880B100
  else if o = 4 then .word h.cpc.sysUnits
  else if o = 0x10 then .num (f.val + 256 * (h.func f).flr.toNat)
  else if 0x100 ≤ o && o < 0x110 then h.viewLimits f (o - 0x100)
  else if 0x1000 ≤ o && o < 0x1030 then (h.ring (.fn f)).view 0x1000 (o - 0x1000)
  else h.viewMsix f 0 o

/-- A write to a VF's BAR0. -/
def Hw.vfWrite (h : Hw) (f : Fin 32) (o : Nat) (v : Word) : Hw :=
  if 0x1000 ≤ o && o < 0x1030 then h.cmdWrite (.vf f) f (o - 0x1000) o o v
  else if 0x8000 ≤ o && o < 0x8400 then h.tableWrite f (o - 0x8000) v
  else h

def Hw.vfRead (h : Hw) (f : Fin 32) (o : Nat) : Hw × Word :=
  match h.vfView f o with
  | .absent => (h, 0)
  | .word v => (h, v)
  | .wide base d => h.wideRead (srcIndex (.vf f)) base (o ≠ base) d

/-- The number under which a page's or a mailbox's word is snapshot, beside the registers. -/
def pageKey (slot o : Nat) : Nat := 0x200000 + slot * 0x1000 + o
def mbxKey (o : Nat) : Nat := 0x100000 + o

/-- A read of page `slot` by an agent of function `f`. -/
def Hw.pageRead (h : Hw) (src : RegSrc) (f : Nat) (slot : Fin 256) (o : Nat) : Hw × Word :=
  if !h.pageOpen f slot then (h, 0)
  else match h.pageView slot o with
    | .inl v => (h, v)
    | .inr (base, d) => h.wideRead (srcIndex src) (pageKey slot base) (o ≠ base) d

/-! ### The device aperture (06 R176, R183, 24 R636, R637) -/

/-- The group whose line slots or records hold CXP block offset `o` (19 R531). -/
def lineMaster (o : Nat) : Option Nat :=
  if 0x800 ≤ o && o < 0x1000 then some ((o - 0x800) / 0x100)
  else if 0x1000000 ≤ o then some ((o - 0x1000000) / 0x200000)
  else none

/-- What a context's agent reads through the aperture: `none` where R637 admits nothing, else the view. -/
def Hw.aperView (h : Hw) (slot off : Nat) : Option View :=
  if off = 0 || off = 4 then some (h.view off)
  else if within off 0x1020 0x103B && off % 4 = 0 then some (h.view off)
  else if off = 0x21010 || off = 0x21014 then some (h.view off)
  else if off = 0x1F008 || off = 0x1F00C || off = 0x1F028 || off = 0x1F02C then some (h.view off)
  else
    match idx off 0x19000 0x40 128, idx off 0x80000 16 16384 with
    | some (n, w), _ =>
      if w % 4 = 0 && w ≤ 0x18 && w ≠ 4 then
        let c := h.dmaChan n
        some (if c.state ≠ .free && c.slot = slot then h.view off else .word 0)
      else none
    | _, some (n, w) =>
      if w = 0 || w = 4 || w = 8 then some (if h.mayUse slot n then h.view off else .word 0) else none
    | _, _ =>
      if 0x2000000 ≤ off then
        match lineMaster (off - 0x2000000) with
        | some m => if (h.port m).ownerSlot = some slot then some (h.view off) else none
        | none => none
      else none

/-- A core's or a channel's read of a register. -/
def Hw.aperRead (h : Hw) (src : RegSrc) (off : Nat) : Hw × Word :=
  match h.aperView (h.slotOf src) off with
  | none => (h.regErr src false 4 (regBase + off), 0)
  | some .absent => (h, 0)
  | some (.word v) => (h, v)
  | some (.wide base d) => h.wideRead (srcIndex src) base (off ≠ base) d

/-- A core's or a channel's write of a register. -/
def Hw.aperWrite (h : Hw) (src : RegSrc) (off : Nat) (v : Word) : Hw :=
  match off with
  | 0x13000 => h.submitWrite .hdg src off false v
  | 0x13004 => h.submitWrite .hdg src off true v
  | 0x14000 => h.submitWrite .prv src off false v
  | 0x14004 => h.submitWrite .prv src off true v
  | 0x1F080 => h.postWrite src off false v
  | 0x1F084 => h.postWrite src off true v
  | _ =>
    match idx off 0x19000 0x40 128, idx off 0x80000 16 16384 with
    | some (n, 0x1C), _ => h.kickWrite src n (regBase + off)
    | _, some (n, 8) => h.synCtlWrite src n (regBase + off) v
    | _, _ => h.regErr src true 4 (regBase + off)

/-- A read of mailbox space at offset `o` (16 R446). -/
def Hw.mbxRead (h : Hw) (src : RegSrc) (o : Nat) : Hw × Word :=
  let n := o / 0x1000
  let recv := 0x800 ≤ o % 0x1000
  match h.mbxGate src n recv with
  | .grant =>
    let ch := h.channel n
    match (if recv then ch.receiverView (o % 0x800) else ch.senderView (o % 0x800)) with
    | .inl v => (h, v)
    | .inr (base, d) => h.wideRead (srcIndex src) (mbxKey (o / 0x800 * 0x800 + base)) (o % 0x800 ≠ base) d
  | g => (h.mbxRefuse src false (mbxBase + o) g, 0)

/-- One aligned word of the device aperture at local address `a`. -/
def Hw.deviceRead (h : Hw) (src : RegSrc) (a : Nat) : Hw × Word :=
  if regBase ≤ a && a < regBase + 0x4000000 then h.aperRead src (a - regBase)
  else if mbxBase ≤ a && a < mbxBase + 0x40000 then h.mbxRead src (a - mbxBase)
  else if pageBase ≤ a && a < pageBase + 0x100000 then
    let o := a - pageBase
    h.pageRead src (h.ctx (h.slotOf src)).owner (Fin.ofNat 256 (o / 0x1000)) (o % 0x1000)
  else (h.regErr src false 4 a, 0)

def Hw.deviceWrite (h : Hw) (src : RegSrc) (a : Nat) (v : Word) : Hw :=
  if regBase ≤ a && a < regBase + 0x4000000 then h.aperWrite src (a - regBase) v
  else if mbxBase ≤ a && a < mbxBase + 0x40000 then h.mbxWrite src (a - mbxBase) v
  else if pageBase ≤ a && a < pageBase + 0x100000 then
    let o := a - pageBase
    h.pageWrite src (h.ctx (h.slotOf src)).owner (Fin.ofNat 256 (o / 0x1000)) (o % 0x1000) a v
  else h.regErr src true 4 a

/-- An access of another width or alignment (R10): nothing happens, and a read returns 0. -/
def Hw.widthErr (h : Hw) (src : RegSrc) (write : Bool) (a : Nat) : Hw := h.regErr src write 1 a

/-! ### A register access as a command -/

/-- The recorded address of an access (R646): the local address, or the offset within a VF's BAR. -/
def recordedAddr (src : RegSrc) (off : Nat) : Nat :=
  match src with
  | .vf _ => off
  | .page _ slot => slot.val * 0x1000 + off % 0x1000
  | _ => regBase + off

/-- Whether an access of a source happens at all (21 R572, R579, R583, 22 R594). -/
def Hw.reaches (h : Hw) (src : RegSrc) (off : Nat) : Bool :=
  match src with
  | .pf => if off < 0x1000 then h.sysServed else off < 0x4000000 && h.served 0
  | .vf f => f ≠ 0 && off < 0x10000 && h.served f
  | .page f _ => h.served f && off < 0x1000
  | .core c => (h.core c).run = .job && !(h.core c).halted && off < 0x4000000
  | .dma n => (h.dmaChan n).state = .running && off < 0x4000000
  | .steward => h.sys.stewardOn && off < 0x4000000

/-- A write by one of the sources of R640. -/
def Hw.srcWrite (h : Hw) (src : RegSrc) (off : Nat) (v : Word) : Hw :=
  match src with
  | .pf | .steward => h.pfWrite src off v
  | .vf f => h.vfWrite f off v
  | .page f slot => h.pageWrite src f slot off (recordedAddr src off) v
  | .core _ | .dma _ => h.aperWrite src off v

def Hw.srcRead (h : Hw) (src : RegSrc) (off : Nat) : Hw × Word :=
  match src with
  | .pf | .steward => h.regRead src off
  | .vf f => h.vfRead f off
  | .page f slot => h.pageRead src f slot off
  | .core _ | .dma _ => h.aperRead src off

/-- REGISTER_WRITE: what reaches the block is discarded unless it is one aligned word (R10). -/
def Hw.accessWrite (h : Hw) (a : RegAccess) (v : Word) : Hw :=
  if !h.reaches a.src a.off then h
  else if !a.aligned || a.off % 4 ≠ 0 then h.widthErr a.src true (recordedAddr a.src a.off)
  else h.srcWrite a.src a.off v

/-- REGISTER_READ: the value goes to the reader (`pci.answer`). -/
def Hw.accessRead (h : Hw) (a : RegAccess) : Hw :=
  if !(h.reaches a.src a.off || (a.src = .pf && h.earlyRead a.off)) then h
  else if !a.aligned || a.off % 4 ≠ 0 then
    { h.widthErr a.src false (recordedAddr a.src a.off) with pci.answer := some 0 }
  else
    let r := h.srcRead a.src a.off
    { r.1 with pci.answer := some r.2 }

end Sys2Proof.Machine
end

