-- ==== Sys2Proof/Machine/Ftc.lean ====
section
/-! DEFINITION. A Fintoic core executing bundles (08 to 11): control and loop registers, loads and stores through windows, traps,
interrupts, multi-element vector instructions, stalls, and the issue of one bundle. -/

namespace Sys2Proof.Machine

/-! ### Status and control registers (08 R248 to R250) -/

def Core.statBit (c : Core) (i : Nat) : Bool := bit (c.getCr Cr.stat) i
def Core.setStat (c : Core) (i : Nat) (b : Bool) : Core := c.setCr Cr.stat (setBit (c.getCr Cr.stat) i b)
/-- LVL. -/
def Core.lvl (c : Core) : Nat := bits (c.getCr Cr.stat) 2 2
/-- INTRAP. -/
def Core.inTrap (c : Core) : Bool := c.statBit 4
/-- VGATED. -/
def Core.vgated (c : Core) : Bool := c.statBit 5

/-- The fields that an ESTAT register saves. -/
def Core.estat (c : Core) : Word := c.getCr Cr.stat &&& 0x1F

/-- Restores the fields of an ESTAT register; LVL 3 stands for no level and restores a free one (log entry 37). -/
def Core.restoreStat (c : Core) (e : Word) : Core :=
  let e := if bits e 2 2 = 3 then setBits e 2 2 (Config.restoredLevel e % 3) else e
  c.setCr Cr.stat ((c.getCr Cr.stat &&& ~~~0x1F) ||| (e &&& 0x1F))

/-- Accumulators when FTC_CTL.DSPM takes the value `new` (R223). -/
def Core.setDspm (c : Core) (new : Bool) : Core :=
  if new || !c.dsp24 then c
  else (List.range 4).foldl (fun (c : Core) i => c.putA i (satInt 40 (c.getA i))) c

/-- Pending control writes take effect (R230): at `csync` and at a trap or interrupt entry. -/
def Core.applyPending (c : Core) : Core :=
  let c := match c.ctlNew with
    | some v => (c.setDspm (bit v 1)).setCr Cr.ctl v
    | none => c
  let c := c.winNew.foldl (fun (c : Core) w => c.setCr (Cr.win + w.1) w.2) c
  { c with ctlNew := none, winNew := [] }.setStat 7 false

/-- Bits of a control register that a write changes; a register not named here is read only (R248, R250). -/
def crMask (r : Nat) : Word :=
  if r = 2 || r = 4 then 0x7F
  else if 5 ≤ r && r ≤ 10 then 0xFFFF
  else if r = 14 || r = 16 || r = 18 then 0xFFFF03FF
  else if r = 15 || r = 17 || r = 19 || r = 26 then 0xFFFFFFFF
  else if 27 ≤ r && r ≤ 29 then 0x1F
  else 0

/-- `movc.w` (10 R279). -/
def Core.crWrite (c : Core) (r : Nat) (v : Word) : Core :=
  if r = 0 then { c with ctlNew := some (v &&& 3) }.setStat 7 true
  else if r = 1 then
    let s := c.getCr 1
    c.setCr 1 (setBits (if bit v 8 then setBit s 8 false else s) 0 2 (bits v 0 2))
  else if r = 3 then c.setCr 3 (c.getCr 3 &&& ~~~(v &&& 0x7F))
  else if 20 ≤ r && r ≤ 23 then { c with winNew := Tbl.put c.winNew (r - 20) (v &&& 0x7FFFF) }.setStat 7 true
  else if r = 14 || r = 16 || r = 18 then { c with crHeld := Tbl.put c.crHeld r (v &&& crMask r) }
  else if r = 15 || r = 17 || r = 19 then
    (c.setCr (r - 1) ((Tbl.find c.crHeld (r - 1)).getD (c.getCr (r - 1)))).setCr r v
  else if crMask r = 0 then c
  else c.setCr r (v &&& crMask r)

/-- `movc.r` (10 R279): a pending control write is read back at once; a low half leaves a snapshot (R11). -/
def Core.crRead (c : Core) (r : Nat) : Core × Word :=
  if r = 0 then (c, c.ctlNew.getD (c.getCr 0))
  else if 20 ≤ r && r ≤ 23 then (c, (Tbl.find c.winNew (r - 20)).getD (c.getCr r))
  else
    match crWide r with
    | none => (c, c.getCr r)
    | some l =>
      if r = l then ({ c with crSnap := Tbl.put c.crSnap l (c.getCr (l + 1)) }, c.getCr l)
      else
        match Tbl.find c.crSnap l with
        | some w => ({ c with crSnap := Tbl.del c.crSnap l }, w)
        | none => (c, c.getCr r)

/-! ### Loop registers and the repeat cache (08 R227 to R230, 10 R277, R278) -/

/-- A loop register by the selector of R271. -/
def Core.getLoop (c : Core) (sel : Nat) : Word :=
  match sel with
  | 0 => c.ls0.setWidth 32
  | 1 => c.le0.setWidth 32
  | 2 => c.lc0
  | 3 => c.ls1.setWidth 32
  | 4 => c.le1.setWidth 32
  | _ => c.lc1

def Core.setLoop (c : Core) (sel : Nat) (v : Word) : Core :=
  match sel with
  | 0 => { c with ls0 := v.setWidth 16 }
  | 1 => { c with le0 := v.setWidth 16 }
  | 2 => { c with lc0 := v }
  | 3 => { c with ls1 := v.setWidth 16 }
  | 4 => { c with le1 := v.setWidth 16 }
  | _ => { c with lc1 := v }

/-- What `mov.l sd, lr` reads: the value written last. -/
def Core.readLoop (c : Core) (sel : Nat) : Word :=
  match c.late.reverse.find? (fun x => x.sel = sel) with
  | some x => if sel % 3 = 2 then x.value else x.value &&& 0xFFFF
  | none => c.getLoop sel

/-- One bundle passes for the writes that end checks do not see yet (R230). -/
def Core.stepLate (c : Core) : Core :=
  let now := c.late.filter (fun x => x.left ≤ 1)
  let c := now.foldl (fun (c : Core) x => c.setLoop x.sel x.value) c
  { c with late := (c.late.filter (fun x => 1 < x.left)).map (fun x => { x with left := x.left - 1 }) }

/-- Every such write takes effect: at a switch of the register bank. -/
def Core.flushLate (c : Core) : Core :=
  { c.late.foldl (fun (c : Core) x => c.setLoop x.sel x.value) c with late := [] }

/-- Whether a level's loop with this body is active. -/
def Core.loopActive (c : Core) (ls le : Nat) : Bool :=
  (c.lc0 ≠ 0 && c.ls0.toNat = ls && c.le0.toNat = le) || (c.lc1 ≠ 0 && c.ls1.toNat = ls && c.le1.toNat = le)

/-- The program counter moves; FTC_STAT.RCACHE follows (R228). -/
def Core.goto (c : Core) (pc : BitVec 16) : Core :=
  let hit := match c.rcLoop with
    | some (ls, le) => c.rcFull && ls ≤ pc.toNat && pc.toNat ≤ le && c.loopActive ls le
    | none => false
  { c with pc := pc }.setStat 6 hit

/-- The bundle at `pc` has executed: it fills the repeat cache in a loop's first iteration. -/
def Core.fill (c : Core) : Core :=
  match c.rcLoop with
  | some (ls, le) => if !c.rcFull && ls ≤ c.pc.toNat && c.pc.toNat ≤ le then { c with rcCount := c.rcCount + 1 } else c
  | none => c

/-- A loop continues at its start: the cache serves it when its body of at most 16 bundles is filled, else fills. -/
def Core.loopBack (c : Core) (ls le : BitVec 16) : Core :=
  let key := (ls.toNat, le.toNat)
  let c := if c.rcLoop = some key then { c with rcFull := c.rcFull || c.rcCount ≤ 16 }
    else { c with rcLoop := some key, rcCount := 0, rcFull := false }
  c.goto ls

/-- The next program counter when a bundle of `len` parcels completes without a taken branch (R227). -/
def Core.endCheck (c : Core) (len : Nat) : Core :=
  let next := c.pc + BitVec.ofNat 16 len
  let level1 (c : Core) : Core :=
    if c.lc1 ≠ 0 && c.le1 = c.pc then
      if c.lc1 = 1 then { c with lc1 := 0 }.goto next
      else { c with lc1 := c.lc1 - 1 }.loopBack c.ls1 c.le1
    else c.goto next
  if c.lc0 ≠ 0 && c.le0 = c.pc then
    if c.lc0 = 1 then level1 { c with lc0 := 0 }
    else { c with lc0 := c.lc0 - 1 }.loopBack c.ls0 c.le0
  else level1 c

/-- A bundle of `len` parcels completes, with the target of the branch it took, if any. -/
def Core.finish (c : Core) (len : Nat) (target : Option (BitVec 16)) : Core :=
  let c := { c with vrun := none }.fill.stepLate
  match target with
  | some t => c.goto t
  | none => c.endCheck len

/-- `loop` and `loopi` (09 R258, 10 R276): the level's registers at once. -/
def Core.setLevel (c : Core) (l : Nat) (ls le : BitVec 16) (count : Word) : Core :=
  let c := { c with
    late := c.late.filter (fun x => x.sel / 3 ≠ l)
    rcLoop := if count = 0 then c.rcLoop else some (ls.toNat, le.toNat)
    rcCount := if count = 0 then c.rcCount else 0
    rcFull := if count = 0 then c.rcFull else false }
  ((c.setLoop (3 * l) (ls.setWidth 32)).setLoop (3 * l + 1) (le.setWidth 32)).setLoop (3 * l + 2) count

/-! ### Data accesses (08 R224, 10 R280 to R282) -/

/-- A trap (R251): its cause, FTC_TVAL, the detail of a translation fault, and the element and latched base of a multi-element
instruction. -/
structure Trap where
  cause : Nat
  tval : Nat
  detail : Nat := 0
  elem : Option (Nat × Word) := none

/-- The context virtual address that a core address at or above 0x8000_0000 names (R224). -/
def Core.windowVa (c : Core) (a : Word) : Nat := (c.getCr (Cr.win + bits a 29 2)).toNat % 2 ^ 19 * 2 ^ 29 + bits a 0 29

def inWindow (a : Word) : Bool := bit a 31

/-- The offset of a core address in the core's own memories: X below 0x20000, Y above. -/
def ownOffset (a : Word) : Nat := bits a 0 18

/-- The trap of a failed access at context address `va`. -/
def accTrap (va : Nat) : AccFail → Trap
  | .xlat r _ => ⟨4, va, xlatDetail r, none⟩
  | .poison _ => ⟨5, va, 0, none⟩
  | .host _ => ⟨5, va, 0, none⟩

/-- A read of `n` bytes at a core address, naturally aligned. -/
def Hw.coreLoad (h : Hw) (c : Nat) (a : Word) (n : Nat) : Hw × Except Trap (List Byte) :=
  let k := h.core c
  if !inWindow a then
    match h.winRead 2 k.slot c (ownOffset a) n with
    | (h, .ok bs) => (h, .ok bs)
    | (h, .error _) => (h, .error ⟨5, a.toNat, 0, none⟩)
  else
    let va := k.windowVa a
    if k.run = .diag then (h, .error ⟨4, va, 3, none⟩)
    else if inAperture va then
      let src := RegSrc.core (Fin.ofNat 18 c)
      if n = 4 then
        let r := h.deviceRead src va
        (r.1, .ok (bytesOf 4 r.2.toNat))
      else (h.widthErr src false va, .ok (List.replicate n 0))
    else
      match h.vaRead c 2 k.slot va n with
      | (h, bs, none) => (h, .ok bs)
      | (h, _, some e) => (h, .error (accTrap va e))

/-- Whether a store to a core address may be made: what would trap does so before anything commits (R231). -/
def Hw.storeTrap (h : Hw) (c : Nat) (a : Word) : Hw × Option Trap :=
  let k := h.core c
  if !inWindow a then (h, none)
  else
    let va := k.windowVa a
    if k.run = .diag then (h, some ⟨4, va, 3, none⟩)
    else if inAperture va then (h, none)
    else
      match h.translate c 2 k.slot va true with
      | (h, .fail r) => (h, some ⟨4, va, xlatDetail r, none⟩)
      | (h, .ok _ _) => (h, none)

/-- A store that `storeTrap` lets through. -/
def Hw.coreStore (h : Hw) (c : Nat) (a : Word) (bs : List Byte) : Hw :=
  let k := h.core c
  if !inWindow a then h.winWrite 2 k.slot c (ownOffset a) bs
  else
    let va := k.windowVa a
    if inAperture va then
      let src := RegSrc.core (Fin.ofNat 18 c)
      if bs.length = 4 then h.deviceWrite src va (BitVec.ofNat 32 (natOf bs)) else h.widthErr src true va
    else (h.vaWrite c 2 k.slot va bs).1

/-! ### Traps (08 R231 to R234, 11 R311, R312) -/

/-- The context fault that a trap becomes without a handler (R233, R335). -/
def Hw.trapFault (h : Hw) (c : Nat) (t : Trap) : Hw :=
  let k := h.core c
  let va := if t.cause = 7 then k.windowVa (BitVec.ofNat 32 t.tval) else t.tval
  match t.cause with
  | 4 => h.ctxFault k.slot 2 t.detail c t.tval
  | 5 => h.ctxFault k.slot 3 0 c t.tval
  | 7 => if t.tval / 2 ^ 32 = 4 then h.ctxFault k.slot 2 t.detail c va
    else h.ctxFault k.slot 3 0 c (if bit (BitVec.ofNat 32 t.tval) 31 then va else t.tval % 2 ^ 32)
  | 8 => h.ctxFault k.slot 5 (t.tval / 2 ^ 24 % 64) (t.tval / 2 ^ 8 % 4) 0
  | n => h.ctxFault k.slot 1 n c 0

/-- The vector state that an entry saves (R250): ELEM, VALID, MODE, FORCED, BASE. -/
def vstateOf (elem : Nat) (mode forced : Bool) (base : Word) : Dword :=
  BitVec.ofNat 64 (elem + 128 + 256 * mode.toNat + 512 * forced.toNat + base.toNat * 65536)

def Core.setWide (c : Core) (r : Nat) (d : Dword) : Core := (c.setCr r (lowHalf d)).setCr (r + 1) (highHalf d)

/-- What leaves the core when a bundle does not go on: gathered and stalled slots and a running vector instruction. -/
def Core.dropBundle (c : Core) : Core := { c with slots := [], stall := none, vrun := none, synWait := none, synEnded := false }

/-- A trap of the bundle at the program counter (R231, R232, R233, 24 R642). -/
def Hw.trap (h : Hw) (c : Nat) (t : Trap) : Hw :=
  let h := (h.cancelOuts c false).modCore c (fun k =>
    let k := { k with ran := true }.dropBundle
    let k := if t.cause = 8 then { k with tags := Tbl.set .free k.tags (t.tval / 2 ^ 32) .free } else k
    (k.setCr Cr.cause (BitVec.ofNat 32 t.cause)).setWide Cr.tval (BitVec.ofNat 64 t.tval))
  let k := h.core c
  if k.getCr Cr.tvec = 0 || k.inTrap then
    if k.run = .diag then h.setCore c { k with run := .none, halted := true, trapped := true, dbgPc := k.pc }
    else h.trapFault c t
  else
    let vs := match t.elem with | some e => vstateOf e.1 true false e.2 | none => 0
    let k := (((k.setCr Cr.estatt k.estat).setCr Cr.tepc (k.pc.setWidth 32)).setWide Cr.vstatet vs).applyPending
    h.setCore c ((((k.setStat 0 false).setStat 1 false).setStat 4 true).goto ((k.getCr Cr.tvec).setWidth 16))

/-- A trap whose FTC_TVAL is the bundle's address: 1 ILLEGAL, 2 ILLEGAL_BUNDLE. -/
def Hw.bundleTrap (h : Hw) (c cause : Nat) : Hw := h.trap c ⟨cause, (h.core c).pc.toNat, 0, none⟩

/-! ### Multi-element vector instructions (08 R242 to R245, 11 R304 to R317) -/

/-- Whether an operation with this base address is multi-element (R242, R305). -/
def isMulti (op : CoreOp) (base : Word) : Bool :=
  match op with
  | .vld _ _ | .vst _ _ => inWindow base
  | .index _ _ _ _ | .red _ _ _ => true
  | _ => false

/-- The core address of element `e`: base + 2e, or base + 2 × index (R304, R308). -/
def Core.elemAddr (c : Core) (op : CoreOp) (base : Word) (e : Nat) : Word :=
  match op with
  | .index _ _ vi _ => base + BitVec.ofNat 32 (2 * lane (c.getV vi) e)
  | _ => base + BitVec.ofNat 32 (2 * e)

/-- The halfword that a lane's two bytes hold. -/
def Hw.loadLane (h : Hw) (c : Nat) (a : Word) (f : Hw → Nat → Hw) : Hw × Option Trap :=
  match h.coreLoad c a 2 with
  | (h, .ok bs) => (f h (natOf bs), none)
  | (h, .error t) => (h, some t)

/-- A store of one lane. -/
def Hw.storeLane (h : Hw) (c : Nat) (a : Word) (v : Nat) : Hw × Option Trap :=
  match h.storeTrap c a with
  | (h, none) => (h.coreStore c a (bytesOf 2 v), none)
  | (h, some t) => (h, some t)

/-- Element `e` of a multi-element instruction; a trap is the fault of that access. -/
def Hw.elemStep (h : Hw) (c : Nat) (op : CoreOp) (base : Word) (e : Nat) : Hw × Option Trap :=
  let k := h.core c
  let a := k.elemAddr op base e
  let toLane (v : Nat) (h : Hw) (x : Nat) : Hw := h.modCore c (fun k => k.putV v (setLane (k.getV v) e x))
  match op with
  | .vld v _ => h.loadLane c a (toLane v)
  | .vst v _ => h.storeLane c a (lane (k.getV v) e)
  | .index .gather v _ _ => h.loadLane c a (toLane v)
  | .index .scatter v _ _ => h.storeLane c a (lane (k.getV v) e)
  | .index .rmwAdd v _ _ =>
    match h.storeTrap c a with
    | (h, some t) => (h, some t)
    | (h, none) => h.loadLane c a (fun h x => h.coreStore c a (bytesOf 2 ((x + lane (k.getV v) e) % 65536)))
  | .red op d va => (h.setCore c (k.reduceStep op d va e), none)
  | _ => (h, none)

/-- The end step: a stream search counts its 64 elements (R314). -/
def Core.elemEnd (c : Core) (op : CoreOp) : Core :=
  match op with
  | .red .searchMin d _ | .red .searchMax d _ => c.putV d (searchEnd (c.getV d))
  | _ => c

/-- VECTOR_ELEMENT for the fault of element `e` (R311, R318). -/
def elemTrap (k : Core) (r : VRun) (t : Trap) : Trap :=
  let a := k.elemAddr r.op r.base r.elem
  ⟨7, a.toNat + t.cause * 2 ^ 32, t.detail, some (r.elem, r.base)⟩

/-- Up to `n` further elements of the instruction in progress; when the last is done the bundle completes. -/
def Hw.runElems (h : Hw) (c : Nat) : Nat → Hw
  | 0 => h
  | n + 1 =>
    let k := h.core c
    match k.vrun with
    | none => h
    | some r =>
      if 64 ≤ r.elem then h.setCore c ((k.elemEnd r.op).finish r.len r.target)
      else
        match h.elemStep c r.op r.base r.elem with
        | (h, some t) => h.trap c (elemTrap (h.core c) r t)
        | (h, none) => (h.modCore c (fun k => { k with vrun := some { r with elem := r.elem + 1 } })).runElems c n

/-- The instruction in progress, if any, runs to its end. -/
def Hw.endElems (h : Hw) (c : Nat) : Hw := h.runElems c 65

/-! ### What a slot of a bundle does (08 R229, R253) -/

/-- What a slot does beyond registers and stores. -/
inductive FtcAct where
  | none
  | branch (t : BitVec 16)
  | setLoop (l : Nat) (le : BitVec 16) (count : Word)
  | lbrk (l : Nat)
  | toLoop (sel : Nat) (v : Word)
  | crRead (r d : Nat)
  | crWrite (r : Nat) (v : Word)
  | csync | pmsync | rti | rtt | halt | vgate
  | sint (n : Nat)
  | issueBq (tag va : Nat) (ctl : Word)
  | freeTag (tag : Nat)
  | signal (sa : Word) (inc : Dword)
  | arm (sa : Word) (target : Dword)

/-- The effect of one slot on the state before the bundle: register writes by file, stores, and an action. -/
structure Fx where
  s : List (Nat × Word) := []
  p : List (Nat × Bool) := []
  g : List (Nat × Word) := []
  m : List (Nat × Word) := []
  a : List (Nat × Int) := []
  v : List (Nat × Vec) := []
  k : List (Nat × BitVec 128) := []
  w : List (Nat × BitVec 3072) := []
  stores : List (Word × List Byte) := []
  act : FtcAct := .none
  multi : Option (CoreOp × Word × Nat) := none

/-- The core address of a load or store, and the write of POST (09 R271). -/
def Core.address (c : Core) (f : AddrForm) : Word × List (Nat × Word) :=
  match f with
  | .plain g => (c.getG g, [])
  | .post g m => (c.getG g, [(g.val, c.getG g + c.getM m)])
  | .indexed g m => (c.getG g + c.getM m, [])

/-- The 64-bit operand of a register pair (16 R436, R438). -/
def Core.pair (c : Core) (b : Fin 32) : Dword := dword (c.getS b) (c.getS (b.val + 1))

/-- A branch target (R257). -/
def Core.target (c : Core) (off : BitVec 16) : BitVec 16 := c.pc + off

/-- The operations on registers and control alone; `len` is the bundle's length. -/
def Core.plainFx (c : Core) (len : Nat) (op : CoreOp) : Fx :=
  let next := c.pc + BitVec.ofNat 16 len
  let acc := accWidth c.dsp24
  let operand (r : Fin 32) : Int := sigOperand c.dsp24 (c.getS r)
  match op with
  | .alu op d a b => { s := [(d.val, aluEval op (c.getS a) (c.getS b))] }
  | .mov d a => { s := [(d.val, c.getS a)] }
  | .imm op d n => { s := [(d.val, immEval op (c.getS d) n)] }
  | .shift op d n => { s := [(d.val, shiftEval op (c.getS d) n.toNat)] }
  | .cmp op pd a b => { p := [(pd.val, cmpEval op (c.getS a) (c.getS b))] }
  | .cmpImm lt pd a n =>
    let i := simm 6 n.toNat
    { p := [(pd.val, if lt then cmpEval .lt (c.getS a) i else cmpEval .eq (c.getS a) i)] }
  | .pand pd pa pb => { p := [(pd.val, c.getP pa && c.getP pb)] }
  | .por pd pa pb => { p := [(pd.val, c.getP pa || c.getP pb)] }
  | .pnot pd pa => { p := [(pd.val, !c.getP pa)] }
  | .br off => { act := .branch (c.target off) }
  | .call off => { s := [(31, next.setWidth 32)], act := .branch (c.target off) }
  | .jr a => { act := .branch ((c.getS a).setWidth 16) }
  | .loop l sc off => { act := .setLoop l (next + off.setWidth 16) (c.getS sc) }
  | .loopi l n off => { act := .setLoop l (next + off.setWidth 16) (n.setWidth 32) }
  | .lbrk l => { act := .lbrk l }
  | .movToLoop sel s => { act := .toLoop sel.toNat (c.getS s) }
  | .movFromLoop sel s => { s := [(s.val, c.readLoop sel.toNat)] }
  | .movcR s r => { act := .crRead r s }
  | .movcW s r => { act := .crWrite r (c.getS s) }
  | .csync => { act := .csync }
  | .pmsync => { act := .pmsync }
  | .rti => { act := .rti }
  | .rtt => { act := .rtt }
  | .halt => { act := .halt }
  | .vgate => { act := .vgate }
  | .sint n => { act := .sint n.toNat }
  | .adda g (.imm n) => { g := [(g.val, c.getG g + simm 10 n.toNat)] }
  | .adda g (.modifier m) => { g := [(g.val, c.getG g + c.getM m)] }
  | .movG g s => { g := [(g.val, c.getS s)] }
  | .movS s g => { s := [(s.val, c.getG g)] }
  | .movM m s => { m := [(m.val, c.getS s)] }
  | .bqPoll d t =>
    { s := [(d.val, match Tbl.get TagState.free c.tags t with | .free => 0 | .busy => 1 | .done _ _ => 2)] }
  | .bqWait d t =>
    match Tbl.get TagState.free c.tags t with
    | .done st _ => { s := [(d.val, st)], act := .freeTag t }
    | _ => { s := [(d.val, 0)] }
  | .bqStat d t =>
    match Tbl.get TagState.free c.tags t with
    | .done st _ => { s := [(d.val, st)], act := .freeTag t }
    | _ => { s := [(d.val, 0)] }
  | .bqIssue t s1 s2 => { act := .issueBq t (c.windowVa (c.getS s1)) (c.getS s2) }
  | .synSig a b => { act := .signal (c.getS a) (c.pair b) }
  | .synArm a b => { act := .arm (c.getS a) (c.pair b) }
  | .macr op d a b => { a := [(d.val, macEval op acc (c.getA d) (operand a) (operand b))] }
  | .satA d a n =>
    { s := [(d.val, toWord (satInt (opWidth c.dsp24) (roundShift (c.getA a) n.toNat)))] }
  | .movA a s => { a := [(a.val, (c.getS s).toInt)] }
  | .accAdd sub n m => { a := [(n.val, satInt acc (if sub then c.getA n - c.getA m else c.getA n + c.getA m))] }
  | .shla a n => { a := [(a.val, shlaEval acc (c.getA a) (signed 6 n.toNat))] }
  | .clr a => { a := [(a.val, 0)] }
  | .vop op d a b => { v := [(d.val, vecEval op (c.getV a) (c.getV b))] }
  | .vopMasked op d b k z => { v := [(d.val, vecMasked op (c.getV d) (c.getV b) (c.getK k) z)] }
  | .vmovMasked d b k z => { v := [(d.val, vmovMaskedEval (c.getV d) (c.getV b) (c.getK k) z)] }
  | .vmov d a => { v := [(d.val, c.getV a)] }
  | .vshift op d a n => { v := [(d.val, vshiftEval op (c.getV a) n.toNat)] }
  | .vmac op w a b => { w := [(w.val, vmacEval op (c.getW w) (c.getV a) (c.getV b))] }
  | .vclr w => { w := [(w.val, 0)] }
  | .vnarrow d w n => { v := [(d.val, vnarrowEval (c.getW w) n.toNat)] }
  | .vcmp op k a b => { k := [(k.val, vcmpEval op (c.getV a) (c.getV b))] }
  | .kand kd ka kb => { k := [(kd.val, c.getK ka &&& c.getK kb)] }
  | .kor kd ka kb => { k := [(kd.val, c.getK ka ||| c.getK kb)] }
  | .knot kd ka => { k := [(kd.val, ~~~(c.getK ka))] }
  | .vbcast d a => { v := [(d.val, ofLanes (fun _ => (c.getS a).toNat))] }
  | .vext d a b => { s := [(d.val, toWord (laneInt (c.getV a) (bits (c.getS b) 0 6)))] }
  | _ => {}

/-- Sizes and extension of loads and stores (10 R281). -/
def sizeOf_ : MemSize → Nat
  | .b | .bu => 1
  | .h | .hu => 2
  | .w => 4

def extend (sz : MemSize) (v : Nat) : Word :=
  match sz with
  | .b => simm 8 v
  | .h => simm 16 v
  | _ => BitVec.ofNat 32 v

/-- A memory operand of the signal unit (10 R285): a halfword or word of X (`off` 0) or Y memory at g[16:0], or the
program-memory word at the parcel address in g. -/
def Hw.sigLoad (h : Hw) (c : Nat) (prog : Bool) (off : Nat) (g : Word) : Hw × Except Trap Int :=
  let k := h.core c
  let n := if k.dsp24 then 4 else 2
  if prog then
    let p := bits g 1 15 * 2
    match h.winRead 2 k.slot c (0x40000 + 2 * p) 4 with
    | (h, .ok bs) => (h, .ok (signed (opWidth k.dsp24) (fieldOf bs 0 2 * 16384 + fieldOf bs 2 2)))
    | (h, .error _) => (h, .error ⟨5, p, 0, none⟩)
  else if g.toNat % n ≠ 0 then (h, .error ⟨3, g.toNat, 0, none⟩)
  else
    match h.winRead 2 k.slot c (off + bits g 0 17) n with
    | (h, .ok bs) => (h, .ok (signed (opWidth k.dsp24) (natOf bs)))
    | (h, .error _) => (h, .error ⟨5, g.toNat, 0, none⟩)

/-- A dual fetch (10 R285, R286). -/
def Hw.dualFx (h : Hw) (c : Nat) (op : MacOp) (x : Dual) : Hw × Except Trap Fx :=
  let k := h.core c
  let gx := k.getG x.gx
  let gy := k.getG (8 + x.gy.val)
  match h.sigLoad c (decide (x.src = .py)) 0 gx with
  | (h, .error t) => (h, .error t)
  | (h, .ok a) =>
    match h.sigLoad c (decide (x.src = .xp)) 0x20000 gy with
    | (h, .error t) => (h, .error t)
    | (h, .ok b) =>
      (h, .ok {
        a := [(x.acc.val, macEval op (accWidth k.dsp24) (k.getA x.acc) a b)]
        g := [(x.gx.val, gx + k.getM x.mx), (8 + x.gy.val, gy + k.getM (4 + x.my.val))] })

/-- A vector load from the core's own memories: one access at issue (11 R305). -/
def Hw.ownVector (h : Hw) (c : Nat) (base : Word) : Nat → Hw × Except Trap (List Nat)
  | 0 => (h, .ok [])
  | n + 1 =>
    match h.coreLoad c (base + BitVec.ofNat 32 (2 * (63 - n))) 2 with
    | (h, .error t) => (h, .error t)
    | (h, .ok bs) =>
      match h.ownVector c base n with
      | (h, .error t) => (h, .error t)
      | (h, .ok l) => (h, .ok (natOf bs :: l))

/-- A vector store to the core's own memories. -/
def vectorStores (base : Word) (v : Vec) : List (Word × List Byte) :=
  (List.range 64).map (fun e => (base + BitVec.ofNat 32 (2 * e), bytesOf 2 (lane v e)))

def align (a : Word) : Trap := ⟨3, a.toNat, 0, none⟩

/-- Whether a status word reports a fault that nothing has read (12 R334, R341). -/
def tagFault : TagState → Option Word
  | .done st quiet => if bit st 30 && !quiet then some st else none
  | _ => none

def bqFault (tag : Nat) (st : Word) : Trap := ⟨8, st.toNat + tag * 2 ^ 32, 0, none⟩

/-- The lowest tag with an unread faulted status (12 R335). -/
def Core.firstFault (c : Core) : Option Trap :=
  (List.range 16).findSome? (fun t => (tagFault (Tbl.get TagState.free c.tags t)).map (bqFault t))

/-- The program memory slot that a return re-issues (08 R243, 09 R268): the multi-element instruction of the bundle at EPC. -/
def Core.reissue (c : Core) (epc : Nat) (base : Word) : Option (CoreOp × Nat) :=
  match decodeBundle c.fetchAt epc with
  | .error _ => none
  | .ok l => (l.find? (fun s => isMulti s.op base)).map (fun s => (s.op, lengthOf l))

/-- ILLEGAL of a misused return (08 R232, R239, 09 R268); `vs` is the level's VSTATE, `epc` its EPC. -/
def Core.returnTrap (c : Core) (ok : Bool) (vs : Dword) (epc : Word) : Option Trap :=
  if !ok then some ⟨1, c.pc.toNat, 0, none⟩
  else if bit vs 7 && (c.reissue epc.toNat (BitVec.ofNat 32 (bits vs 16 48))).isNone then some ⟨1, epc.toNat, 0, none⟩
  else none

/-- The registers a return of the present level uses: ESTAT, EPC and VSTATE. -/
def returnRegs (lvl : Nat) : Nat × Nat × Nat :=
  if lvl = 2 then (Cr.estat2, Cr.epc2, Cr.vstate2) else (Cr.estat1, Cr.epc1, Cr.vstate1)

/-- The traps of the A and L units' operations at issue (R231, R290, R334, R642). -/
def Core.plainTrap (c : Core) (op : CoreOp) : Option Trap :=
  let diag := decide (c.run = .diag)
  let illegal : Trap := ⟨1, c.pc.toNat, 0, none⟩
  match op with
  | .brk n => some ⟨0x10, n.toNat, 0, none⟩
  | .rti =>
    let r := returnRegs c.lvl
    c.returnTrap (c.lvl ≠ 0) (c.wide r.2.2) (c.getCr r.2.1)
  | .rtt => c.returnTrap c.inTrap (c.wide Cr.vstatet) (c.getCr Cr.tepc)
  | .halt => c.firstFault
  | .sint _ | .synSig _ _ | .synWait _ _ | .synArm _ _ => if diag then some illegal else none
  | .bqIssue t s1 _ =>
    let ptr := c.getS s1
    if diag then some illegal
    else if Tbl.get TagState.free c.tags t = .busy then some ⟨6, t, 0, none⟩
    else if !inWindow ptr || bits ptr 0 6 ≠ 0 then some (align ptr)
    else none
  | .bqWait _ t | .bqStat _ t => (tagFault (Tbl.get TagState.free c.tags t)).map (bqFault t)
  | _ => none

/-- What a slot whose guard holds does, or its trap, from the state before the bundle. Loads are made here. -/
def Hw.opFx (h : Hw) (c len : Nat) (x : Slot) : Hw × Except Trap Fx :=
  let k := h.core c
  match x.op with
  | .ld sz s m =>
    let (a, g) := k.address m
    if a.toNat % sizeOf_ sz ≠ 0 then (h, .error (align a))
    else
      match h.coreLoad c a (sizeOf_ sz) with
      | (h, .error t) => (h, .error t)
      | (h, .ok bs) => (h, .ok { s := [(s.val, extend sz (natOf bs))], g := g })
  | .st sz s m =>
    let (a, g) := k.address m
    if a.toNat % sizeOf_ sz ≠ 0 then (h, .error (align a))
    else
      match h.storeTrap c a with
      | (h, some t) => (h, .error t)
      | (h, none) => (h, .ok { stores := [(a, bytesOf (sizeOf_ sz) (k.getS s).toNat)], g := g })
  | .dual op d => h.dualFx c op d
  | .vld v m =>
    let (a, g) := k.address m
    if a.toNat % 2 ≠ 0 then (h, .error (align a))
    else if inWindow a then (h, .ok { g := g, multi := some (x.op, a, x.upto) })
    else
      match h.ownVector c a 64 with
      | (h, .error t) => (h, .error t)
      | (h, .ok l) => (h, .ok { v := [(v.val, ofLanes (fun i => nth 0 l i))], g := g })
  | .vst v m =>
    let (a, g) := k.address m
    if a.toNat % 2 ≠ 0 then (h, .error (align a))
    else if inWindow a then (h, .ok { g := g, multi := some (x.op, a, x.upto) })
    else (h, .ok { stores := vectorStores a (k.getV v), g := g })
  | .index _ _ _ g =>
    if (k.getG g).toNat % 2 ≠ 0 then (h, .error (align (k.getG g))) else (h, .ok { multi := some (x.op, k.getG g, x.upto) })
  | .red _ _ _ => (h, .ok { multi := some (x.op, 0, x.upto) })
  | op =>
    match k.plainTrap op with
    | some t => (h, .error t)
    | none => (h, .ok (k.plainFx len op))

/-- The slots' effects in parcel order, or the first trap; a slot whose guard is false has none (R253). -/
def Hw.allFx (h : Hw) (c len : Nat) : List Slot → Hw × Except Trap (List Fx)
  | [] => (h, .ok [])
  | x :: t =>
    let r := if (h.core c).getP x.guard = !x.neg then h.opFx c len x else (h, .ok {})
    match r with
    | (h, .error e) => (h, .error e)
    | (h, .ok f) =>
      match h.allFx c len t with
      | (h, .error e) => (h, .error e)
      | (h, .ok l) => (h, .ok (f :: l))

/-! ### Commit -/

def Core.applyRegs (c : Core) (f : Fx) : Core :=
  let c := f.s.foldl (fun (c : Core) x => c.putS x.1 x.2) c
  let c := f.p.foldl (fun (c : Core) x => c.putP x.1 x.2) c
  let c := f.g.foldl (fun (c : Core) x => c.putG x.1 x.2) c
  let c := f.m.foldl (fun (c : Core) x => c.putM x.1 x.2) c
  let c := f.a.foldl (fun (c : Core) x => c.putA x.1 x.2) c
  let c := f.v.foldl (fun (c : Core) x => c.putV x.1 x.2) c
  let c := f.k.foldl (fun (c : Core) x => c.putK x.1 x.2) c
  f.w.foldl (fun (c : Core) x => c.putW x.1 x.2) c

/-- `syn.arm` (16 R439, R442). -/
def Hw.arm (h : Hw) (c : Nat) (sa : Word) (target : Dword) : Hw :=
  let k := h.core c
  let entry (h : Hw) : Hw := h.modCore c (fun k => { k with waits := k.waits ++ [⟨sa, target⟩] })
  if 8 ≤ k.waits.length then h.raise c 1
  else
    match h.synDest sa with
    | .local_ n =>
      if !h.mayUse k.slot n then (h.synRefuse ⟨k.slot, 2⟩ n true).raise c 1
      else if target ≤ (h.counter n).value then h.raise c 1
      else entry h
    | .remote m n =>
      match h.remoteWait c m n true sa target with
      | (h, true) => entry h
      | (h, false) => h.raise c 1
    | .nobody _ => h.raise c 1

/-- `sint n` (08 R241). -/
def Hw.softInterrupt (h : Hw) (c n : Nat) : Hw :=
  let k := h.core c
  if k.cores ≤ n then h.modCore c (·.setStat 8 true)
  else
    match h.runCore k.slot k.job n k.half with
    | some x => h.raise x 5
    | none => h

/-- A command enters the core's queue (10 R290, R291). -/
def Core.enqueue (c : Core) (tag va : Nat) (ctl : Word) : Core :=
  { c with
    tags := Tbl.set .free c.tags tag .busy
    queue := c.queue ++ [⟨tag, va, ctl, c.orders, Tbl.get 0 c.tagIssues tag⟩]
    orders := c.orders + 1
    tagIssues := Tbl.set 0 c.tagIssues tag (Tbl.get 0 c.tagIssues tag + 1) }

/-- An action of a bundle of `len` parcels that does not end it; the target of a branch it takes. -/
def Hw.doAct (h : Hw) (c len : Nat) : FtcAct → Hw × Option (BitVec 16)
  | .branch t => (h, some t)
  | .setLoop l le count =>
    let ls := (h.core c).pc + BitVec.ofNat 16 len
    let h := h.modCore c (·.setLevel l ls le count)
    if count = 0 then (h, some (le + BitVec.ofNat 16 ((h.core c).bundleLength le.toNat))) else (h, none)
  | .lbrk l =>
    (h.modCore c (fun k => { k with late := k.late.filter (fun x => x.sel ≠ 3 * l + 2) }.setLoop (3 * l + 2) 0), none)
  | .toLoop sel v => (h.modCore c (fun k => { k with late := k.late ++ [⟨sel, v, 4⟩] }), none)
  | .crRead r d => (h.modCore c (fun k => (k.crRead r).1.putS d (k.crRead r).2), none)
  | .crWrite r v => (h.modCore c (·.crWrite r v), none)
  | .csync => (h.modCore c (·.applyPending), none)
  | .pmsync => (h.modCore c (fun k => { k with fetch := k.pm, rcLoop := none, rcCount := 0, rcFull := false }), none)
  | .vgate => (h.modCore c (fun k => { k with waking := false }.setStat 5 true), none)
  | .sint n => (h.softInterrupt c n, none)
  | .issueBq tag va ctl => (h.modCore c (·.enqueue tag va ctl), none)
  | .freeTag t => (h.modCore c (fun k => { k with tags := Tbl.set .free k.tags t .free }), none)
  | .signal sa inc => (h.signalBy (h.core c).slot sa inc, none)
  | .arm sa target => (h.arm c sa target, none)
  | _ => (h, none)

/-- The registers that a fast-level entry or return switches (R238). -/
def Core.switchBank (c : Core) : Core :=
  let c := c.flushLate
  let pick {α : Type} (t : Tbl α) (lo hi : Nat) : Tbl α := t.filter (fun e => lo ≤ e.1 && e.1 < hi)
  let rest {α : Type} (t : Tbl α) (lo : Nat) : Tbl α := t.filter (fun e => e.1 < lo)
  { c with
    s := rest c.s 24 ++ c.shadow.s, p := rest c.p 1 ++ c.shadow.p, g := rest c.g 12 ++ c.shadow.g
    lc0 := c.shadow.lc0, lc1 := c.shadow.lc1, ls0 := c.shadow.ls0, ls1 := c.shadow.ls1, le0 := c.shadow.le0, le1 := c.shadow.le1
    shadow := ⟨pick c.s 24 32, pick c.p 1 8, pick c.g 12 16, c.lc0, c.lc1, c.ls0, c.ls1, c.le0, c.le1⟩ }

/-- A return to the bundle at EPC (08 R232, R239, R243, R246, 11 R316, R317): the saved fields, then the vector slot again when
VALID is set. -/
def Hw.doReturn (h : Hw) (c len estat epc vstate : Nat) (fast : Bool) : Hw :=
  let k := h.core c
  let vs := k.wide vstate
  let dest := (k.getCr epc).setWidth 16
  let k := k.finish len (some dest)
  let k := (if fast then k.switchBank else k).restoreStat (k.getCr estat)
  let k := k.goto dest
  if !bit vs 7 then h.setCore c k
  else
    let base : Word := BitVec.ofNat 32 (bits vs 16 48)
    match k.reissue dest.toNat base with
    | none => h.setCore c k
    | some (op, n) =>
      let e := if bit vs 8 then bits vs 0 7 else 0
      (h.setCore c (({ k with vrun := some ⟨dest, n, none, op, base, e⟩, waking := false }).setStat 5 false)).endElems c

/-- `halt` (08 R221, 24 R642): the part of the run ends. -/
def Hw.doHalt (h : Hw) (c len : Nat) : Hw :=
  let k := h.core c
  if k.run = .diag then
    let k := k.finish len none
    h.setCore c { k.dropBundle with run := .none, halted := true, dbgPc := k.pc }
  else h.endPart c

/-- The action that ends a bundle, if a slot has one. -/
def lastAct (l : List Fx) : FtcAct :=
  (l.findSome? (fun f => match f.act with | .rti => some .rti | .rtt => some .rtt | .halt => some .halt | _ => none)).getD .none

/-- Registers, then stores, then actions, in parcel order; answers the branch target. -/
def Hw.commit (h : Hw) (c len : Nat) (l : List Fx) : Hw × Option (BitVec 16) :=
  let h := h.modCore c (fun k => l.foldl (fun (k : Core) f => k.applyRegs f) { k with ran := true, synEnded := false })
  let h := l.foldl (fun (h : Hw) f => f.stores.foldl (fun (h : Hw) x => h.coreStore c x.1 x.2) h) h
  l.foldl (fun (r : Hw × Option (BitVec 16)) f =>
    match r.1.doAct c len f.act with
    | (h, some t) => (h, some t)
    | (h, none) => (h, r.2)) (h, none)

/-- A core in a run that has not stopped. -/
def Core.running (c : Core) : Bool := c.run ≠ .none && !c.halted

/-- The bundle's slots take effect: commit, then the multi-element instruction, then the end of the bundle. -/
def Hw.execute (h : Hw) (c : Nat) (slots : List Slot) (l : List Fx) : Hw :=
  let len := lengthOf slots
  let pc := (h.core c).pc
  let r := h.commit c len l
  let h := r.1
  if !(h.core c).running then h
  else
    let last := lastAct l
    let h := match l.findSome? (fun f => f.multi) with
      | none => h
      | some (op, base, upto) =>
        let h := h.modCore c (fun k => { k with vrun := some ⟨pc, len, r.2, op, base, 0⟩ })
        match last with
        | .none => if upto < 64 then h.runElems c upto else h.endElems c
        | _ => h.runElems c 64
    let k := h.core c
    let done := l.all (fun f => f.multi.isNone)
    match last with
    | .none => if done then h.setCore c (k.finish len r.2) else h
    | act =>
      if !k.running || k.pc ≠ pc then h
      else
        let h := match k.vrun with | some v => h.setCore c { k.elemEnd v.op with vrun := none } | none => h
        match act with
        | .rti =>
          let x := returnRegs (h.core c).lvl
          h.doReturn c len x.1 x.2.1 x.2.2 ((h.core c).lvl = 2)
        | .rtt => h.doReturn c len Cr.estatt Cr.tepc Cr.vstatet false
        | _ =>
          if (h.core c).tags.any (fun e => e.2 = TagState.busy) then
            h.modCore c (fun k => { k with stall := some [⟨0, false, false, .halt, 64⟩] })
          else h.doHalt c len

/-! ### Stalls (R247, 10 R292, 14 R376) -/

/-- Passes that an engine queues at most: module-wide, and of one context (R376). -/
def engineLimits : Engine → Nat × Nat
  | .hdg => (64, 16)
  | .prv => (16, 8)

/-- Whether a submission of the core waits beyond its engine's limits. -/
def Hw.submissionHeld (h : Hw) (c : Nat) (e : Engine) : Bool :=
  let w := h.engine e
  let lim := engineLimits e
  (List.range w.waiting.length).any (fun i =>
    match w.waiting[i]? with
    | none => false
    | some p =>
      let before := w.queue ++ w.waiting.take i
      p.core = c && (lim.1 ≤ before.length || lim.2 ≤ (before.filter (fun q => q.slot = p.slot)).length))

/-- Whether a slot stores through a window. -/
def Core.windowStore (c : Core) (op : CoreOp) : Bool :=
  match op with
  | .st _ _ m | .vst _ m => inWindow (c.address m).1
  | _ => false

/-- Whether a bundle needs the vector unit, for its own slot or for a slot that its return re-issues. -/
def needsVector (slots : List Slot) : Bool :=
  slots.any (fun s => unitOf s.op = .v)

/-- The check of a `syn.wait` at its block: ended, or the wait begins (R438, R442). -/
def Hw.synWaits (h : Hw) (c : Nat) (sa : Word) (target : Dword) : Hw × Bool :=
  let k := h.core c
  let begin (h : Hw) : Hw := h.modCore c (fun k => { k with synWait := some (sa, target) })
  if k.run = .diag || k.synEnded then (h, false)
  else if k.synWait.isSome then (h, true)
  else
    match h.synDest sa with
    | .local_ n =>
      if !h.mayUse k.slot n then (h.synRefuse ⟨k.slot, 2⟩ n true, false)
      else if target ≤ (h.counter n).value then (h, false)
      else (begin h, true)
    | .remote m n =>
      match h.remoteWait c m n false sa target with
      | (h, true) => (begin h, true)
      | (h, false) => (h, false)
    | .nobody _ => (h, false)

/-- Whether a slot whose guard holds makes its bundle stall. -/
def Hw.slotStalls (h : Hw) (c : Nat) (x : Slot) : Hw × Bool :=
  let k := h.core c
  if k.getP x.guard ≠ !x.neg then (h, false)
  else
    match x.op with
    | .bqWait _ t => (h, Tbl.get TagState.free k.tags t = .busy)
    | .halt => (h, k.tags.any (fun e => e.2 = TagState.busy))
    | .synWait a b => h.synWaits c (k.getS a) (k.pair b)
    | op => (h, k.windowStore op && (h.submissionHeld c .hdg || h.submissionHeld c .prv))

def Hw.anyStalls (h : Hw) (c : Nat) : List Slot → Hw × Bool
  | [] => (h, false)
  | x :: t =>
    match h.slotStalls c x with
    | (h, true) => (h, true)
    | (h, false) => h.anyStalls c t

/-- A checked bundle issues, stalls or traps. A gated vector unit begins to wake (R247); on a diagnostic run it is awake at
once. -/
def Hw.issue (h : Hw) (c : Nat) (slots : List Slot) : Hw :=
  let k := h.core c
  let vec := needsVector slots
  let h := if vec && k.vgated then
      h.setCore c (if k.run = .diag then k.setStat 5 false else { k with waking := true }) else h
  let k := h.core c
  if vec && (k.vgated || h.col.waking.contains c) then h.setCore c { k with stall := some slots, slots := [] }
  else
    match h.anyStalls c slots with
    | (h, true) => h.modCore c (fun k => { k with stall := some slots, slots := [] })
    | (h, false) =>
      let h := h.modCore c (fun k => { k with stall := none, slots := [] })
      match h.allFx c (lengthOf slots) slots with
      | (h, .error t) => h.trap c t
      | (h, .ok l) => h.execute c slots l

/-- A complete bundle: its parcels are fetched, then steps 2 and 3 of R255. -/
def Hw.checkedIssue (h : Hw) (c : Nat) (slots : List Slot) : Hw :=
  let k := h.core c
  match h.winRead 2 k.slot c (0x40000 + 2 * k.pc.toNat) (2 * lengthOf slots) with
  | (h, .error g) => h.trap c ⟨5, max k.pc.toNat ((g - (coreWindow c + 0x40000)) / 2), 0, none⟩
  | (h, .ok _) =>
    if slots.any (fun s => !opLegal s.op) then h.bundleTrap c 1
    else if !bundleOk slots then h.bundleTrap c 2
    else h.issue c slots

/-- One instruction reaches core `c`: it joins the bundle, which issues with the instruction that has S = 1 (R254, R255). -/
def Hw.instr (h : Hw) (c : Nat) (x : Slot) (stop : Bool) : Hw :=
  let k := h.core c
  if !k.running || k.stall.isSome then h
  else
    let h := h.endElems c
    let k := h.core c
    let slots := k.slots ++ [x]
    if !k.running then h
    else if 65536 < k.pc.toNat + lengthOf slots then h.bundleTrap c 2
    else if stop then h.checkedIssue c slots
    else if slots.length = 4 then h.bundleTrap c 2
    else h.setCore c { k with slots := slots }

/-- Bundles that stall try again. -/
def Hw.settleCore (h : Hw) (c : Nat) : Hw :=
  let k := h.core c
  match k.stall with
  | some slots => if k.running then h.issue c slots else h
  | none => h

/-- After a command that may have ended a stall, every core whose bundle stalls tries again. -/
def Hw.settle (h : Hw) : Hw := (List.range 18).foldl (fun (h : Hw) c => h.settleCore c) h

/-- A command's effect, and what it lets go on. -/
def act (f : Hw → Hw) (s : State) : Host.Outcome State Fault Refusal := lift (fun h => (f h).settle) s

/-! ### Interrupts (08 R236 to R244) -/

/-- Sources that request a level. -/
def Core.requests (c : Core) (fast : Bool) : Word :=
  c.getCr Cr.ipend &&& c.getCr Cr.ien &&& (if fast then c.getCr Cr.ilvl else ~~~(c.getCr Cr.ilvl)) &&& 0x7F

/-- Whether a request of a level is taken (R236). -/
def Core.takes (c : Core) (fast : Bool) : Bool :=
  !c.inTrap && c.requests fast ≠ 0 &&
    (if fast then c.statBit 1 && c.lvl < 2 else c.statBit 0 && c.lvl = 0)

/-- Interrupt-atomic in restart mode (R244, R315). -/
def atomicOp : CoreOp → Bool
  | .index .gather v vi _ => v = vi
  | .index _ _ _ _ => true
  | .red .minidx _ _ | .red .maxidx _ _ | .red .searchMin _ _ | .red .searchMax _ _ => true
  | _ => false

/-- Whether a stop can be forced after 256 cycles: a scatter or read-modify-write with an element still to go in a window. -/
def Core.canForce (c : Core) (r : VRun) : Bool :=
  match r.op with
  | .index .scatter _ _ _ | .index .rmwAdd _ _ _ =>
    (List.range 64).any (fun e => r.elem ≤ e && inWindow (c.elemAddr r.op r.base e))
  | _ => false

/-- Entry to a level with the vector state `vs` (R237, R238). -/
def Core.enterLevel (c : Core) (fast : Bool) (vs : Dword) : Core :=
  let pc := c.pc
  let (es, ep, vr) := returnRegs (if fast then 2 else 1)
  let c := (((c.setCr es c.estat).setCr ep (pc.setWidth 32)).setWide vr vs).applyPending.dropBundle
  let c := if fast then (c.setStat 1 false).switchBank else c
  let c := (c.setStat 0 false).setCr Cr.stat (setBits ((c.setStat 0 false).getCr Cr.stat) 2 2 (if fast then 2 else 1))
  c.goto ((c.getCr (if fast then Cr.ivec2 else Cr.ivec1)).setWidth 16)

/-- An interrupt at a bundle boundary, at a stalled bundle, or inside a multi-element instruction (R236, R243, R244). -/
def Hw.interrupt (h : Hw) (c : Nat) (fast forced : Bool) : Hw :=
  let k := h.core c
  if !k.running || !k.slots.isEmpty || !k.takes fast || (!fast && k.takes true) then h
  else
    let enter (h : Hw) (vs : Dword) : Hw := (h.cancelOuts c false).modCore c (·.enterLevel fast vs)
    match k.vrun with
    | none => enter h 0
    | some r =>
      if bit (k.getCr Cr.ctl) 0 then enter h (vstateOf r.elem true false r.base)
      else if !atomicOp r.op then enter h (vstateOf 0 false false r.base)
      else if forced && k.canForce r then enter h (vstateOf r.elem true true r.base)
      else
        let h := h.endElems c
        let k := h.core c
        if k.running && k.takes fast then enter h 0 else h

/-- FTC_CYCLE reaches FTC_TCMP (R235): the clock moves to that cycle. -/
def Hw.timerMatch (h : Hw) (c : Nat) : Hw :=
  let k := h.core c
  if !k.running || !k.ran then h
  else
    let left := (k.getCr Cr.tcmp - k.getCr Cr.cycle).toNat
    let mhz := fintoicMhz h.col.point
    let ns := (left * 1000 + mhz - 1 - k.cycleFrac) / mhz
    let t := h.now + (if left = 0 then 0 else ns)
    if h.ticksRun && !h.beforeStall t then h else (h.advanceTo t).raise c 6

/-! ### Debug registers (24 R642, R649) -/

/-- GO: a halted core runs from FTC_DBGPC with no context. -/
def Hw.debugGo (h : Hw) (c : Nat) : Hw :=
  let k := h.core c
  if k.running then h
  else h.setCore c ({ k.dropBundle with run := .diag, halted := false, trapped := false, fetch := k.pm, slot := 0, job := 0 }.goto k.dbgPc)

/-- HALT: at the next bundle boundary. -/
def Hw.debugHalt (h : Hw) (c : Nat) : Hw :=
  let h := if (h.core c).run = .diag then h.endElems c else h
  let k := h.core c
  if k.run = .diag then h.setCore c { k.dropBundle with run := .none, halted := true, dbgPc := k.pc } else h

/-- STEP: one bundle, then halted. -/
def Hw.debugStep (h : Hw) (c : Nat) : Hw :=
  if (h.core c).running then h
  else
    let h := h.debugGo c
    let k := h.core c
    let h := match decodeBundle k.fetchAt k.pc.toNat with
      | .error cause => h.bundleTrap c cause
      | .ok slots => h.checkedIssue c slots
    h.debugHalt c

/-- A write of FTC_DBGCTLc: GO before STEP, HALT after GO (24, At the edges). -/
def Hw.dbgCtlWrite (h : Hw) (src : RegSrc) (c off : Nat) (v : Word) : Hw :=
  if h.cpc.retired.contains c then h.regErr src true 3 (regBase + off)
  else
    let h := if bit v 0 then h.debugGo c else if bit v 1 then h.debugStep c else h
    if bit v 2 then h.debugHalt c else h

end Sys2Proof.Machine
end

