-- ==== Sys2Proof/Machine/Bastaef.lean ====
section
/-! DEFINITION. The Bastaef arrays: binding and checking commands, running them, fit misses, widening, and completion
(12 R326 to R338, 13 R350, R351, R362 to R369). -/

namespace Sys2Proof.Machine

/-- The arrays' feed: shared SRAM only (R326). -/
def bstFeed : Feed := ⟨bstCache, 3, false⟩

/-! ### The header's ranges (R350) -/

/-- OVERLAP of 12 R342. -/
def Bst.overlap : Nat := 9

/-- The ranges that the header names, as far as the command uses them (R350). -/
def headRanges (d : BstDesc) (q : QHead) (wide : Bool) : List (Nat × Nat × Bool) :=
  [(d.q + 960, if usesZav d q then d.k else 0, false),
   (q.aside, if usesAside d then 8 * q.acnt else 0, false),
   (q.wside, if usesWside d then 8 * q.wcnt else 0, false),
   (q.rsin, if usesRsin d q then 2 * d.m else 0, false),
   (q.rsout, if usesRsout d q then 2 * d.m else 0, true),
   (q.wdesc, if !wide && q.wpol = 1 then 64 else 0, false)]

/-- What a checked command takes along: the header of its quantisation block and its pages. -/
structure Prepared where
  head : List Word
  pages : Tbl Nat

/-- Steps 4 to 10 of R330, the header and the ranges that it names (R350). -/
def Hw.feedPrep (h : Hw) (slot : Nat) (words : List Word) (wide : Bool) : Hw × Except FeedFail Prepared :=
  let d := bstDesc words
  if d.early words ≠ 0 then (h, .error (.reason (d.early words)))
  else
    match h.feedRanges bstFeed slot [] [(d.a, d.aBytes, false), (d.w, d.wBytes, false), (d.q, 960, false)] with
    | (h, .error e) => (h, .error e)
    | (h, .ok p) =>
      match h.feedRead bstFeed slot p d.q 64 with
      | (h, .error va) => (h, .error (.poison va))
      | (h, .ok bs) =>
        let head := wordsOf bs 16
        let q := qHead head
        match h.feedRanges bstFeed slot p [(d.side, if usesSide d q then 2048 else 0, true), (d.c, d.cBytes, true)] with
        | (h, .error e) => (h, .error e)
        | (h, .ok p) =>
          if d.overlaps then (h, .error (.reason Bst.overlap))
          else if d.m = 0 ∨ d.n = 0 then (h, .ok ⟨head, p⟩)
          else
            match h.feedRanges bstFeed slot p (headRanges d q wide) with
            | (h, .error e) => (h, .error e)
            | (h, .ok p) => (h, .ok ⟨head, p⟩)

/-- The context faults because of its feed: translation (R326) or poison (17 R472). -/
def Hw.feedFault (h : Hw) (slot a : Nat) : FeedFail → Hw
  | .xlat r va => h.xlatCtxFault slot a r va
  | .poison va => h.ctxFault slot 3 0 a va
  | .reason _ => h

/-! ### Completion (R330, R332, R334) -/

/-- A command's status is placed on its tag, and NOTIFY sets BQ. -/
def Hw.placeTag (h : Hw) (c tag order : Nat) (ctl status : Word) : Hw :=
  let h := h.modCore c (fun k => { k with
    tags := Tbl.set .free k.tags tag (.done status (bit ctl 6)), doneOrders := k.doneOrders ++ [order] })
  if bit ctl 0 then h.raise c 0 else h

/-- Whether the run of a core is one half of a PAIRED run. -/
def Hw.pairedRun (h : Hw) (slot job : Nat) : Bool :=
  h.col.plan.jobs.any (fun a => a.slot = slot && a.job = job && a.paired)

/-- A command of a paired run has finished without holding an array: its match need not wait for it (R367). -/
def Hw.notePair (h : Hw) (e : PairEnd) : Hw :=
  if h.pairedRun e.slot e.job then { h with pairEnds := h.pairEnds ++ [e] } else h

/-- The faulted status of a reason (R341). -/
def faultStatus (reason : Nat) : Word := BitVec.ofNat 32 (3 * 2 ^ 30 + reason * 2 ^ 24)

/-- A command fails a step: it completes at once (R330). `a` is the array it is bound to, if any. -/
def Hw.failCmd (h : Hw) (c : Nat) (q : QueuedCmd) (a : Option Nat) (reason : Nat) : Hw :=
  let k := h.core c
  let h := match a with | some a => h.bump (Reg.bstFaults a) 1 | none => h
  (h.placeTag c q.tag q.order q.ctl (faultStatus reason)).notePair ⟨k.slot, k.job, k.half, k.rank, q.tag, q.nth, false⟩

/-- A command completes without fault, in the order of R332. -/
def Hw.completeCmd (h : Hw) (a : Nat) (cmd : BstCmd) (status : Word) (crc : Dword) : Hw :=
  let h := h.bump (Reg.bstCmds a) 1
  let h := if bit cmd.ctl 5 && h.pairedRun cmd.slot cmd.job then
      h.modCore cmd.core (fun k => { k with digest := k.digest ^^^ crc }) else h
  let h := h.modCore cmd.core (fun k => { k with
    tags := Tbl.set .free k.tags cmd.tag (.done status (bit cmd.ctl 6)), doneOrders := k.doneOrders ++ [cmd.order] })
  let h := if bit cmd.ctl 17 then h.signal ⟨cmd.slot, 4⟩ (bits cmd.ctl 18 14) 1 else h
  if bit cmd.ctl 0 then h.raise cmd.core 0 else h

/-! ### Entry (R329, R330) -/

/-- The arrays of a core's run half, ascending. -/
def Hw.halfArrays (h : Hw) (k : Core) : List Nat :=
  match h.col.plan.jobs.find? (fun a => a.slot = k.slot && a.job = k.job) with
  | some a => (if k.half = 0 then a.arrays else a.arrays2).mergeSort (· ≤ ·)
  | none => []

/-- Commands bound to an array and not completed. -/
def BstArray.load (x : BstArray) : Nat := x.bound.length + x.run.isSome.toNat

/-- The array that a command binds to (R329): AIDX of the half, or with ANY the least loaded, ties to the lower. -/
def Hw.bindArray (h : Hw) (arrays : List Nat) (ctl : Word) : Option Nat :=
  if bit ctl 2 then
    let least := (arrays.map (fun a => (h.array a).load)).min?
    arrays.find? (fun a => least = some (h.array a).load)
  else arrays[bits ctl 3 2]?

/-- Step 1 of R329. -/
def ctlReserved (ctl : Word) : Bool :=
  bits ctl 7 10 ≠ 0 || (bit ctl 2 && bits ctl 3 2 ≠ 0) || (!bit ctl 17 && bits ctl 18 14 ≠ 0)

/-- The descriptor fetch: translated memory anywhere, in one read. -/
def Hw.fetchDesc (h : Hw) (slot va : Nat) : Hw × Except FeedFail (List Word) :=
  match h.vaRead bstCache 3 slot va 64 with
  | (h, bs, none) => (h, .ok (wordsOf bs 16))
  | (h, _, some (.xlat r v)) => (h, .error (.xlat r v))
  | (h, _, some e) => (h, .error (.poison e.va))

/-- A command passed its control word's checks: descriptor, operands, and its place on the array. -/
def Hw.enterCmd (h : Hw) (c : Nat) (q : QueuedCmd) (a : Nat) : Hw :=
  let k := h.core c
  match h.fetchDesc k.slot q.va with
  | (h, .error e) => h.feedFault k.slot a e
  | (h, .ok words) =>
    match h.feedPrep k.slot words false with
    | (h, .error (.reason r)) => h.failCmd c q (some a) r
    | (h, .error e) => h.feedFault k.slot a e
    | (h, .ok p) =>
      let cmd : BstCmd := ⟨c, k.rank, q.tag, q.ctl, q.order, q.nth, k.slot, k.job, k.half, words, p.head, p.pages⟩
      let d := bstDesc words
      if d.m = 0 ∨ d.n = 0 then
        (h.completeCmd a cmd (BitVec.ofNat 32 (2 ^ 31 + a * 256)) 0).notePair ⟨k.slot, k.job, k.half, k.rank, q.tag, q.nth, false⟩
      else h.modArray a (fun x => { x with bound := x.bound ++ [cmd] })

/-- BST_COMMAND_ENTRY: the feed takes the oldest command of a core's queue. -/
def Hw.bstEntry (h : Hw) (c : Nat) : Hw :=
  let k := h.core c
  match k.queue with
  | [] => h
  | q :: rest =>
    let h := h.modCore c (fun k => { k with queue := rest })
    let arrays := h.halfArrays k
    let a := h.bindArray arrays q.ctl
    if ctlReserved q.ctl then h.failCmd c q a 1
    else
      match a with
      | none => h.failCmd c q none 7
      | some a =>
        if bit q.ctl 17 && !h.mayUse k.slot (bits q.ctl 18 14) then h.failCmd c q (some a) 8
        else h.enterCmd c q a

/-! ### Running (R322, R323, R331, R351 to R361) -/

/-- Every entry of a list of 64-bit values. -/
def dwords (bs : List Byte) (n : Nat) : List Dword := (elems 8 bs n).map (BitVec.ofNat 64)

/-- Rows of A, rising. -/
def Hw.feedRows (h : Hw) (slot : Nat) (pages : Tbl Nat) (d : BstDesc) : List Nat → Hw × Except Nat (List (List Byte))
  | [] => (h, .ok [])
  | r :: t => feedThen (h.feedRead bstFeed slot pages (d.a + r * d.astride) (d.k * d.asize)) (fun h row =>
      feedThen (h.feedRows slot pages d t) (fun h rows => (h, .ok (row :: rows))))

/-- Reads what a command computes with: the column registers' sources first, then the lists, the weights and A. -/
def Hw.feedData (h : Hw) (slot : Nat) (pages : Tbl Nat) (d : BstDesc) (q : QHead) : Hw × Except Nat QData :=
  let rd (h : Hw) (va n : Nat) := h.feedRead bstFeed slot pages va n
  feedThen (rd h (d.q + 0x40) (2 * d.n)) fun h sw =>
  feedThen (rd h (d.q + 0x140) (if d.bias then 4 * d.n else 0)) fun h bias =>
  feedThen (rd h (d.q + 0x340) (if q.zoch then d.n else 0)) fun h zov =>
  feedThen (rd h (d.q + 960) (if usesZav d q then d.k else 0)) fun h zav =>
  feedThen (rd h q.aside (if usesAside d then 8 * q.acnt else 0)) fun h aside =>
  feedThen (rd h q.wside (if usesWside d then 8 * q.wcnt else 0)) fun h wside =>
  feedThen (rd h q.rsin (if usesRsin d q then 2 * d.m else 0)) fun h rsin =>
  feedThen (rd h d.w d.wBytes) fun h w =>
  feedThen (h.feedRows slot pages d (List.range d.m)) fun h rows =>
  (h, .ok { rows := rows, w := w.toArray, sw := elems 2 sw d.n, bias := wordsOf bias (if d.bias then d.n else 0)
            zov := zov.map BitVec.toInt, zav := zav.map BitVec.toInt
            aside := dwords aside (aside.length / 8), wside := dwords wside (wside.length / 8)
            rsin := elems 2 rsin (rsin.length / 2) })

/-- The column registers that a command loads (R351). -/
def loadColumns (old : Tbl (BitVec 24)) (d : BstDesc) (q : QHead) (data : QData) : Tbl (BitVec 24) :=
  (List.range d.n).foldl (fun t n =>
    let zo := if q.zoch then nth 0 data.zov n else q.zo
    Tbl.set 0 t n (BitVec.ofNat 24 (nth 0 data.sw n + wrap 8 zo * 65536))) old

/-- When a cycle count of an array that started at `t` has passed, in ns. -/
def atCycle (t cycles mhz : Nat) : Nat := t + (cycles * 1000 + mhz - 1) / mhz

/-- The writes of a run (R323, R355, R357): each row of C with its RSOUT halfword and side entries, when the row is written. -/
def runWrites (x : QWork) (o : QOut) (pages : Tbl Nat) (ends : List Nat) (t mhz : Nat) : List (Nat × Nat × List Byte) :=
  let at_ (r : Nat) : Nat := atCycle t (x.rowCycle ends r) mhz
  let put (r va : Nat) (bs : List Byte) : List (Nat × Nat × List Byte) :=
    (pieces pages va bs (bs.length / 4096 + 2)).map (fun p => (at_ r, p.1, p.2))
  o.rows.zipIdx.flatMap (fun row => put row.2 (x.d.c + row.2 * x.d.cstride) row.1) ++
  o.rsout.zipIdx.flatMap (fun s => put s.2 (x.q.rsout + 2 * s.2) (bytesOf 2 s.1)) ++
  o.side.zipIdx.flatMap (fun e => put e.1.1 (x.d.side + 8 * e.2) (bytesOf 8 e.1.2.toNat))

/-- What a run on array `a` that starts at `t` leaves. -/
def bstOut (x : QWork) (pages : Tbl Nat) (a : Nat) (half : Bool) (t mhz : Nat) : BstOut :=
  let o := x.run
  { cycles := x.d.cycles half x.extra, tiles := x.d.tilesRun half
    rows := runWrites x o pages (x.d.tileEnds half x.extra) t mhz
    crc := crc64 o.rows.flatten, status := x.status o a, fit := x.fitmiss o, stats := x.d.stats
    amax := BitVec.ofNat 64 (o.amax % 2 ^ 48), escIn := x.inputs, unmatched := x.aIn.unmatched + x.wIn.unmatched
    escOut := o.side.length, sat := o.sat }

/-- Reads and computes a run of a descriptor on array `a` now; the column registers are loaded. -/
def Hw.compute (h : Hw) (a slot : Nat) (words head : List Word) (pages : Tbl Nat) : Hw × Except Nat BstOut :=
  let d := bstDesc words
  let q := qHead head
  feedThen (h.feedData slot pages d q) fun h data =>
    let h := h.modArray a (fun x => { x with columns := loadColumns x.columns d q data })
    (h, .ok (bstOut (qWork d q data) pages a (h.halfWidth a) h.now (bastaefMhz h.col.point)))

/-- Every command that its core issued earlier has completed (R331). -/
def Hw.fenceOpen (h : Hw) (cmd : BstCmd) : Bool :=
  !bit cmd.ctl 1 || (List.range cmd.order).all (fun o => (h.core cmd.core).doneOrders.contains o)

/-- The commands that may start on an array: each core's first, if its fence is open. -/
def Hw.startable (h : Hw) (x : BstArray) : List BstCmd :=
  (x.bound.filter (fun c => x.bound.find? (fun y => y.core = c.core) = some c)).filter h.fenceOpen

/-- The next in round-robin order of rank (R331). -/
def nextRank (last : Nat) (l : List BstCmd) : Option BstCmd :=
  let least (l : List BstCmd) : Option BstCmd :=
    l.find? (fun c => (l.map (·.rank)).min? = some c.rank)
  match least (l.filter (fun c => last < c.rank)) with
  | some c => some c
  | none => least l

/-- BST_COMMAND_START (R331): the next bound command starts on a free array. -/
def Hw.bstStart (h : Hw) (a : Nat) : Hw :=
  let x := h.array a
  if x.run.isSome || x.drain.isSome then h
  else
    match nextRank x.lastRank (h.startable x) with
    | none => h
    | some cmd =>
      let h := h.setArray a { x with bound := x.bound.filter (fun c => c ≠ cmd), lastRank := cmd.rank }
      match h.compute a cmd.slot cmd.desc cmd.head cmd.pages with
      | (h, .error va) => h.feedFault cmd.slot a (.poison va)
      | (h, .ok out) =>
        let q := (bstDesc cmd.desc).q
        let r : BstRun := { cmd := cmd, phase := .narrow, startAt := h.now, out := out, result := placeOf cmd.pages (q + 56) }
        h.modArray a (fun x => { x with run := some r })

/-- The run in hand ends after `stall` stalled cycles: everything is written and counted (R327, R332, R346, R360, R374). -/
def Hw.endRun (h : Hw) (a : Nat) (r : BstRun) (stall : Nat) : Hw :=
  let o := r.out
  let h := h.advanceTo (atCycle r.startAt (o.cycles + stall) (bastaefMhz h.col.point))
  let h := o.rows.foldl (fun (h : Hw) w => h.placeWrite 3 r.cmd.slot w.2.1 w.2.2) h
  let h := h.modArray a (fun x => { x with
    busy := x.busy + BitVec.ofNat 64 o.tiles, stall := x.stall + BitVec.ofNat 64 stall
    amax := if o.stats then o.amax else x.amax })
  let h := (((h.bump (Reg.qntEscin a) o.escIn).bump (Reg.qntUnmatch a) o.unmatched).bump (Reg.qntEscout a) o.escOut)
  (h.bump (Reg.qntSatcnt a) o.sat).bump (Reg.qntFitmiss a) o.fit.toNat

/-! ### Fit misses and widening (R362 to R369) -/

/-- A run is marked degraded, once (R368). -/
def Hw.markDegraded (h : Hw) (cmd : BstCmd) : Hw :=
  let key := (cmd.slot, cmd.job, cmd.half)
  if h.degraded.contains key then h else ({ h with degraded := h.degraded ++ [key] }).bump Reg.qntDegr 1

def Hw.modRun (h : Hw) (a : Nat) (f : BstRun → BstRun) : Hw := h.modArray a (fun x => { x with run := x.run.map f })

/-- The command on array `a` takes an outcome (R373); those that deny or mark also mark its run. -/
def Hw.setOutcome (h : Hw) (a outcome reason : Nat) : Hw :=
  let h := h.modRun a (fun r => { r with phase := .finished, outcome := some outcome, reason := reason })
  match (h.array a).run with
  | some r => if outcome = 0 then h else h.markDegraded r.cmd
  | none => h

/-- The reason for which a wide descriptor fails R363, beyond the steps of R330. -/
def wideWrong (d w : BstDesc) : Bool :=
  !([(4, 4), (5, 5)].contains (w.afmt, w.wfmt)) || w.m ≠ d.m || w.n ≠ d.n || w.outf ≠ d.outf || w.escape

/-- The wide descriptor of a command is fetched and checked (R362, R363): a failure's reason, or the wide command. Where it
faults in translation or reads poison, the context faults. -/
def Hw.fetchWide (h : Hw) (a : Nat) (cmd : BstCmd) : Hw × Except (Option Nat) WideCmd :=
  let va := (qHead cmd.head).wdesc
  let read : Hw × Except FeedFail (List Byte) :=
    match h.feedRanges bstFeed cmd.slot cmd.pages [(va, 64, false)] with
    | (h, .error e) => (h, .error e)
    | (h, .ok p) => match h.feedRead bstFeed cmd.slot p va 64 with
      | (h, .error x) => (h, .error (.poison x))
      | (h, .ok bs) => (h, .ok bs)
  match read with
  | (h, .error (.reason r)) => (h, .error (some r))
  | (h, .error e) => (h.feedFault cmd.slot a e, .error none)
  | (h, .ok bs) =>
    let words := wordsOf bs 16
    match h.feedPrep cmd.slot words true with
    | (h, .error (.reason r)) => (h, .error (some r))
    | (h, .error e) => (h.feedFault cmd.slot a e, .error none)
    | (h, .ok p) =>
      if wideWrong (bstDesc cmd.desc) (bstDesc words) then (h, .error (some (Config.wideReason words).toNat))
      else (h, .ok ⟨words, p.head, p.pages⟩)

/-- Array cycles of a wide command, without stalls and side path (R364). -/
def WideCmd.cycles (w : WideCmd) (half : Bool) : Nat := (bstDesc w.desc).cycles half (fun _ => 0)

/-- The cost of a widening in nJ (R364). -/
def Hw.wideCost (h : Hw) (a : Nat) (w : WideCmd) : Nat := w.cycles (h.halfWidth a) * 9216 / 1024 * escale h.col.point / 1024

/-- Command `a` asks for its widening. -/
def Hw.askWide (h : Hw) (a : Nat) (w : WideCmd) (cost : Nat) : Hw :=
  h.modRun a (fun r => { r with phase := .request, wide := some w, cost := cost, askedAt := h.now })

/-- A FITMISS of a command that runs unpaired acts by WPOL (R362). -/
def Hw.fitAlone (h : Hw) (a : Nat) (r : BstRun) : Hw :=
  let wpol := (qHead r.cmd.head).wpol
  if !r.fit then h.modRun a (fun r => { r with phase := .finished })
  else if wpol = 2 then h.setOutcome a 5 0
  else if wpol = 1 then
    match h.fetchWide a r.cmd with
    | (h, .error (some e)) => h.setOutcome a 4 e
    | (h, .error none) => h
    | (h, .ok w) => (h.askWide a w (h.wideCost a w)).bump Reg.qntWreq 1
  else h.setOutcome a 0 0

/-- Whether two commands are matched by issue (R367). -/
def BstCmd.matches (c d : BstCmd) : Bool :=
  c.slot = d.slot && c.job = d.job && c.half ≠ d.half && c.rank = d.rank && c.tag = d.tag && c.nth = d.nth

/-- The array on which the match of a command holds its completion. -/
def Hw.heldMatch (h : Hw) (cmd : BstCmd) : Option (Nat × BstRun) :=
  (List.range 4).findSome? (fun b => match (h.array b).run with
    | some r => if r.phase = .held && cmd.matches r.cmd then some (b, r) else none
    | none => none)

/-- How the match of a command ended that holds no array: its FITMISS bit. -/
def Hw.endedMatch (h : Hw) (cmd : BstCmd) : Option Bool :=
  (h.pairEnds.find? (fun e => e.slot = cmd.slot && e.job = cmd.job && e.half ≠ cmd.half && e.rank = cmd.rank &&
    e.tag = cmd.tag && e.nth = cmd.nth)).map (·.fit)

/-- Whether the core that would issue the match still runs its half. -/
def Hw.matchRuns (h : Hw) (cmd : BstCmd) : Bool := (h.runCore cmd.slot cmd.job cmd.rank (1 - cmd.half)).isSome

/-- The halves disagree in FITMISS (R367, R501). -/
def Hw.fitDiffer (h : Hw) (cmd : BstCmd) (b : Bool) : Hw :=
  if b && !h.fitDiff.contains (cmd.slot, cmd.job) then { h with fitDiff := h.fitDiff ++ [(cmd.slot, cmd.job)] } else h

/-- Whether a command asks for a widening by itself. -/
def BstRun.asks (r : BstRun) : Bool := r.fit && (qHead r.cmd.head).wpol = 1

/-- Both outcomes of a pair's denial are the same. -/
def Hw.denyPair (h : Hw) (a b outcome reason : Nat) : Hw := (h.setOutcome a outcome reason).setOutcome b outcome reason

/-- The one request of a matched pair, for twice the cost of the first half's wide descriptor (R367). -/
def Hw.askPair (h : Hw) (a b : Nat) (r s : BstRun) : Hw :=
  let first := if r.cmd.half = 0 then (a, r) else (b, s)
  let second := if r.cmd.half = 0 then (b, s) else (a, r)
  match h.fetchWide first.1 first.2.cmd with
  | (h, .error (some e)) => h.denyPair a b 4 e
  | (h, .error none) => h
  | (h, .ok w) =>
    match h.fetchWide second.1 second.2.cmd with
    | (h, .error (some e)) => h.denyPair a b 4 e
    | (h, .error none) => h
    | (h, .ok v) =>
      let cost := 2 * h.wideCost first.1 w
      ((h.askWide first.1 w cost).askWide second.1 v cost).bump Reg.qntWreq 1

/-- A matched pair of which both have finished their narrow runs. -/
def Hw.decidePair (h : Hw) (a b : Nat) (r s : BstRun) : Hw :=
  let h := h.fitDiffer r.cmd (r.fit != s.fit)
  if r.asks || s.asks then h.askPair a b r s else (h.fitAlone a r).fitAlone b s

/-- A command whose match can no longer take part completes without a request. -/
def Hw.fitNoAsk (h : Hw) (a : Nat) (r : BstRun) : Hw :=
  if r.asks then h.modRun a (fun r => { r with phase := .finished }) else h.fitAlone a r

/-- NARROW_RUN_END (R362, R367). -/
def Hw.narrowEnd (h : Hw) (a stall : Nat) : Hw :=
  match (h.array a).run with
  | none => h
  | some r =>
    if r.phase ≠ .narrow then h
    else
      let h := h.endRun a r stall
      let r := { r with phase := .held, status := r.out.status, crc := r.out.crc, fit := r.out.fit, out := {} }
      let h := h.modRun a (fun _ => r)
      if !h.pairedRun r.cmd.slot r.cmd.job then h.fitAlone a r
      else
        match h.heldMatch r.cmd, h.endedMatch r.cmd with
        | some (b, s), _ => h.decidePair a b r s
        | none, some f => (h.fitDiffer r.cmd (r.fit != f)).fitNoAsk a r
        | none, none => if h.matchRuns r.cmd then h else h.fitNoAsk a r

/-- The other array whose command shares the request of `a`'s. -/
def Hw.pairArray (h : Hw) (a : Nat) (r : BstRun) : Option Nat :=
  (List.range 4).find? (fun b => match (h.array b).run with
    | some s => b ≠ a && s.phase = .request && r.cmd.matches s.cmd
    | none => false)

/-- Whether an earlier request is still to be decided (R364). -/
def Hw.earlierAsk (h : Hw) (a : Nat) (r : BstRun) : Bool :=
  (List.range 4).any (fun b => match (h.array b).run with
    | some s => b ≠ a && s.phase = .request && !r.cmd.matches s.cmd && (s.askedAt < r.askedAt || (s.askedAt = r.askedAt && b < a))
    | none => false)

/-- The time condition of a wide command on its array (R364): the limit is the predicted tick less 400 ns and WMARGIN. -/
def Hw.wideInTime (h : Hw) (a : Nat) (r : BstRun) : Bool :=
  match r.wide with
  | none => false
  | some w =>
    let stop := atCycle (r.askedAt + 16) (w.cycles (h.halfWidth a)) (bastaefMhz h.col.point)
    !h.frm.tailBegun && stop + 400 + 10 * bits (h.actReg Reg.qntCfg) 8 8 ≤ h.predictedTick

/-- A granted wide run starts at once (R366). -/
def Hw.startWide (h : Hw) (a : Nat) : Hw :=
  match (h.array a).run with
  | some r =>
    match r.wide with
    | none => h
    | some w =>
      match h.compute a r.cmd.slot w.desc w.head w.pages with
      | (h, .error va) => h.feedFault r.cmd.slot a (.poison va)
      | (h, .ok out) => h.modRun a (fun r => { r with phase := .wide, startAt := h.now, out := out, outcome := some 1 })
  | none => h

/-- WIDEN_DECISION (R364): Collier decides the request of array `a`'s command, 16 ns after it was made. A denial that lack of
energy causes by itself has outcome DENIED_ENERGY (13, At the edges), any other DENIED_TIME. -/
def Hw.widenDecision (h : Hw) (a : Nat) : Hw :=
  match (h.array a).run with
  | none => h
  | some r =>
    if r.phase ≠ .request || h.earlierAsk a r then h
    else
      let h := h.advanceTo (r.askedAt + 16)
      let arrays := a :: (h.pairArray a r).toList
      let timely := arrays.all (fun b => match (h.array b).run with | some s => h.wideInTime b s | none => false)
      let paid := bit (h.actReg Reg.qntCfg) 0 && r.cost ≤ h.wpool
      if timely && paid then
        arrays.foldl (fun (h : Hw) b => h.startWide b) (({ h with wpool := h.wpool - r.cost }).bump Reg.qntWgrant 1)
      else
        arrays.foldl (fun (h : Hw) b => h.setOutcome b (if paid then 3 else 2) 0) (h.bump Reg.qntWdeny 1)

/-- The outcome record (R372): OUTCOME, WIDEMISS, the reason, and COST held to 32 bits. A command that does not widen writes it
only with FITMISS (R366). -/
def BstRun.record (r : BstRun) : Option (List Byte) :=
  match r.outcome with
  | some o =>
    if o = 1 || r.fit then
      some (bytesOf 4 (o + r.widemiss.toNat * 256 + r.reason * 65536) ++ bytesOf 4 (min r.cost 0xFFFFFFFF))
    else none
  | none => none

/-- The end of a wide run: its status word stands, and its own FITMISS marks the run (R366, R368). -/
def Hw.wideEnd (h : Hw) (a : Nat) (r : BstRun) : Hw × BstRun :=
  let h := h.endRun a r 0
  let r := { r with phase := .finished, status := r.out.status, widemiss := r.out.fit, out := {} }
  (if r.widemiss then h.markDegraded r.cmd else h, r)

/-- BST_COMMAND_COMPLETE (R332, R366): the outcome record, the status, SYNC and NOTIFY. -/
def Hw.bstComplete (h : Hw) (a : Nat) : Hw :=
  match (h.array a).run with
  | none => h
  | some r =>
    let alone := r.phase = .held && !h.matchRuns r.cmd && (h.heldMatch r.cmd).isNone
    if r.phase ≠ .wide && r.phase ≠ .finished && !alone then h
    else
      let x := if r.phase = .wide then h.wideEnd a r else (h, r)
      let h := x.1
      let r := x.2
      let h := match r.record with
        | some bs => h.placeWrite 3 r.cmd.slot r.result bs
        | none => h
      let h := h.modArray a (fun x => { x with run := none })
      (h.completeCmd a r.cmd r.status r.crc).notePair
        ⟨r.cmd.slot, r.cmd.job, r.cmd.half, r.cmd.rank, r.cmd.tag, r.cmd.nth, r.fit⟩

/-! ### The commands -/

def execBstCommandEntry (c : Fin 18) (s : State) : Host.Outcome State Fault Refusal := act (·.bstEntry c) s

def execBstCommandStart (a : Fin 4) (s : State) : Host.Outcome State Fault Refusal := act (·.bstStart a) s

def execNarrowRunEnd (a : Fin 4) (stall : Nat) (s : State) : Host.Outcome State Fault Refusal := act (·.narrowEnd a stall) s

def execWidenDecision (a : Fin 4) (s : State) : Host.Outcome State Fault Refusal := act (·.widenDecision a) s

def execBstCommandComplete (a : Fin 4) (s : State) : Host.Outcome State Fault Refusal := act (·.bstComplete a) s

/-- BST_DRAIN_END (R338): the tile of a command that was cut off ends. -/
def execBstDrainEnd (a : Fin 4) (s : State) : Host.Outcome State Fault Refusal :=
  act (fun h => h.modArray a (fun x => { x with drain := none })) s

end Sys2Proof.Machine
end

