-- ==== Sys2Proof/Machine/Packet.lean ====
section
/-! DEFINITION. How the steward takes a packet: the opcode table, the checks of 03 R75 to R77 in their order, consumption,
and the reply or the wait that an opcode's own part answers (03 R68 to R80, 04 R89 to R96, 05 R153, R161). -/

namespace Sys2Proof.Machine

/-! ### The opcode table (04 R90, R96) -/

/-- A row of the opcode table: the opcode, whether it goes on function rings and on context rings, whether only the PF issues
it, whether its HANDLE names a context on a function ring, and the largest SLOTS (the smallest is 1, or 2 for JOB_DEFINE). -/
structure OpRow where
  code : Nat
  onFn : Bool
  onCtx : Bool
  pfOnly : Bool
  owned : Bool
  min : Nat
  max : Nat
deriving DecidableEq, Repr

/-- A row for function rings whose HANDLE is 0. -/
def fnRow (code : Nat) (pf : Bool) : OpRow := ⟨code, true, false, pf, false, 1, 1⟩

/-- A row for context rings. -/
def ctxRow (code : Nat) : OpRow := ⟨code, false, true, false, false, 1, 1⟩

/-- A row for both rings, with an owned handle on a function ring. -/
def bothRow (code : Nat) : OpRow := ⟨code, true, true, false, true, 1, 1⟩

def opTable : List OpRow :=
  [⟨0x0001, true, true, false, false, 1, 8⟩, fnRow 0x0002 false] ++
  [0x0003, 0x0010, 0x0011, 0x0020, 0x0021].map (fnRow · true) ++
  [fnRow 0x0101 false, ⟨0x0102, true, false, false, true, 1, 1⟩, bothRow 0x0103, bothRow 0x0104] ++
  [0x0105, 0x0106, 0x0201, 0x0202, 0x0203, 0x0301, 0x0302, 0x0303, 0x0304, 0x0310, 0x0311].map ctxRow ++
  [⟨0x0401, false, true, false, false, 2, 2⟩, ctxRow 0x0402, fnRow 0x0403 true, bothRow 0x0404] ++
  [0x0501, 0x0502, 0x0503].map ctxRow ++
  [⟨0x0504, false, true, false, false, 1, 8⟩] ++
  [0x0601, 0x0602, 0x0603, 0x0701, 0x0702, 0x0703, 0x0704, 0x0705].map ctxRow ++
  [0x0801, 0x0802, 0x0803, 0x0804, 0x0805].map (fnRow · true) ++
  [ctxRow 0x0806, fnRow 0x0807 true, ⟨0x0901, true, true, false, false, 1, 1⟩, fnRow 0x0902 true] ++
  [0x0A01, 0x0A02, 0x0A03, 0x0A04, 0x0B01].map (fnRow · true)

def opRow (code : Nat) : Option OpRow := opTable.find? (fun r => r.code = code)

/-- The opcodes that a module state executes (04 R95). -/
def stateAccepts (s : ModState) (op : Nat) : Bool :=
  match s with
  | .ember => [0x0001, 0x0002, 0x0003, 0x0104].contains op
  | .tripped => [0x0001, 0x0002, 0x0104, 0x0103, 0x0102, 0x0B01].contains op
  | _ => true

/-- The opcodes that a FAULTED context accepts (05 R161). -/
def faultedAccepts (op : Nat) : Bool := [0x0001, 0x0104, 0x0103, 0x0102, 0x0404, 0x0503, 0x0705, 0x0702].contains op

/-! ### A packet under check -/

/-- A packet with its ring, the ring's function, and the slot that it names (0 when it names none). -/
structure Cmd where
  rid : RingId
  p : Packet
  func : Nat
  slot : Nat

/-- Word `n` of the packet, from w4 on (04 R91). -/
def Cmd.w (c : Cmd) (n : Nat) : Word := if n < 16 * c.p.slots.toNat then nth 0 c.p.body (n - 4) else 0

/-- A field of a word. -/
def Cmd.f (c : Cmd) (n lo len : Nat) : Nat := bits (c.w n) lo len

/-- A 64-bit field of two words. -/
def Cmd.q (c : Cmd) (n : Nat) : Nat := (c.w n).toNat + (c.w (n + 1)).toNat * 2 ^ 32

/-- A check: whether it fails, with its status and the packet offset that its refusal reports (03 R77). -/
abbrev Check := Bool × Nat × Nat

def firstFail : List Check → Option (Nat × Nat)
  | [] => none
  | (b, s, o) :: t => if b then some (s, o) else firstFail t

/-- What an opcode's own part answers: a reply, or the wait in which its packet goes on executing. -/
inductive Answer where
  | reply (status : Nat) (result : List Byte)
  | wait (w : Waiting)

/-- A refusal (R77): nothing changes, and the offset stands in result bytes 0 to 3. -/
def refuse (h : Hw) (status off : Nat) : Hw × Answer := (h, .reply status (resultOf [(0, 4, off)]))

/-- OK with result fields. -/
def done (h : Hw) (fs : List (Nat × Nat × Nat)) : Hw × Answer := (h, .reply Status.ok (resultOf fs))

/-- An opcode's own checks (R75 step 9), then its effect. -/
def checked (h : Hw) (l : List Check) (k : Unit → Hw × Answer) : Hw × Answer :=
  match firstFail l with
  | some (s, o) => refuse h s o
  | none => k ()

/-- The word that first holds a nonzero reserved bit, by the masks of the words that the opcode names (04 R91). -/
def Cmd.reserved (c : Cmd) (masks : List (Nat × Word)) : Option Nat :=
  (List.range (16 * c.p.slots.toNat)).find? (fun n => 4 ≤ n &&
    decide ((c.w n &&& ~~~((masks.find? (fun m => m.1 = n)).map (·.2)).getD 0) ≠ 0))

/-- A field whose value is out of range, at word `n`. -/
def outOfRange (b : Bool) (n : Nat) : Check := (b, Status.outOfRange, 4 * n)
def notPermitted (b : Bool) (n : Nat) : Check := (b, Status.notPermitted, 4 * n)
def wrongState (b : Bool) : Check := (b, Status.wrongState, 0)
def noResource (b : Bool) (off : Nat) : Check := (b, Status.noResource, off)

/-- Whether a domain swap names a context. -/
def Hw.inDomainSwap (h : Hw) (slot : Nat) : Bool := match h.wml.swap with | some d => d.slots.contains slot | none => false

/-- An armed swap, its own or the domain's, refuses what changes a context's staged objects (02 R50). -/
def swapPending (h : Hw) (slot : Nat) : Check :=
  ((h.ctx slot).swap.isSome || h.inDomainSwap slot, Status.swapPending, 0)

/-! ### Steps 1 to 8 of R75 -/

/-- The current handle of a context that is in use. -/
def Hw.isHandle (h : Hw) (hd : Word) : Bool :=
  bits hd 8 8 = 0 && (h.ctx (bits hd 0 8)).state ≠ .free && hd = h.handleOf (bits hd 0 8)

/-- Step 7: HANDLE (03 R76, 05 R153). -/
def Hw.handleChecks (h : Hw) (rid : RingId) (row : OpRow) (hd : Word) : List Check :=
  let slot := bits hd 0 8
  let stale : Check := (decide (bits hd 8 8 ≠ 0), Status.staleHandle, 8)
  match rid with
  | .ctx n => [stale, (decide (hd = 0) || (slot = n && hd ≠ h.handleOf n), Status.staleHandle, 8),
      (decide (slot ≠ n), Status.notPermitted, 8)]
  | .fn f =>
    if row.owned then [stale, (!h.isHandle hd, Status.staleHandle, 8),
      (decide ((h.ctx slot).owner ≠ f), Status.notPermitted, 8)]
    else [stale, (decide (hd ≠ 0), Status.reservedNonzero, 8)]

/-- The slot that a packet names. -/
def namedSlot (rid : RingId) (row : OpRow) (hd : Word) : Option Nat :=
  match rid with
  | .ctx n => some n
  | .fn _ => if row.owned then some (bits hd 0 8) else none

/-- Step 8: the context's state, the module's, the context's again. -/
def Hw.stateChecks (h : Hw) (slot : Option Nat) (op : Nat) : List Check :=
  let is (s : CtxState) : Bool := match slot with | some n => decide ((h.ctx n).state = s) | none => false
  [(is .resetting, Status.ctxResetting, 8), (!stateAccepts h.sys.state op, Status.wrongState, 0),
   (is .faulted && !faultedAccepts op, Status.wrongState, 8)]

/-- Steps 1 to 3. -/
def Hw.formChecks (h : Hw) (rid : RingId) (p : Packet) : List Check :=
  let n := p.slots.toNat
  [(n = 0 || 8 < n, Status.badLength, 0),
   (bits p.flags 1 3 ≠ 0 || p.rsv0 ≠ 0, Status.reservedNonzero, 0), (decide (p.word3 ≠ 0), Status.reservedNonzero, 12),
   (decide (p.seq ≠ (h.ring rid).seq), Status.outOfRange, 4)]

/-- Steps 5 to 8 of a defined opcode. -/
def Hw.rowChecks (h : Hw) (rid : RingId) (p : Packet) (row : OpRow) : List Check :=
  let n := p.slots.toNat
  let onRing : Bool := match rid with
    | .fn f => row.onFn && (!row.pfOnly || f = 0)
    | .ctx _ => row.onCtx
  [(n < row.min || row.max < n, Status.badLength, 0), (!onRing, Status.notPermitted, 0)] ++
    h.handleChecks rid row p.handle ++ h.stateChecks (namedSlot rid row p.handle) row.code

/-! ### Taking a packet -/

/-- The slots that a packet consumes (R75): one when SLOTS is not 1 to 8. -/
def slotsTaken (p : Packet) : Nat := if 1 ≤ p.slots.toNat && p.slots.toNat ≤ 8 then p.slots.toNat else 1

/-- A ring's place in the rotation (R71). -/
def ringPlace : RingId → Nat
  | .fn f => f
  | .ctx n => 32 + n

/-- Whether the steward fetches from a ring (R64, R68, R71, R72, R579). -/
def Hw.fetches (h : Hw) (rid : RingId) : Bool :=
  let r := h.ring rid
  r.live && !r.fetchErr && r.exec.isNone && !r.cqFull && h.sys.stewardOn && h.sys.everReady && !h.isState .kindling &&
    (h.func (h.ringFunc rid)).mayMaster && r.published ≠ 0

/-- The slots of a ring that a CTX_DESTROY of its context still has to answer (R80). -/
def Hw.drainLeft (h : Hw) : RingId → Nat
  | .fn _ => 0
  | .ctx n => match (h.ctx n).reset with | some r => r.drain | none => 0

/-- Whether a command about the same context executes on another ring (R93): a packet on a function ring waits for it, unless
it resets the context or the context is RESETTING already. -/
def Hw.heldBack (h : Hw) (rid : RingId) (p : Packet) : Bool :=
  match rid with
  | .ctx _ => false
  | .fn _ =>
    let op := p.opcode.toNat
    let slot := bits p.handle 0 8
    match opRow op with
    | none => false
    | some row => row.owned && op ≠ 0x0102 && op ≠ 0x0103 && (h.ring (.ctx (Fin.ofNat 256 slot))).exec.isSome &&
        h.isHandle p.handle

/-- The steward consumes a packet (R70, R71, R75). -/
def Hw.consume (h : Hw) (rid : RingId) (p : Packet) : Hw :=
  { h.modRing rid (fun r => { r with sqHead := (r.sqHead + slotsTaken p) % r.sqSize, seq := p.seq + 1 }) with
    rotor := (ringPlace rid + 1) % 288 }

/-- One packet of a ring whose context is being destroyed (R80): answered without execution, or the end of the drain. -/
def Hw.drainPacket (h : Hw) (rid : RingId) (p : Packet) : Hw :=
  let set (h : Hw) (k : Nat) : Hw := match rid with
    | .ctx n => h.modCtx n (fun c => { c with reset := c.reset.map (fun r => { r with drain := k }) })
    | .fn _ => h
  let left := h.drainLeft rid
  let n := p.slots.toNat
  if n = 0 || 8 < n then (set (h.consume rid p) (left - 1)).reply rid p Status.badLength (resultOf [])
  else if left < n then set h 0
  else (set (h.consume rid p) (left - n)).reply rid p Status.aborted []

/-- What one opcode adds: its code, the words and bits that its body names, and its own part. -/
structure OpBody where
  code : Nat
  masks : Cmd → List (Nat × Word)
  run : Cmd → Hw → Hw × Answer

/-- The outcome of the checks and of the opcode's own part, on the state after consumption; `h0` is the state before it, which
the checks read. -/
def Hw.runPacket (h : Hw) (h0 : Hw) (rid : RingId) (p : Packet) (b : OpBody) : Hw × Answer :=
  match firstFail (h0.formChecks rid p) with
  | some (s, o) =>
    (h, .reply s (resultOf [(0, 4, o), (4, 4, if s = Status.outOfRange then (h0.ring rid).seq.toNat else 0)]))
  | none =>
    match opRow p.opcode.toNat with
    | none => refuse h Status.unknownOpcode 0
    | some row =>
      match firstFail (h0.rowChecks rid p row) with
      | some (s, o) => refuse h s o
      | none =>
        let c : Cmd := ⟨rid, p, h0.ringFunc rid, (namedSlot rid row p.handle).getD 0⟩
        match c.reserved (b.masks c) with
        | some n => refuse h Status.reservedNonzero (4 * n)
        | none => b.run c h

/-- A packet with the opcode of `b`, or with an undefined one, is taken from a ring (R71, R75). It is not taken when the ring
does not fetch, when it is published only in part (R63), or while another command about its context executes. -/
def Hw.packet (h : Hw) (rid : RingId) (p : Packet) (b : OpBody) : Hw :=
  let mine : Bool := p.opcode.toNat = b.code || (opRow p.opcode.toNat).isNone
  if !mine || !h.fetches rid || (h.ring rid).published < slotsTaken p then h
  else if h.drainLeft rid ≠ 0 then h.drainPacket rid p
  else if h.heldBack rid p then h
  else
    match (h.consume rid p).runPacket h rid p b with
    | (h, .reply s r) => h.reply rid p s r
    | (h, .wait w) => h.modRing rid (fun r => { r with exec := some ⟨p, w⟩ })

/-- A failed read of a ring slot (R68, 21 R578). -/
def Hw.ringFetchFail (h : Hw) (rid : RingId) (addr kind : Nat) : Hw :=
  let r := h.ring rid
  let f := h.ringFunc rid
  if !h.fetches rid || kind = 4 || addr < r.sqBase.toNat || r.sqBase.toNat + 64 * r.sqSize ≤ addr then h
  else (((h.modRing rid (fun r => { r with fetchErr := true })).hostReadFailed f addr kind)).requestVector f r.vec

end Sys2Proof.Machine
end

