-- ==== Sys2Proof/Machine/PktModule.lean ====
section
/-! DEFINITION. Packets about the module: housekeeping, the frame, the network, the cap, encoders and outputs, Coppice, the domain's
state and the logs (04 R97 to R103, R121, R138, R139, R141 to R143, R145, R147, R148). -/

namespace Sys2Proof.Machine

/-- An opcode whose named words do not depend on the packet. -/
def OpBody.fixed (code : Nat) (masks : List (Nat × Word)) (run : Cmd → Hw → Hw × Answer) : OpBody := ⟨code, fun _ => masks, run⟩

/-- The slots that are not FREE. -/
def Hw.inUseCount (h : Hw) : Nat := (h.ctxs.filter (fun e => e.2.state ≠ .free)).length

def pktNop : OpBody := .fixed 0x0001 [] (fun _ h => done h [])

/-- QUERY_MODULE (R98). -/
def pktQueryModule : OpBody := .fixed 0x0002 [] (fun _ h =>
  done h [(0, 4, 0x0880B100), (4, 4, h.cpc.sysUnits.toNat), (8, 1, h.sys.state.code), (10, 4, h.sys.fwVersion.toNat),
    (14, 2, h.inUseCount)])

/-- MODULE_STATE (R99). -/
def pktModuleState : OpBody := .fixed 0x0003 [(4, 7)] (fun c h =>
  let t := c.f 4 0 3
  checked h [outOfRange (3 < t) 4, wrongState (t ≤ 1 && !h.ticksRun), wrongState (t = 2 && !h.isState .ready),
      wrongState (t = 3 && !h.isState .ember)] (fun _ =>
    match t with
    | 0 => done { h with frm.pendingState := some .run } []
    | 1 => done { h with frm.pendingState := some .hold } []
    | 2 => (h, .wait .emberEntry)
    | _ => (h, .wait .emberExit)))

/-- FRAME_CONFIG (R100, 02 R30). -/
def pktFrameConfig : OpBody :=
  .fixed 0x0010 [(4, 0xF07), (5, 0xFFFF), (6, 0x3FFFFFFF), (7, 0x3FFFFFFF), (8, 0x3FFFFFFF)] (fun c h =>
  let frame (n : Nat) : Bool := n < 1500 || 1000000000 < n
  checked h [outOfRange (c.f 4 0 3 = 7) 4, outOfRange (c.f 5 0 16 = 0) 5, outOfRange (frame (c.f 6 0 30)) 6,
      outOfRange (frame (c.f 8 0 30)) 8, (c.f 4 0 3 = 3 && h.ptp.fault, 0x401, 16)] (fun _ =>
    done (((((h.setReg Reg.frmSrc (c.w 4)).setReg Reg.frmFl (c.w 5)).setReg Reg.frmPeriod (c.w 6)).setReg Reg.frmPhase
      (c.w 7)).setReg Reg.frmMaxp (c.w 8)) []))

/-- FRAME_CONTROL (R101). -/
def pktFrameControl : OpBody := .fixed 0x0011 [(4, 3)] (fun c h =>
  let a := c.f 4 0 2
  checked h [outOfRange (a = 0 || a = 3) 4, wrongState (a = 1 && !h.canStart), wrongState (a = 2 && !h.frm.running)]
    (fun _ => done (if a = 1 then h.startTick else h.stopRequest) []))

/-- NET_CONFIG (R102). -/
def pktNetConfig : OpBody := .fixed 0x0020 [(4, 0x111), (5, 0xFFFFFFFF), (6, 0xFFFF)] (fun c h =>
  done (h.modEthPort (c.f 4 0 1) (fun p => { p with
    rate := bit (c.w 4) 4, enabled := bit (c.w 4) 8, destIp := c.w 5, destUdp := c.f 6 0 16 })) [])

/-- The IEEE 1588 states of the ports under a role and a port mask: PASSIVE, LISTENING for a port in use, DISABLED. -/
def ptpStates (role mask : Nat) : List Nat :=
  if role = 0 then [7, 7] else (List.range 2).map (fun p => if mask.testBit p then 4 else 3)

/-- TIME_FAULT is raised (20 R541): PTP_EVT and the PF event when it rises. -/
def Hw.raiseTimeFault (h : Hw) : Hw :=
  if h.ptp.fault then { h with ptp.good := 0 }
  else (({ h with ptp.fault := true, ptp.good := 0 }).setRegBit Reg.ptpEvt 0).pciEvent 4

/-- PTP_CONFIG (R103): the clock starts anew with no master, and TIME_FAULT stands until one is measured. -/
def pktPtpConfig : OpBody := .fixed 0x0021 [(4, 0x3FF13)] (fun c h =>
  let role := c.f 4 0 2
  let mask := c.f 4 16 2
  checked h [outOfRange (role = 3 || (role = 1 && mask ≠ 1 && mask ≠ 2) || (role = 2 && mask ≠ 3)) 4] (fun _ =>
    done { h with
      ptp.role := role, ptp.peerDelay := bit (c.w 4) 4, ptp.domain := c.f 4 8 8, ptp.mask := mask
      ptp.hasMaster := false, ptp.measured := false, ptp.holdover := none, ptp.states := ptpStates role mask
      ptp.freq := if role = 0 then 0 else h.ptp.freq }.raiseTimeFault []))

/-- COL_SET_CAP (R121). -/
def pktColSetCap : OpBody := .fixed 0x0403 [(4, 0xFFFFFFFF)] (fun c h =>
  checked h [outOfRange ((c.w 4).toNat < 20000 || 150000 < (c.w 4).toNat) 4] (fun _ =>
    done (h.setReg Reg.colCap (c.w 4)) []))

/-! ### Encoders and outputs -/

/-- WEB_ENC_CONFIG (R138): the staged configuration of an encoder. -/
def pktWebEncConfig : OpBody := .fixed 0x0804 [(4, 0xF), (5, 0xFF)] (fun c h =>
  checked h [outOfRange (c.f 4 1 2 = 3) 4] (fun _ =>
    done (h.setReg (Reg.webEnccfg (c.f 4 0 1))
      (BitVec.ofNat 32 (c.f 4 1 2 + c.f 4 3 1 * 4 + c.f 5 0 8 * 256))) []))

/-- WEB_OUT_BIND (R139). -/
def pktWebOutBind : OpBody := .fixed 0x0805 [(4, 0xF), (5, 0xFFFFFFFF)] (fun c h =>
  let hd := c.w 5
  checked h [outOfRange (12 ≤ c.f 4 0 4) 4, (decide (hd ≠ 0) && !h.isHandle hd, Status.staleHandle, 20)] (fun _ =>
    done (h.modOutput (c.f 4 0 4) (fun o => { o with pending := some (if hd = 0 then none else some (bits hd 0 8)) })) []))

/-- WEB_OUT_FORCE (R141). -/
def pktWebOutForce : OpBody := .fixed 0x0807 [(4, 0x10F), (5, 0xFFFFFFFF)] (fun c h =>
  let d := (c.w 5).toNat
  checked h [outOfRange (12 ≤ c.f 4 0 4) 4, outOfRange (1000000000 < d) 5, wrongState (!h.isState .ready)] (fun _ =>
    done (if d = 0 then h else h.modOutput (c.f 4 0 4) (fun o => { o with forced := some (bit (c.w 4) 8, h.now + d) })) []))

/-! ### Coppice, the domain, the logs -/

/-- CPC_REPORT (R142). -/
def pktCpcReport : OpBody := .fixed 0x0901 [] (fun _ h =>
  done h [(0, 4, h.cpc.sysUnits.toNat), (4, 1, h.cpc.usedColumns), (5, 1, h.cpc.usedLanes), (6, 1, h.cpc.usedCores),
    (7, 1, h.cpc.usedBanks), (8, 2, h.cpc.suspects.length), (10, 2, h.cpc.hbmRepairs), (12, 4, h.cpc.remaps.toNat)])

/-- CPC_POLICY (R143). -/
def pktCpcPolicy : OpBody := .fixed 0x0902 [(4, 0xFF01)] (fun c h =>
  checked h [outOfRange (100 < c.f 4 8 8) 4] (fun _ =>
    done { h with cpc.autoRemap := bit (c.w 4) 0, cpc.testShare := c.f 4 8 8 } []))

/-- DOMAIN_LEAVE (R145). -/
def pktDomainLeave : OpBody := .fixed 0x0A02 [] (fun _ h =>
  checked h [wrongState (!h.wml.joined || bits (h.actReg Reg.frmSrc) 0 3 = 6), (h.wml.swap.isSome, Status.swapPending, 0)]
    (fun _ => done { h with wml.leaving := true } []))

/-- The member count of the domain (20 R557): the leader's SUBCNT, which members hear in its beacon. -/
def Hw.memberCount (h : Hw) : Nat :=
  if h.wml.isLeader then h.subtreeCount
  else match h.wml.down with
    | some b => b.subcnt.toNat
    | none => h.wml.members.length

/-- DOMAIN_STATUS (R147). -/
def pktDomainStatus : OpBody := .fixed 0x0A04 [] (fun _ h =>
  let w := h.wml
  done h [(0, 2, w.id), (2, 2, w.leader), (4, 2, h.memberCount),
    (6, 1, w.joined.toNat + 2 * w.unsync.toNat + 4 * h.ptp.fault.toNat + 8 * w.swap.isSome.toNat), (8, 6, w.lastSwap)])

def MemLogEntry.bytes (e : MemLogEntry) : List Byte :=
  bytesOf 6 e.addr ++ bytesOf 1 e.kind ++ bytesOf 1 (e.sram.toNat + 2 * e.agent) ++ bytesOf 2 e.loc ++ bytesOf 2 e.row ++
    bytesOf 1 e.synd ++ bytesOf 1 e.slot ++ bytesOf 2 e.frame

def XlatLogEntry.bytes (e : XlatLogEntry) : List Byte :=
  bytesOf 6 e.va ++ bytesOf 1 e.reason ++ bytesOf 1 (e.level + 4 * e.write.toNat + 8 * e.agent) ++ bytesOf 4 e.handle.toNat ++
    bytesOf 4 e.entry.toNat

def CpcLogEntry.bytes (e : CpcLogEntry) : List Byte :=
  bytesOf 4 e.unit ++ bytesOf 1 e.event ++ bytesOf 1 e.count ++ bytesOf 2 e.repl ++ bytesOf 6 e.fnum.toNat ++ bytesOf 2 0

def StewardEntry.bytes (e : StewardEntry) : List Byte :=
  bytesOf 8 e.time.toNat ++ bytesOf 1 e.event ++ bytesOf 1 e.detail ++ bytesOf 2 0 ++ bytesOf 4 e.data.toNat

/-- The first entry of a log, if it has one. -/
def headBytes {α : Type} (l : List α) (f : α → List Byte) : List Byte := (l.head?.map f).getD []

/-- LOG_READ (R148): the oldest entry of a log leaves it. -/
def pktLogRead : OpBody := .fixed 0x0B01 [(4, 3)] (fun c h =>
  match c.f 4 0 2 with
  | 0 => ({ h with mem.log := h.mem.log.drop 1 }, .reply Status.ok (headBytes h.mem.log MemLogEntry.bytes))
  | 1 => ({ h with atu.log := h.atu.log.drop 1 }, .reply Status.ok (headBytes h.atu.log XlatLogEntry.bytes))
  | 2 => ({ h with cpc.log := h.cpc.log.drop 1 }, .reply Status.ok (headBytes h.cpc.log CpcLogEntry.bytes))
  | _ => ({ h with sys.log := h.sys.log.drop 1 }, .reply Status.ok (headBytes h.sys.log StewardEntry.bytes)))

/-! ### The commands -/

/-- RING_FETCH_FAIL (03 R68). -/
def execRingFetchFail (ring : RingId) (addr : Dword) (kind : HostFail) (s : State) : Host.Outcome State Fault Refusal :=
  act (·.ringFetchFail ring addr.toNat (hostFailCode kind)) s

def execNop (ring : RingId) (p : Packet) (s : State) : Host.Outcome State Fault Refusal := act (·.packet ring p pktNop) s

def execQueryModule (ring : RingId) (p : Packet) (s : State) : Host.Outcome State Fault Refusal :=
  act (·.packet ring p pktQueryModule) s

def execModuleState (ring : RingId) (p : Packet) (s : State) : Host.Outcome State Fault Refusal :=
  act (·.packet ring p pktModuleState) s

def execFrameConfig (ring : RingId) (p : Packet) (s : State) : Host.Outcome State Fault Refusal :=
  act (·.packet ring p pktFrameConfig) s

def execFrameControl (ring : RingId) (p : Packet) (s : State) : Host.Outcome State Fault Refusal :=
  act (·.packet ring p pktFrameControl) s

def execNetConfig (ring : RingId) (p : Packet) (s : State) : Host.Outcome State Fault Refusal :=
  act (·.packet ring p pktNetConfig) s

def execPtpConfig (ring : RingId) (p : Packet) (s : State) : Host.Outcome State Fault Refusal :=
  act (·.packet ring p pktPtpConfig) s

def execColSetCap (ring : RingId) (p : Packet) (s : State) : Host.Outcome State Fault Refusal :=
  act (·.packet ring p pktColSetCap) s

def execWebEncConfig (ring : RingId) (p : Packet) (s : State) : Host.Outcome State Fault Refusal :=
  act (·.packet ring p pktWebEncConfig) s

def execWebOutBind (ring : RingId) (p : Packet) (s : State) : Host.Outcome State Fault Refusal :=
  act (·.packet ring p pktWebOutBind) s

def execWebOutForce (ring : RingId) (p : Packet) (s : State) : Host.Outcome State Fault Refusal :=
  act (·.packet ring p pktWebOutForce) s

def execCpcReport (ring : RingId) (p : Packet) (s : State) : Host.Outcome State Fault Refusal :=
  act (·.packet ring p pktCpcReport) s

def execCpcPolicy (ring : RingId) (p : Packet) (s : State) : Host.Outcome State Fault Refusal :=
  act (·.packet ring p pktCpcPolicy) s

def execDomainLeave (ring : RingId) (p : Packet) (s : State) : Host.Outcome State Fault Refusal :=
  act (·.packet ring p pktDomainLeave) s

def execDomainStatus (ring : RingId) (p : Packet) (s : State) : Host.Outcome State Fault Refusal :=
  act (·.packet ring p pktDomainStatus) s

def execLogRead (ring : RingId) (p : Packet) (s : State) : Host.Outcome State Fault Refusal :=
  act (·.packet ring p pktLogRead) s

/-- FORCE_DURATION_END (R141): the forced level ends when its DURATION has passed. -/
def execForceDurationEnd (o : Fin 12) (s : State) : Host.Outcome State Fault Refusal :=
  act (fun h => match (h.output o).forced with
    | some f => (h.advanceTo f.2).modOutput o (fun x => { x with forced := none })
    | none => h) s

end Sys2Proof.Machine
end

