-- ==== Sys2Proof/Machine/PktContext.lean ====
section
/-! DEFINITION. Packets about contexts and their mappings: creation, reset and its completion, destruction, queries, and the
translation tables (04 R104 to R112, 05 R151 to R169, 06 R178 to R188). -/

namespace Sys2Proof.Machine

/-! ### Handles, limits, the release of a context -/

/-- The generation after `g` (05 R152). -/
def nextGen (g : Nat) : Nat := if g = 65535 then 1 else g + 1

/-- CTX_FLIMA.SLOTS and JOBS, CTX_FLIMB.DMA, MBX and SYN of a function (05 R171). -/
def Hw.slotLimit (h : Hw) (f : Nat) : Nat := bits (h.reg (Reg.ctxFlima f)) 0 9
def Hw.jobLimit (h : Hw) (f : Nat) : Nat := bits (h.reg (Reg.ctxFlima f)) 16 13
def Hw.dmaLimit (h : Hw) (f : Nat) : Nat := bits (h.reg (Reg.ctxFlimb f)) 0 8
def Hw.mbxLimit (h : Hw) (f : Nat) : Nat := bits (h.reg (Reg.ctxFlimb f)) 8 8
def Hw.synLimit (h : Hw) (f : Nat) : Nat := bits (h.reg (Reg.ctxFlimb f)) 16 15

/-- The number under which a context's REG_STAGE holds a low half (24 R639). -/
def stageSrc (slot : Nat) : Nat := 9000 + slot

/-- The images that some set refers to. -/
def Hw.imagesUsed (h : Hw) : List Nat :=
  h.ctxs.flatMap (fun (e : Nat × Ctx) =>
    (e.2.staged.progs ++ e.2.staged.models ++ e.2.active.progs ++ e.2.active.models).map (·.2))

/-- An image's memory is released once no set refers to it (04 R129). -/
def Hw.dropImages (h : Hw) : Hw :=
  let used := h.imagesUsed
  { h with images := h.images.filter (fun e => used.contains e.1) }

/-- A channel is freed: it returns to the pool with nothing of its owner. -/
def Hw.freeChan (h : Hw) (n : Nat) : Hw := h.setDmaChan n { ({} : DmaChan) with done := (h.dmaChan n).done }

/-- The camera ports of the context in `slot` change their owner handle (05 R166, R168). -/
def Hw.moveOwner (h : Hw) (slot : Nat) (owner : Word) : Hw :=
  { h with cxp.ports := List.map (fun (e : Nat × CamPort) =>
      (e.1, if e.2.ownerSlot = some slot then { e.2 with owner := owner } else e.2)) h.cxp.ports }

/-- An output when the context in `slot` is destroyed: bound to it, it is unbound at the next boundary; a binding staged for it
becomes an unbinding (05 R168, 19 R530). -/
def Output.release (o : Output) (slot : Nat) : Output :=
  let o := if o.pending = some (some slot) then { o with pending := some none } else o
  if o.bound = some slot then { o with orphan := true, pending := some (o.pending.getD none) } else o

/-- Everything a destroyed context owned is released and its slot is FREE (05 R168). Its outputs stay bound to nothing of it
from the next boundary on. -/
def Hw.releaseCtx (h : Hw) (slot : Nat) : Hw :=
  let gen := nextGen (h.ctx slot).gen
  let h := (h.ownedChans slot).foldl (fun (h : Hw) n => h.freeChan n) h
  let h := (h.moveOwner slot 0).invalidate slot 0 (2 ^ 48)
  let h := h.memZero (rootOf slot) 0x200000
  let lo := Reg.ofCtx slot 0
  let h := { h with
    atu.tables := h.atu.tables.filter (fun t => t.1 ≠ slot)
    atu.backing := h.atu.backing.filter (fun b => b.slot ≠ slot)
    regs := Tbl.clearRange h.regs lo (lo + 0x4000000)
    act := Tbl.clearRange h.act lo (lo + 0x4000000)
    helds := Tbl.clearRange h.helds (Reg.ofCtx (stageSrc slot) 0) (Reg.ofCtx (stageSrc slot + 1) 0)
    web.last := Tbl.clearRange h.web.last (verdictKey slot 0 0) (verdictKey (slot + 1) 0 0)
    web.outputs := List.map (fun (e : Nat × Output) => (e.1, e.2.release slot)) h.web.outputs
    win.chans := List.map (fun (e : Nat × LineChan) =>
      (e.1, if e.2.owner = some slot then { e.2 with owner := none } else e.2)) h.win.chans }
  ((h.setRing (.ctx (Fin.ofNat 256 slot)) {}).setCtx slot { gen := gen }).dropImages

/-! ### Reset completion (05 R165, 04 R106) -/

/-- Whether an array or a pipe still drains work of a context (12 R338, 14 R390). -/
def Hw.drains (h : Hw) (slot : Nat) : Bool :=
  let mine (d : Option (Nat × Nat)) : Bool := match d with | some x => decide (x.1 = slot) | none => false
  h.arrays.any (fun e => mine e.2.drain) || h.win.hdg.pipes.any (fun p => mine p.drain) || h.win.prv.pipes.any (fun p => mine p.drain)

/-- The result bytes of CTX_RESET. -/
def ResetInfo.result (r : ResetInfo) (handle : Word) : List Byte :=
  resultOf [(0, 4, if r.kind = .reset then handle.toNat else 0), (4, 2, r.jobs), (6, 2, r.dma), (8, 2, r.bst), (10, 2, r.waiters),
    (12, 2, r.notices), (14, 2, r.passes)]

/-- The FLR of a function has freed its contexts (21 R586). -/
def Hw.endFlr (h : Hw) (f : Nat) : Hw :=
  let left := h.ctxs.any (fun (e : Nat × Ctx) => e.2.owner = f && (match e.2.reset with | some r => r.kind = .flr | none => false))
  if left then h else h.modFunc f (fun x => { x with flr := false })

/-- The reset of a context completes (R165 to R169). -/
def Hw.resetComplete (h : Hw) (slot : Nat) : Hw :=
  let c := h.ctx slot
  match decide (c.state = .resetting), c.reset with
  | true, some r =>
    if (r.boundaries ≠ 0 && h.ticksRun) || r.drain ≠ 0 || h.drains slot then h
    else
      let waiting := h.findExec (.ctxReset slot)
      let h :=
        if r.kind = .reset then
          let h := h.setCtx slot { c with
            state := .idle, gen := nextGen c.gen, cause := 0, detail := 0, unit := 0, multi := false, fva := 0, fframe := 0
            reset := none }
          h.moveOwner slot (h.handleOf slot)
        else (h.releaseCtx slot).endFlr c.owner
      match waiting with
      | some (rid, p) => h.reply rid p Status.ok (r.result (h.handleOf slot))
      | none => h
  | _, _ => h

/-! ### Context opcodes -/

/-- CTX_CREATE (R104). -/
def pktCtxCreate : OpBody :=
  .fixed 0x0101 [(4, 0xFFFFF000), (5, 0xFFFFFFFF), (6, 0xFFFFF000), (7, 0xFFFFFFFF), (8, 0x07FF1F1F), (9, 0xFFFFFFFF),
    (10, 0x103), (11, 0xFFFF7F), (12, 0x7FFF)] (fun c h =>
  let sq := c.f 8 0 5
  let cq := c.f 8 8 5
  let free := (List.range 256).find? (fun n => (h.ctx n).state = .free)
  checked h [outOfRange (sq < 4 || 16 < sq || cq < 4 || 16 < cq || 64 ≤ c.f 8 16 11) 8, outOfRange (c.f 10 0 2 = 3) 10,
      outOfRange (64 < c.f 11 0 7 || 128 < c.f 11 8 8 || 64 < c.f 11 16 8) 11, outOfRange (16384 < c.f 12 0 15) 12,
      notPermitted (bit (c.w 10) 8 && decide (c.func ≠ 0)) 10,
      noResource (free.isNone || h.slotLimit c.func ≤ (h.slotsOf c.func).length) 0] (fun _ =>
    match free with
    | none => refuse h Status.noResource 0
    | some n =>
      let gen := nextGen (h.ctx n).gen
      let set : Objects := { ({} : Objects) with policy := c.f 10 0 2 }
      let h := h.setCtx n { ({} : Ctx) with
        state := .idle, gen := gen, owner := c.func, secure := bit (c.w 10) 8, maxJobs := c.f 11 0 7, maxDma := c.f 11 8 8
        maxMbx := c.f 11 16 8, maxSyn := c.f 12 0 15, staged := set, active := set }
      let h := h.setRing (.ctx (Fin.ofNat 256 n)) { ({} : Ring) with
        live := true, sqLog := sq, cqLog := cq, sqBase := BitVec.ofNat 64 (c.q 4), cqBase := BitVec.ofNat 64 (c.q 6)
        vec := c.f 8 16 11, seq := c.w 9, startSeq := c.w 9 }
      let h := h.memZero (rootOf n) 0x200000
      done h [(0, 4, (h.handleOf n).toNat)]))

/-- CTX_DESTROY (R105) and CTX_RESET (R106): the reply comes when the reset completes. -/
def pktCtxDestroy : OpBody := .fixed 0x0102 [] (fun c h => (h.startReset c.slot .destroy, .wait (.ctxReset c.slot)))
def pktCtxReset : OpBody := .fixed 0x0103 [] (fun c h => (h.startReset c.slot .reset, .wait (.ctxReset c.slot)))

/-- CTX_QUERY (R107). -/
def pktCtxQuery : OpBody := .fixed 0x0104 [] (fun c h =>
  let x := h.ctx c.slot
  done h [(0, 1, x.state.code), (1, 1, if x.state = .faulted then x.cause else 0), (2, 2, x.gen), (4, 1, x.active.jobs.length),
    (5, 1, (h.ownedChans c.slot).length), (6, 2, (h.ownedCounters c.slot).length), (8, 1, h.endpointsOf c.slot),
    (9, 1, x.swap.isSome.toNat + 2 * (h.inDomainSwap c.slot).toNat), (10, 6, x.lastSwap)])

/-- CTX_RUN (R108). -/
def pktCtxRun : OpBody := .fixed 0x0105 [(4, 1)] (fun c h =>
  let live := bit (c.w 4) 0
  done (h.modCtx c.slot (fun x => { x with pendingLive := if decide (x.state = .live) = live then none else some live })) [])

/-- CTX_SET_POLICY (R109). -/
def pktCtxSetPolicy : OpBody := .fixed 0x0106 [(4, 3)] (fun c h =>
  checked h [outOfRange (c.f 4 0 2 = 3) 4, swapPending h c.slot] (fun _ =>
    done (h.modCtx c.slot (fun x => { x with staged.policy := c.f 4 0 2 })) []))

/-! ### Tables and backing (06 R177 to R180) -/

/-- A valid leaf of a table: where its entry stands, its page, and its output. -/
structure TableLeaf where
  entry : Nat
  va : Nat
  size : Nat
  tgt : Nat
  out : Nat

/-- The table entry at an address, as it stands. -/
def Hw.tableEntry (h : Hw) (ea : Nat) : Dword := BitVec.ofNat 64 (natOf (Mem.getN h.mem.cells ea 8))

/-- The valid leaves whose pages meet `[lo, hi)`, below a table of a level that covers addresses from `base` on; a pointer
that the walk cannot follow covers nothing. -/
def Hw.tableLeaves (h : Hw) (lo hi level table base : Nat) : Nat → List TableLeaf
  | 0 => []
  | n + 1 =>
    let size := 2 ^ levelShift level
    let first := (lo - base) / size
    let last := min (if level = 1 then 262144 else 512) ((hi - base + size - 1) / size)
    (List.range (last - first)).flatMap (fun i =>
      let k := first + i
      let e := h.tableEntry (table + 8 * k)
      let next := e.toNat / 4096 * 4096
      if !bit e 0 then []
      else if bit e 1 && level < 3 then
        if inHbm next then h.tableLeaves lo hi (level + 1) next (base + k * size) n else []
      else [⟨table + 8 * k, base + k * size, size, bits e 4 2, next⟩])

/-- The mapped pages of a context that meet a range. -/
def Hw.pagesIn (h : Hw) (slot va n : Nat) : List TableLeaf := if n = 0 then [] else h.tableLeaves va (va + n) 1 (rootOf slot) 0 3

/-- What ATU_MAP has allocated in HBM3 or in shared SRAM: base and size. -/
def Hw.allocated (h : Hw) : List (Nat × Nat) :=
  h.atu.backing.map (fun b => (b.base, b.size)) ++ h.atu.tables.map (fun t => (t.2, 4096))

/-- An aligned free block of `n` bytes in `[lo, hi)`: at `place` where that is one, else the lowest. -/
def freeBlock (used : List (Nat × Nat)) (lo hi n align place : Nat) : Option Nat :=
  let up (a : Nat) : Nat := (a + align - 1) / align * align
  let fits (a : Nat) : Bool := lo ≤ a && a + n ≤ hi && used.all (fun u => u.1 + u.2 ≤ a || a + n ≤ u.1)
  if place % align = 0 && fits place then some place else ((up lo :: used.map (fun u => up (u.1 + u.2))).filter fits).min?

/-- A free block of memory; where it lies is the steward's choice (log entry 22). -/
def Hw.placeBlock (h : Hw) (lo hi n align : Nat) : Option Nat :=
  freeBlock h.allocated lo hi n align (Config.blockPlace h.allocated n align h.now)

/-- The level whose leaves map a PAGE code: 4 KiB, 2 MiB, 1 GiB. -/
def pageLevel (code : Nat) : Nat := 3 - code

/-- The walk of the tables above the leaves of one page (R110): the pointer that cannot be followed, with its reason and level.
`n` counts the levels left above the leaf. -/
def Hw.pathCheck (h : Hw) (slot va level table from_ : Nat) : Nat → Hw × Option (Nat × Nat × Nat)
  | 0 => (h, none)
  | n + 1 =>
    if inAperture table then (h, some (Xlat.walkDevice, level, from_))
    else if !inHbm table then (h, some (Xlat.tableOutside, level, from_))
    else
      let ea := table + levelIndex level va * 8
      match h.memRead 8 slot ea 8 with
      | (h, .error _) => (h, some (Xlat.walkPoison, level, ea))
      | (h, .ok bs) =>
        let e := BitVec.ofNat 64 (natOf bs)
        if !bit e 0 then (h, none)
        else if entryReserved e level then (h, some (Xlat.reservedBits, level, ea))
        else
          let next := e.toNat / 4096 * 4096
          if n = 0 then
            (h, if inAperture next then some (Xlat.walkDevice, level + 1, ea)
              else if !inHbm next then some (Xlat.tableOutside, level + 1, ea) else none)
          else h.pathCheck slot va (level + 1) next ea n

/-- The first addresses in a range of the regions that one leaf table serves: every page's path is the path of one of them. -/
def regionStarts (va n level : Nat) : List Nat :=
  let size := 2 ^ levelShift (level - 1)
  if level = 1 || n = 0 then [] else
    (List.range ((va + n - 1) / size - va / size + 1)).map (fun i => max va ((va / size + i) * size))

/-- Checks the paths of all regions; the first failure with its address. -/
def Hw.pathsCheck (h : Hw) (slot level : Nat) : List Nat → Hw × Option (Nat × Nat × Nat × Nat)
  | [] => (h, none)
  | va :: t =>
    match h.pathCheck slot va 1 (rootOf slot) 0 (level - 1) with
    | (h, some (r, l, e)) => (h, some (va, r, l, e))
    | (h, none) => h.pathsCheck slot level t

/-- Makes the tables on the path of an address, allocating those that are missing (R110): the leaf table's address. `n` counts the
levels left above the leaf. -/
def Hw.makeTables (h : Hw) (slot va level table : Nat) : Nat → Option (Hw × Nat)
  | 0 => some (h, table)
  | n + 1 =>
    let ea := table + levelIndex level va * 8
    let e := h.tableEntry ea
    if bit e 0 then h.makeTables slot va (level + 1) (e.toNat / 4096 * 4096) n
    else
      match h.placeBlock 0 0x5E0000000 4096 4096 with
      | none => none
      | some t =>
        let h := (h.memZero t 4096).memWrite 0 slot ea (bytesOf 8 (t + 3))
        { h with atu.tables := h.atu.tables ++ [(slot, t)] }.makeTables slot va (level + 1) t n

/-- Writes the leaves of one region from its first address on. -/
def Hw.writeLeaves (h : Hw) (slot level table va stop out flags : Nat) : Nat → Hw
  | 0 => h
  | n + 1 =>
    if stop ≤ va then h
    else
      let size := 2 ^ levelShift level
      let h := h.memWrite 0 slot (table + levelIndex level va * 8) (bytesOf 8 (out + flags))
      h.writeLeaves slot level table (va + size) stop (out + size) flags n

/-- Maps every region of a range; `none` when table memory runs out. -/
def Hw.mapRegions (h : Hw) (slot level va size out flags : Nat) : List Nat → Option Hw
  | [] => some h
  | r :: t =>
    match h.makeTables slot r 1 (rootOf slot) (level - 1) with
    | none => none
    | some (h, table) =>
      let span := 2 ^ levelShift (level - 1)
      let stop := if level = 1 then va + size else min (va + size) ((r / span + 1) * span)
      (h.writeLeaves slot level table r stop (out + (r - va)) flags (if level = 1 then size / 2 ^ 30 + 1 else 513)).mapRegions
        slot level va size out flags t

/-- The mapping of an ATU_MAP that passed its refusals (R110). -/
def Hw.atuMap (h : Hw) (slot va size page mem perms host : Nat) : Hw × Answer :=
  let level := pageLevel page
  let regions := regionStarts va size level
  match h.pathsCheck slot level regions with
  | (h, some (v, r, l, e)) => (h.xlatFault 0 slot v l r e false, .reply (xlatStatus r) (resultOf [(0, 8, v)]))
  | (h, none) =>
    let ps := 2 ^ levelShift level
    let base := if mem = 0 then h.placeBlock 0 0x5E0000000 size ps
      else if mem = 1 then h.placeBlock sramBase sramEnd size ps
      else some host
    match base with
    | none => refuse h Status.noResource 0
    | some a =>
      let before := h.atu.tables.length
      let h' := if mem = 2 then h else
        { h.memZero a size with atu.backing := h.atu.backing ++ [⟨slot, va, size, a⟩] }
      match h'.mapRegions slot level va size a (1 + perms * 4 + mem * 16) (if level = 1 then [va] else regions) with
      | none => refuse h Status.noResource 0
      | some h' => done h' [(0, 8, if mem = 2 then 0 else a), (8, 4, h'.atu.tables.length - before)]

/-- Whether `[va, va + n)` meets the device aperture, which counts as mapped (R176). -/
def meetsAperture (va n : Nat) : Bool := va ≤ drmLimit && drmBase < va + n

/-- The word that a range past 2^48 reports: the one with the bits above bit 47, else the address's. -/
def vaWord (va n : Nat) : Nat := if 2 ^ 48 ≤ va then n + 1 else n

/-- ATU_MAP (R110). -/
def pktAtuMap : OpBody :=
  .fixed 0x0201 [(4, 0xFFFFFFFF), (5, 0xFFFFFFFF), (6, 0xFFFFFFFF), (7, 0xFFFFFFFF), (8, 0x333), (9, 0xFFFFFFFF), (10, 0xFFFFFFFF)]
    (fun c h =>
  let va := c.q 4
  let size := c.q 6
  let page := c.f 8 0 2
  let mem := c.f 8 4 2
  let ps := 2 ^ levelShift (pageLevel page)
  checked h [outOfRange (page = 3) 8, outOfRange (mem = 3) 8,
      (mem < 2 && decide (c.w 9 ≠ 0), Status.reservedNonzero, 36), (mem < 2 && decide (c.w 10 ≠ 0), Status.reservedNonzero, 40),
      outOfRange (va % ps ≠ 0) 4, outOfRange (size % ps ≠ 0) 6, outOfRange (mem = 2 && c.q 9 % ps ≠ 0) 9,
      outOfRange (2 ^ 48 < va + size) (vaWord va 4),
      outOfRange (size ≠ 0 && (meetsAperture va size || !(h.pagesIn c.slot va size).isEmpty)) 4,
      outOfRange (mem = 1 && page = 2) 8] (fun _ =>
    if size = 0 then done h [] else h.atuMap c.slot va size page mem (c.f 8 8 2) (c.q 9)))

/-- Takes `[a, a + n)` out of the backing that the steward allocated for a context (R179). -/
def Hw.releaseBacking (h : Hw) (slot a n : Nat) : Hw :=
  { h with atu.backing := h.atu.backing.flatMap (fun b =>
      if b.slot = slot && b.base ≤ a && a + n ≤ b.base + b.size then
        (if b.base < a then [{ b with size := a - b.base }] else []) ++
        (if a + n < b.base + b.size then
          [{ b with va := b.va + (a + n - b.base), base := a + n, size := b.base + b.size - (a + n) }] else [])
      else [b]) }

/-- Removes the leaves of a range, and what backs them (R111, R180). -/
def Hw.atuUnmap (h : Hw) (slot va size : Nat) (pages : List TableLeaf) : Hw :=
  let h := pages.foldl (fun (h : Hw) l => h.memWrite 0 slot l.entry (bytesOf 8 0)) h
  let h := h.invalidate slot va size
  pages.foldl (fun (h : Hw) l => if l.tgt < 2 then h.releaseBacking slot l.out l.size else h) h

/-- ATU_UNMAP (R111). -/
def pktAtuUnmap : OpBody :=
  .fixed 0x0202 [(4, 0xFFFFFFFF), (5, 0xFFFFFFFF), (6, 0xFFFFFFFF), (7, 0xFFFFFFFF)] (fun c h =>
  let va := c.q 4
  let size := c.q 6
  checked h [outOfRange (2 ^ 48 < va + size) (vaWord va 4)] (fun _ =>
    let pages := h.pagesIn c.slot va size
    checked h [outOfRange (pages.any (fun l => l.va < va || va + size < l.va + l.size)) 4] (fun _ =>
      done (if size = 0 then h else h.atuUnmap c.slot va size pages) [])))

/-- ATU_INVALIDATE (R112). -/
def pktAtuInvalidate : OpBody :=
  .fixed 0x0203 [(4, 0xFFFFFFFF), (5, 0xFFFFFFFF), (6, 0xFFFFFFFF), (7, 0xFFFFFFFF), (8, 1)] (fun c h =>
  let va := c.q 4
  let size := c.q 6
  let all := bit (c.w 8) 0
  checked h [outOfRange (all && va ≠ 0) 4, outOfRange (all && size ≠ 0) 6, outOfRange (2 ^ 48 < va + size) (vaWord va 4)] (fun _ =>
    done (if all then h.invalidate c.slot 0 (2 ^ 48) else if size = 0 then h else h.invalidate c.slot va size) []))

/-! ### The commands -/

def execCtxCreate (ring : RingId) (p : Packet) (s : State) : Host.Outcome State Fault Refusal := act (·.packet ring p pktCtxCreate) s

def execCtxDestroy (ring : RingId) (p : Packet) (s : State) : Host.Outcome State Fault Refusal := act (·.packet ring p pktCtxDestroy) s

def execCtxReset (ring : RingId) (p : Packet) (s : State) : Host.Outcome State Fault Refusal := act (·.packet ring p pktCtxReset) s

/-- CTX_RESET_COMPLETE (R165). -/
def execCtxResetComplete (slot : Fin 256) (s : State) : Host.Outcome State Fault Refusal := act (·.resetComplete slot) s

def execCtxQuery (ring : RingId) (p : Packet) (s : State) : Host.Outcome State Fault Refusal := act (·.packet ring p pktCtxQuery) s

def execCtxRun (ring : RingId) (p : Packet) (s : State) : Host.Outcome State Fault Refusal := act (·.packet ring p pktCtxRun) s

def execCtxSetPolicy (ring : RingId) (p : Packet) (s : State) : Host.Outcome State Fault Refusal :=
  act (·.packet ring p pktCtxSetPolicy) s

def execAtuMap (ring : RingId) (p : Packet) (s : State) : Host.Outcome State Fault Refusal := act (·.packet ring p pktAtuMap) s

def execAtuUnmap (ring : RingId) (p : Packet) (s : State) : Host.Outcome State Fault Refusal := act (·.packet ring p pktAtuUnmap) s

def execAtuInvalidate (ring : RingId) (p : Packet) (s : State) : Host.Outcome State Fault Refusal :=
  act (·.packet ring p pktAtuInvalidate) s

end Sys2Proof.Machine
end

