-- ==== Sys2Proof/Machine/Camera.lean ====
section
/-! DEFINITION. The camera ports (19 R508 to R519, 04 R135 to R137): groups and discovery, PoCXP, the control channel, lines with
their records, and output pulses (R527 to R530). -/

namespace Sys2Proof.Machine

/-! ### Groups (R510, R511) -/

/-- The ports of the group of master `m`. -/
def Hw.groupPorts (h : Hw) (m : Nat) : List Nat := (List.range 8).filter (fun n => m ≤ n && n < m + (h.port m).links)

/-- Sets the link of every connection of a group. -/
def Hw.setLinks (h : Hw) (m : Nat) (up : Bool) : Hw :=
  (h.groupPorts m).foldl (fun (h : Hw) n => h.modPort n (fun p => { p with link := up })) h

/-- A group loses its link (R511): it stops receiving, the line in progress goes, and the owner stays. -/
def Hw.linkLost (h : Hw) (m : Nat) : Hw :=
  let p := h.port m
  if p.master && p.link then
    ((h.setLinks m false).modPort m (fun p => { p with line := none })).setRegBit (Reg.cxpEvt m) 0
  else h

/-- The line-rate channels that take lines of master `m` stop, because the group's owner changes (14 R400). -/
def Hw.dropLineChans (h : Hw) (m : Nat) : Hw :=
  (List.range 4).foldl (fun (h : Hw) n =>
    let c := h.lineChan n
    if c.owner.isSome && bits c.ctl 1 3 = m then
      h.setLineChan n { c with running := false, reload := false, owner := none, fifo := [], window := [], closing := none }
    else h) h

/-- A port leaves its group, and keeps its power (R510). -/
def CamPort.leave (p : CamPort) : CamPort := { ({} : CamPort) with powered := p.powered, noDev := p.noDev }

/-- A new group of `n` connections with master `m` takes its ports out of every earlier group (R510). -/
def Hw.formGroup (h : Hw) (m n speed : Nat) : Hw :=
  let mine := (List.range 8).filter (fun i => m ≤ i && i < m + n)
  let hit := (List.range 8).filter (fun k => (h.port k).master && (h.groupPorts k).any mine.contains)
  let h := hit.foldl (fun (h : Hw) k =>
    let h := h.dropLineChans k
    if mine.contains k then h else h.linkLost k) h
  let gone := (hit.filter mine.contains).flatMap h.groupPorts
  let h := (gone ++ mine).foldl (fun (h : Hw) i => h.modPort i CamPort.leave) h
  let h := mine.foldl (fun (h : Hw) i => h.modPort i (fun p => { p with masterPort := m, speed := speed })) h
  h.modPort m (fun p => { p with master := true, links := n })

/-- CXP_CONFIG (R135). -/
def pktCxpConfig : OpBody := ⟨0x0801, fun _ => [(4, 0xF0F07), (5, 0xFFFFFFFF)], fun c h =>
  let m := c.f 4 0 3
  let n := c.f 4 8 4
  let speed := c.f 4 16 4
  let hd := c.w 5
  checked h [outOfRange (!([1, 2, 4].contains n) || !([1, 2, 3, 5, 6, 10, 12].contains speed) || m % n ≠ 0) 4,
      (decide (hd ≠ 0) && !h.isHandle hd, Status.staleHandle, 20)] (fun _ =>
    (h.formGroup m n speed, .wait (.discovery m)))⟩

/-- The owner handle that a discovered group records: the packet's, if its context is still that one. -/
def Hw.ownerNow (h : Hw) (hd : Word) : Word := if h.isHandle hd then hd else 0

/-- A camera answers discovery (R510). -/
def Hw.discovered (h : Hw) (m : Nat) (rid : RingId) (p : Packet) (x : CamAnswer) : Hw :=
  let no (d : Nat) : Hw := (h.modPort m (fun q => { q with disc := d })).reply rid p Status.ok (resultOf [])
  match x with
  | .noCamera => no 1
  | .discovered false => no 2
  | .discovered true =>
    let h := (h.setLinks m true).modPort m (fun q => { q with owner := h.ownerNow (nth 0 p.body 1), disc := 0 })
    h.reply rid p Status.ok (resultOf [(0, 1, 1)])
  | _ => h

/-! ### PoCXP (R512, R513, 04 R136) -/

/-- The budget of a port in mW. -/
def Hw.portBudget (h : Hw) (n : Nat) : Nat := bits (h.reg (Reg.cxpPbud n)) 0 14

/-- CXP_POWER; `det` tells on which ports a PoCXP device is found. -/
def pktCxpPower (det : BitVec 8) : OpBody := .fixed 0x0802 [(4, 0xFFFF)] (fun c h =>
  let on (n : Nat) : Bool := bit (c.w 4) n
  let off (n : Nat) : Bool := bit (c.w 4) (8 + n)
  let after := (List.range 8).filter (fun n => (on n || (h.port n).powered) && !off n)
  checked h [outOfRange ((List.range 8).any (fun n => on n && off n)) 4,
      noResource (52000 < (after.map h.portBudget).sum || (List.range 8).any (fun n => on n && h.portBudget n = 0)) 16] (fun _ =>
    done ((List.range 8).foldl (fun (h : Hw) n =>
      if off n then h.modPort n (fun p => { p with powered := false })
      else if on n && !(h.port n).powered then h.modPort n (fun p => { p with powered := bit det n, noDev := !bit det n })
      else h) h) []))

/-- A port is switched off by an overload or a short (R513). -/
def Hw.portOverload (h : Hw) (n : Nat) : Hw :=
  if (h.port n).powered then
    let h := (h.modPort n (fun p => { p with powered := false })).setRegBit (Reg.cxpEvt n) 1
    h.linkLost (h.groupOf n)
  else h

/-! ### The control channel (R514, 04 R137) -/

/-- CXP_CTRL. -/
def pktCxpCtrl : OpBody := .fixed 0x0803 [(4, 0x107), (5, 0xFFFFFFFF), (6, 0xFFFFFFFF)] (fun c h =>
  let m := h.groupOf (c.f 4 0 3)
  checked h [wrongState (!(h.port m).link)] (fun _ =>
    (h.modPort m (fun p => { p with deadline := h.now + 200000000, bound := h.now + 400000000 }), .wait (.camCtrl m))))

/-- Acknowledgement codes that say the access was performed: with reply data, and without (PRESUMED, CoaXPress). -/
def ackDone (code : Byte) : Bool := code = 0 || code = 1

/-- A camera's answer to a control transaction within its allowed time. -/
def Hw.controlAnswer (h : Hw) (m : Nat) (rid : RingId) (p : Packet) (x : CamAnswer) : Hw :=
  if (h.port m).deadline < h.now then h
  else
    match x with
    | .wait => h.modPort m (fun q => { q with deadline := min (q.deadline + 200000000) q.bound })
    | .ack code v =>
      if ackDone code then
        h.reply rid p Status.ok (resultOf [(0, 4, if bit (nth 0 p.body 0) 8 then 0 else v.toNat)])
      else h.reply rid p Status.aborted (resultOf [(4, 1, code.toNat)])
    | _ => h

/-- An answer of the camera on port `n`. -/
def Hw.cameraAnswer (h : Hw) (n : Nat) (x : CamAnswer) : Hw :=
  match h.findExec (.discovery n), h.findExec (.camCtrl n) with
  | some (r, p), _ => h.discovered n r p x
  | none, some (r, p) => h.controlAnswer n r p x
  | none, none => h

/-- No answer comes in time. -/
def Hw.controlTimeout (h : Hw) (n : Nat) : Hw :=
  match h.findExec (.camCtrl n) with
  | some (r, p) => (h.advanceTo (h.port n).deadline).reply r p Status.aborted (resultOf [(4, 1, 0xFF)])
  | none => h

/-! ### Packets and lines (R509, R516 to R519, R531) -/

/-- The stamp of this moment. -/
def Hw.stampNow (h : Hw) (m : Nat) : Stamp := ⟨h.ptp.time, h.posOf (bits (h.trigOf m) 6 1)⟩

/-- Whether a group receives. -/
def Hw.receives (h : Hw) (m : Nat) : Bool := (h.port m).master && (h.port m).link

/-- A packet that does not end a line. -/
def Hw.cxpPacket (h : Hw) (m : Nat) (x : CxpPacket) : Hw :=
  if !h.receives m then h
  else
    match x with
    | .otherStream => h.bump (Reg.cxpDisc m) 1
    | .event => h.bump (Reg.cxpDisc m) 1
    | .heartbeat => h
    | .lineStart => h.modPort m (fun p => { p with line := match p.line with | some s => some s | none => some (h.stampNow m) })

/-- Channels, bits a sample, and whether samples are stored as U16, of a format (R516). -/
def pixFacts : PixFmt → Option (Nat × Nat × Bool)
  | .mono8 => some (1, 8, false)
  | .mono10 => some (1, 10, true)
  | .mono12 => some (1, 12, true)
  | .mono16 => some (1, 16, true)
  | .rgb8 => some (3, 8, false)
  | .rgb10 => some (3, 10, true)
  | .rgb12 => some (3, 12, true)
  | .rgb16 => some (3, 16, true)
  | .rgba8 => some (4, 8, false)
  | .other => none

/-- Bytes of the CXP block at an offset. -/
def Hw.cxpPut (h : Hw) (o : Nat) (bs : List Byte) : Hw :=
  { h with cxp.bytes := (List.zip (List.range bs.length) bs).foldl (fun t x => Tbl.set 0 t (o + x.1) x.2) h.cxp.bytes }

/-- A line enters the FIFO of a line-rate channel, or is dropped (14 R394, R398). -/
def LineChan.push (c : LineChan) (l : QueuedLine) : LineChan × Bool :=
  if c.fifo.length < 4 then ({ c with fifo := c.fifo ++ [l] }, false)
  else if c.closing.isSome then ({ c with nextFlags := c.nextFlags ||| 1 }, true)
  else ({ c with flags := c.flags ||| 1 }, true)

/-- A delivered line goes to every line-rate channel that names the port and runs, or is about to (R517). -/
def Hw.toLineChans (h : Hw) (m : Nat) (l : QueuedLine) : Hw :=
  (List.range 4).foldl (fun (h : Hw) n =>
    let c := h.lineChan n
    if (c.running || c.reload) && bit c.ctl 0 && bits c.ctl 1 3 = m then
      let r := c.push l
      let h := h.setLineChan n r.1
      if r.2 then h.bump (Reg.prvLrdrop n) 1 else h
    else h) h

/-- A line's last packet arrives (R516 to R518). -/
def Hw.lineArrives (h : Hw) (m : Nat) (l : CamLine) : Hw :=
  let p := h.port m
  if !h.receives m || l.samples = [] then h
  else
    match pixFacts l.fmt with
    | none => ((h.setPort m { p with line := none }).bump (Reg.cxpErrl m) 1).setRegBit (Reg.cxpEvt m) 2
    | some (cin, width, wide) =>
      let pixels := l.samples.length / cin
      let kept := min pixels 16384
      let samples := (l.samples.take (kept * cin)).map (fun s => bits s 0 width * 2 ^ (if wide then 16 - width else 0))
      let slot := p.lseq.toNat % 8
      let bytes := samples.flatMap (bytesOf (if wide then 2 else 1))
      let stamp := (p.line).getD (h.stampNow m)
      let trig : Option Stamp := if bit (h.trigOf m) 0 then p.stamps.head? else none
      let st := trig.getD stamp
      let flags := trig.isNone.toNat + 2 * (!h.ticksRun).toNat + 4 * (decide (16384 < pixels)).toNat + 8 * l.crcErr.toNat +
        16 * wide.toNat + 32 * cin
      let record := bytesOf 8 p.lseq.toNat ++ bytesOf 8 st.time.toNat ++ bytesOf 6 h.frm.fnum.toNat ++ bytesOf 6 st.pos.toNat ++
        bytesOf 2 kept ++ bytesOf 2 flags
      let h := (h.cxpPut (0x1000000 + 0x200000 * m + 0x40000 * slot) bytes).cxpPut (0x800 + 0x100 * m + 0x20 * slot) record
      let h := h.setPort m { p with
        lseq := p.lseq + 1, line := none, stamps := if trig.isSome then p.stamps.drop 1 else p.stamps }
      let h := if p.owner ≠ 0 then h.heldEvent m else h
      h.toLineChans m ⟨h.frm.fnum.toNat, kept, wide, cin, samples⟩

/-! ### Output pulses (R527 to R530) -/

/-- Whether an output is held in its safe state (R530). -/
def Hw.outputSafe (h : Hw) (o : Nat) : Bool := h.outputsHeld || (h.output o).bound.isNone || (h.output o).orphan

/-- Whether a pulse fires now or at a time that is known: its position has been reached, or its target is a time. -/
def Pulse.ready (p : Pulse) : Bool :=
  p.due || (match p.at_ with
    | .time _ => true
    | .position _ _ => false)

/-- The time until a pulse fires. -/
def Hw.pulseDelay (h : Hw) (p : Pulse) : Nat :=
  match p.at_ with
  | .time t => if h.ptp.time < t then (t - h.ptp.time).toNat else 0
  | .position _ _ => 0

/-- When the edge of a pulse that fires now is driven: RS-422 outputs on a grid of 4 ns, nearest to a time and the first after
a position; the isolated outputs at once (R529). -/
def Hw.edgeTime (h : Hw) (o : Nat) (byTime : Bool) : Nat :=
  if 8 ≤ o then h.now else if byTime then (h.now + 2) / 4 * 4 else (h.now / 4 + 1) * 4

/-- The first pulse of an output that is ready fires: it is driven, or it is suppressed in a hold. -/
def Hw.pulseStart (h : Hw) (o : Nat) : Hw :=
  let x := h.output o
  match firstIdx x.queue Pulse.ready with
  | none => h
  | some i =>
    match x.queue[i]? with
    | none => h
    | some p =>
      let h := h.pass (h.pulseDelay p)
      let h := h.setOutput o { x with queue := x.queue.eraseIdx i }
      if h.outputSafe o then h.setRegBit (Reg.webOevt o) 2
      else
        let t := h.edgeTime o (!p.due)
        let stop := t + p.width
        let h := h.modOutput o (fun x => { x with activeUntil := some (match x.activeUntil with | some e => max e stop | none => stop) })
        (h.advanceTo t).bump (Reg.webOcnt o) 1

/-- An active pulse ends (R529). -/
def Hw.pulseEnd (h : Hw) (o : Nat) : Hw :=
  match (h.output o).activeUntil with
  | some e => (h.advanceTo e).modOutput o (fun x => { x with activeUntil := none })
  | none => h

/-! ### The commands -/

def execCxpConfig (ring : RingId) (p : Packet) (s : State) : Host.Outcome State Fault Refusal := act (·.packet ring p pktCxpConfig) s

def execCxpPower (ring : RingId) (p : Packet) (det : BitVec 8) (s : State) : Host.Outcome State Fault Refusal :=
  act (·.packet ring p (pktCxpPower det)) s

def execCxpCtrl (ring : RingId) (p : Packet) (s : State) : Host.Outcome State Fault Refusal := act (·.packet ring p pktCxpCtrl) s

def execCxpCtrlTimeout (port : Fin 8) (s : State) : Host.Outcome State Fault Refusal := act (·.controlTimeout port) s

def execCxpCameraAnswer (p : Fin 8) (x : CamAnswer) (s : State) : Host.Outcome State Fault Refusal := act (·.cameraAnswer p x) s

/-- CXP_LINK_LOST (R511). -/
def execCxpLinkLost (m : Fin 8) (s : State) : Host.Outcome State Fault Refusal := act (·.linkLost m) s

/-- POCXP_OVERLOAD (R513): a short ends as an overload does. -/
def execPocxpOverload (p : Fin 8) (_short : Bool) (s : State) : Host.Outcome State Fault Refusal := act (·.portOverload p) s

def execCxpPacketReceive (m : Fin 8) (x : CxpPacket) (s : State) : Host.Outcome State Fault Refusal := act (·.cxpPacket m x) s

def execLineDelivery (m : Fin 8) (line : CamLine) (s : State) : Host.Outcome State Fault Refusal := act (·.lineArrives m line) s

def execOutputPulseStart (o : Fin 12) (s : State) : Host.Outcome State Fault Refusal := act (·.pulseStart o) s

def execOutputPulseEnd (o : Fin 12) (s : State) : Host.Outcome State Fault Refusal := act (·.pulseEnd o) s

end Sys2Proof.Machine
end

