-- ==== Sys2Proof/Machine/CareRows.lean ====
section
/-! DEFINITION. Delivery of notices (16 R448), the scrubber (17 R466, R474 to R478) and Coppice's tests, checks, copies and
field map (18 R487 to R490, R497, R503). -/

namespace Sys2Proof.Machine

/-! ### Mailbox (16 R448) -/

/-- The oldest accepted notice of a channel reaches its receiver: RPTR and RWORD, the DB bit, RSIG, and the route's MBX. -/
def Hw.deliverNotice (h : Hw) (n : Nat) : Hw :=
  let ch := h.channel n
  match ch.flight, ch.receiver with
  | (d, ptr, w) :: rest, some _ =>
    let ch := { ch with
      flight := rest, rptr := Tbl.set 0 ch.rptr d ptr, rword := Tbl.set 0 ch.rword d w, db := ch.db ||| (1 <<< d)
      stale := if Tbl.get 0 ch.sstate d = 1 then ch.stale &&& ~~~((1 : Word) <<< d) else ch.stale }
    let h := (h.setChannel n ch).mbxSignal ch.receiver ch.rsig
    if bit ch.mask d then h else h.raiseRoute ch
  | _, _ => h

def execNoticeDelivery (ch : Fin 64) (s : State) : Host.Outcome State Fault Refusal := act (·.deliverNotice ch) s

/-! ### The scrubber (17 R474 to R476, R478) -/

/-- The scrubber's read of one granule (R476). -/
def Hw.scrubGran (h : Hw) (g : Nat) : Hw :=
  match h.gran g with
  | .clean => h
  | .correctable pos hard => h.correct g pos hard 6 0xFF
  | .uncorrectable => (((h.foundUe g 6 0xFF).setGran g .poison).bump Reg.memPoisonw 1).setRegBit Reg.memStat 2
  | .poison => h

/-- A pass over one memory is complete: every count of that memory's table is halved (R478). -/
def Hw.halveRows (h : Hw) (sram : Bool) : Hw :=
  { h with mem.rows := h.mem.rows.map (fun (r : RowCount) => if r.sram = sram then { r with count := r.count / 2 } else r) }

/-- The next item starts where this one ended, in the next memory, or with the next pass (R474). -/
def Hw.scrubOn (h : Hw) (pos : Nat) : Hw :=
  if pos = hbmEnd then { h.halveRows false with mem.scrubPos := sramBase }
  else if sramEnd ≤ pos then
    { h.halveRows true with mem.scrubPos := 0, mem.scrubPass := h.mem.scrubPass + 1 }
  else { h with mem.scrubPos := pos }

/-- One scrub item of at most `size` bytes at MEM_SCRUBPOS, cut short at the end of its memory. -/
def Hw.scrub (h : Hw) (size : Nat) : Hw :=
  let pos := h.mem.scrubPos
  let stop := pos + min size h.scrubRoom
  let found := (h.mem.gran.filter (fun e => pos ≤ e.1 && e.1 < stop)).map (·.1)
  (found.foldl (fun (h : Hw) g => h.scrubGran g) h).scrubOn stop

/-- SCRUB_IDLE_ITEM (R475): in READY one item of 256 KiB every IDLEINT × 10 µs. -/
def Hw.scrubIdle (h : Hw) : Hw :=
  if !h.isState .ready then h
  else
    let period := bits (h.reg Reg.memScrubcfg) 8 8 * 10000
    (h.advanceTo ((h.now / period + 1) * period)).scrub 262144

/-- Takes the first item of this frame that satisfies `p`. -/
def takeItem (p : C3Item → Bool) (l : List C3Item) : Option (C3Item × List C3Item) :=
  match firstIdx l p with
  | some i => (l[i]?).map (fun x => (x, l.eraseIdx i))
  | none => none

/-- SCRUB_ITEM (R474, R476): the scrub item of this frame's plan runs. -/
def Hw.scrubItem (h : Hw) : Hw :=
  match takeItem (fun x => match x with | .scrub _ => true | _ => false) h.col.itemsLeft with
  | some (.scrub n, rest) => ({ h with col.itemsLeft := rest }).scrub n
  | _ => h

def execScrubIdleItem (s : State) : Host.Outcome State Fault Refusal := act Hw.scrubIdle s

def execScrubItem (s : State) : Host.Outcome State Fault Refusal := act Hw.scrubItem s

/-- ODCNT_READ (R466): the stack's error-check-and-scrub count. -/
def execOdcntRead (n : Word) (s : State) : Host.Outcome State Fault Refusal :=
  act (fun h => if h.sys.stewardOn then h.setReg Reg.memOdcnt n else h) s

/-! ### Tests (18 R487 to R490) -/

/-- Marks the parts of a test that fail in this step, each logged with its count as it stands. -/
def Hw.stepFails (h : Hw) (failing : List Nat) (last : Bool) : Hw :=
  failing.foldl (fun (h : Hw) u =>
    let r := h.unitRec u
    if r.confirmed then h
    else
      let h := h.setUnitRec u { r with bad := true }
      if last then h else h.cpcLog u 1 r.count 0xFFFF) h

/-- The units of a whole unit whose test in hand has a failed step. -/
def Hw.badParts (h : Hw) (unit : Nat) : List Nat :=
  (h.cpc.units.filter (fun e => wholeOf e.1 = unit && e.2.bad)).map (·.1)

/-- The place after a unit in the routine sweep of cores, then arrays (R488). -/
def sweepAfter (unit : Nat) : Option Nat :=
  match unitKind unit with
  | 3 => some (unit % 32 + 1)
  | 4 => some ((18 + unit % 4 + 1) % 22)
  | _ => none

/-- A test's last step is complete: it passes or fails, its item runs no more, and a sweep moves on (R488, R490). -/
def Hw.endTest (h : Hw) (unit : Nat) : Hw :=
  let bad := h.badParts unit
  let swept := !h.cpc.suspects.any (fun u => wholeOf u = unit)
  let h := h.testDone unit bad
  let h := bad.foldl (fun (h : Hw) u => h.setUnitRec u { h.unitRec u with bad := false }) h
  let h := { h with col.plan.items := h.col.plan.items.filter (fun x => match x with | .test u _ => u ≠ unit | _ => true) }
  match sweepAfter unit with
  | some i => if swept then { h with cpc.sweep := i } else h
  | none => h

/-- COPPICE_TEST: one step of a test of this frame's plan completes; `failing` names the unit or its parts that fail in it. -/
def Hw.coppiceStep (h : Hw) (unit : Nat) (failing : List Nat) : Hw :=
  match takeItem (fun x => match x with | .test u k => u = unit && 0 < k | _ => false) h.col.itemsLeft with
  | some (.test _ k, rest) =>
    let r := h.unitRec unit
    let left := (if r.left = 0 then 16 else r.left) - 1
    let h := { h with col.itemsLeft := if k ≤ 1 ∨ left = 0 then rest else C3Item.test unit (k - 1) :: rest }
    let h := h.setUnitRec unit { r with left := left }
    let h := h.stepFails (failing.filter (fun u => wholeOf u = unit)) (left = 0)
    if left = 0 then h.endTest unit else h
  | _ => h

def execCoppiceTest (unit : Word) (failing : List Word) (s : State) : Host.Outcome State Fault Refusal :=
  act (·.coppiceStep unit.toNat (failing.map BitVec.toNat)) s

/-! ### Checks that fail in a run (18 R489, 12 R335) -/

/-- The job whose run a job of the plan is. -/
def Hw.planOf (h : Hw) (slot job : Nat) : Option Admit := h.col.plan.jobs.find? (fun a => a.slot = slot && a.job = job)

/-- A residue or parity check fails in a core that runs a job: one failed test, and the job's run is cut off. -/
def Hw.coreCheck (h : Hw) (c unit : Nat) : Hw :=
  let x := h.core c
  if x.run ≠ .job then h
  else
    let h := h.cpcFailed unit 2
    match h.planOf x.slot x.job with
    | some a => h.cutOffJob a
    | none => h

/-- An uncorrectable error in a buffer of an array that runs a command: no write-back, and the context faults (R335). -/
def Hw.arrayCheck (h : Hw) (a : Nat) : Hw :=
  match (h.array a).run with
  | none => h
  | some r =>
    let h := h.cpcFailed (arrayUnit a) 2
    let h := h.modArray a (fun x => { x with run := x.run.map (fun (r : BstRun) => { r with out.rows := r.out.rows.filter (fun w => w.1 ≤ h.now) }) })
    h.ctxFault r.cmd.slot 5 0 a 0

/-- DATAPATH_CHECK_FAIL. -/
def Hw.checkFails (h : Hw) (unit : Nat) : Hw :=
  match unitKind unit with
  | 2 => h.coreCheck (unit / 256 % 32) unit
  | 3 => h.coreCheck (unit % 32) unit
  | 4 => h.arrayCheck (unit % 4)
  | _ => h

def execDatapathCheckFail (unit : Word) (s : State) : Host.Outcome State Fault Refusal := act (·.checkFails unit.toNat) s

/-! ### Shadow copies and the field map (18 R497, R503) -/

/-- SRAM_BANK_COPY_DONE: the copier has finished a logical bank. -/
def execSramBankCopyDone (bank : Fin 32) (s : State) : Host.Outcome State Fault Refusal :=
  act (fun h => { h with cpc.copy := List.map (fun (c : BankCopy) => if c.logical = bank then { c with copied := true } else c) h.cpc.copy }) s

/-- FIELD_MAP_WRITE (R503, R504): the oldest remap without an entry is stored, or the full map of 1,024 entries says so. -/
def Hw.storeMap (h : Hw) : Hw :=
  if !h.sys.stewardOn then h
  else
    match h.cpc.unstored with
    | [] => h
    | u :: rest =>
      let h := { h with cpc.unstored := rest }
      if h.cpc.field.length < 1024 then { h with cpc.field := h.cpc.field ++ [u] }
      else (h.cpcEvent 1).cpcLog u 9 (h.unitRec u).count 0xFFFF

def execFieldMapWrite (s : State) : Host.Outcome State Fault Refusal := act Hw.storeMap s

end Sys2Proof.Machine
end

