-- ==== Sys2Proof/Machine/DmaRows.lean ====
section
/-! DEFINITION. The commands of the DMA engines: fetches, burst grants, beats and completions (15 R411 to R425). -/

namespace Sys2Proof.Machine

/-! ### Where a beat lies (R411, R414, R415) -/

/-- What one beat's access answers: the state, the bytes with their poison, and the error that follows them. -/
structure BeatRead where
  hw : Hw
  bytes : List (Byte × Bool)
  err : Option ChanErr

/-- The address of a stream byte of a side; `entry` is its element's index table entry. CORE addresses count modulo 2^18. -/
def Side.at (s : Side) (entry j : Nat) : Int :=
  let base : Int := if s.spc = 1 then (s.addr % 2 ^ 18 : Nat) else (s.addr : Nat)
  let line : Nat := j / s.llen
  base + (if s.pat = 1 then (entry : Int) else (line : Int) * s.stride) + (j % s.llen : Nat)

/-- The bytes of a beat at an address: up to the end of its line or element, and of its 64 aligned bytes. -/
def Side.beatLen (s : Side) (a : Int) (j : Nat) : Nat := min (s.llen - j % s.llen) (64 - (a % 64).toNat)

/-- The context address that an access carries: 48 bits, or a value beyond them where the exact address has none. -/
def exactVa (a : Int) : Nat := (a % (2 ^ 64 : Nat)).toNat

/-- The index table entry of the element that holds stream byte `j` of a side (R414), read when it is not the one in use. -/
def Hw.dmaEntry (h : Hw) (n : Nat) (s : Side) (j : Nat) : Hw × Except ChanErr Nat :=
  let c := h.dmaChan n
  let i := j / s.llen
  if s.pat ≠ 1 then (h, .ok 0)
  else
    let read : Hw × Except ChanErr Nat :=
      match h.vaRead (dmaCache n) 1 c.slot (dmaItab c.words + 4 * i) 4 with
      | (h, _, some (.xlat r va)) => (h, .error (.xlat r va))
      | (h, _, some _) => (h, .error (.code Dma.poisonErr))
      | (h, bs, none) => (h.modDmaChan n (fun c => { c with entry := some (i, natOf bs) }), .ok (natOf bs))
    match c.entry with
    | some (k, v) => if k = i then (h, .ok v) else read
    | none => read

/-! ### Reading a beat (R415, R416, R422, R423) -/

/-- The aligned words of register space that a beat covers; other parts are refused by their width. -/
def Hw.deviceBytes (h : Hw) (src : RegSrc) (a n : Nat) : Nat → Hw × List Byte
  | 0 => (h, [])
  | f + 1 =>
    if n = 0 then (h, [])
    else if a % 4 = 0 && 4 ≤ n then
      let r := h.deviceRead src a
      let t := r.1.deviceBytes src (a + 4) (n - 4) f
      (t.1, bytesOf 4 r.2.toNat ++ t.2)
    else
      let k := min n (4 - a % 4)
      let t := (h.widthErr src false a).deviceBytes src (a + k) (n - k) f
      (t.1, List.replicate k 0 ++ t.2)

/-- Reads granules as the DMA agent; answers those that gave poison. -/
def Hw.dmaGrans (h : Hw) (slot a n : Nat) : Hw × List Nat :=
  (granules a n).foldl (fun (x : Hw × List Nat) g =>
    let y := x.1.readGran g 1 slot
    (y.1, if y.2 then x.2 ++ [g] else x.2)) (h, [])

/-- Bytes of a local address with the poison of their granules. -/
def flagBytes (bs : List Byte) (a : Nat) (bad : List Nat) : List (Byte × Bool) :=
  bs.zipIdx.map (fun x => (x.1, bad.contains (granBase (a + x.2))))

/-- A read beat at a context address. -/
def Hw.readVa (h : Hw) (n slot va len : Nat) : BeatRead :=
  if inAperture va then
    let r := h.deviceBytes (.dma (Fin.ofNat 128 n)) va len len
    ⟨r.1, r.2.map (·, false), none⟩
  else
    match h.translate (dmaCache n) 1 slot va false with
    | (h, .fail r) => ⟨h, [], some (.xlat r va)⟩
    | (h, .ok tgt a) =>
      if tgt = 2 then
        let r := h.hostRead (h.ctx slot).owner a len
        ⟨r.1, r.2.1.map (·, false), if r.2.2 then some (.code Dma.poisonErr) else none⟩
      else
        let r := h.dmaGrans slot a len
        ⟨r.1, flagBytes (Mem.getN r.1.mem.cells a len) a r.2, none⟩

/-- The core that a CORE side names now (R416). -/
def Hw.sideCore (h : Hw) (slot : Nat) (s : Side) : Option Nat :=
  h.runCore slot (s.addr / 2 ^ 48 % 64) (s.addr / 2 ^ 56 % 16) (s.addr / 2 ^ 60 % 2)

/-- A read beat of X or Y memory. -/
def Hw.readCore (h : Hw) (slot : Nat) (s : Side) (a : Int) (len : Nat) : BeatRead :=
  match h.sideCore slot s with
  | none => ⟨h, [], some (.code Dma.noCore)⟩
  | some c =>
    let o := (a % (2 ^ 18 : Nat)).toNat
    let r := h.dmaGrans slot (coreWindow c + o) len
    ⟨r.1, flagBytes ((r.1.core c).bytesAt o len) (coreWindow c + o) r.2, none⟩

/-- The limit of the stream bytes that a channel may move now: its total, or what its bursts cover. -/
def DmaChan.limit (c : DmaChan) : Nat :=
  let total := (srcSide c.words).total
  if dmaPaced c.words then min total c.granted else total

/-- A read beat of a channel: the bytes join the staging buffer, and an error waits until they are written (R422). -/
def Hw.readBeat (h : Hw) (n : Nat) : Hw :=
  let c := h.dmaChan n
  let s := srcSide c.words
  let wait (h : Hw) (e : ChanErr) : Hw := h.modDmaChan n (fun c => { c with pend := some e })
  match h.dmaEntry n s c.rd with
  | (h, .error e) => wait h e
  | (h, .ok entry) =>
    let a := s.at entry c.rd
    let len := min (s.beatLen a c.rd) (c.limit - c.rd)
    let r := if s.spc = 1 then h.readCore c.slot s a len else h.readVa n c.slot (exactVa a) len
    let h := r.hw.modDmaChan n (fun c => { c with
      rd := c.rd + r.bytes.length, rdLeft := c.rdLeft - r.bytes.length
      stage := if r.bytes.isEmpty then c.stage else c.stage ++ [r.bytes] })
    match r.err with
    | some e => wait h e
    | none => h

/-! ### Writing a beat (R415, R416, R422, R423) -/

/-- The aligned words of register space that a beat writes. -/
def Hw.deviceStore (h : Hw) (src : RegSrc) (a : Nat) (bs : List Byte) : Nat → Hw
  | 0 => h
  | f + 1 =>
    if bs.isEmpty then h
    else if a % 4 = 0 && 4 ≤ bs.length then
      (h.deviceWrite src a (BitVec.ofNat 32 (natOf (bs.take 4)))).deviceStore src (a + 4) (bs.drop 4) f
    else
      let k := min bs.length (4 - a % 4)
      (h.widthErr src true a).deviceStore src (a + k) (bs.drop k) f

/-- The granules of a local range that receive a poisoned byte. -/
def poisonedGrans (a : Nat) (data : List (Byte × Bool)) : List Nat :=
  (data.zipIdx.filterMap (fun x => if x.1.2 then some (granBase (a + x.2)) else none)).eraseDups

/-- A write beat at a context address. -/
def Hw.writeVa (h : Hw) (n slot va : Nat) (data : List (Byte × Bool)) : Hw × Option ChanErr :=
  let bs := data.map (·.1)
  let bad := data.any (·.2)
  if inAperture va then
    if bad then (h, some (.code Dma.poisonErr)) else (h.deviceStore (.dma (Fin.ofNat 128 n)) va bs bs.length, none)
  else
    match h.translate (dmaCache n) 1 slot va true with
    | (h, .fail r) => (h, some (.xlat r va))
    | (h, .ok tgt a) =>
      if tgt = 2 then
        if bad then (h, some (.code Dma.poisonErr)) else (h.hostWrite (h.ctx slot).owner a bs, none)
      else
        let h := h.memWrite 1 slot a bs
        ((poisonedGrans a data).foldl (fun (h : Hw) g => h.poison g 6 1 slot) h, none)

/-- A write beat into X or Y memory. -/
def Hw.writeCore (h : Hw) (slot : Nat) (s : Side) (a : Int) (data : List (Byte × Bool)) : Hw × Option ChanErr :=
  match h.sideCore slot s with
  | none => (h, some (.code Dma.noCore))
  | some c =>
    if data.any (·.2) then (h, some (.code Dma.poisonErr))
    else (h.winWrite 1 slot c (a % (2 ^ 18 : Nat)).toNat (data.map (·.1)), none)

/-- Byte `j` of a FILL source (R415). -/
def fillByte (d : List Word) (j : Nat) : Byte × Bool := (BitVec.ofNat 8 (dmaPair d 4 / 256 ^ (j % 8)), false)

/-- Removes the first `n` staged bytes. -/
def dropStage : List (List (Byte × Bool)) → Nat → List (List (Byte × Bool))
  | [], _ => []
  | b :: t, n => if n = 0 then b :: t else if b.length ≤ n then dropStage t (n - b.length) else b.drop n :: t

def DmaChan.staged (c : DmaChan) : Nat := (c.stage.map List.length).sum

/-- The channel stops with an error. -/
def Hw.dmaErr (h : Hw) (n : Nat) : ChanErr → Hw
  | .code e => h.dmaFail n e
  | .xlat r va => h.dmaXlat n r va

/-- A write beat of a channel; an error stops it at once, and its staged bytes go (R422). -/
def Hw.writeBeat (h : Hw) (n : Nat) : Hw :=
  let c := h.dmaChan n
  let s := dstSide c.words
  let fill := (srcSide c.words).spc = 2
  match h.dmaEntry n s c.wr with
  | (h, .error e) => h.dmaErr n e
  | (h, .ok entry) =>
    let a := s.at entry c.wr
    let room := if fill then c.limit - c.wr else c.staged
    let len := min (s.beatLen a c.wr) room
    let data := if fill then (List.range len).map (fun i => fillByte c.words (c.wr + i)) else (c.stage.flatten).take len
    let r := if s.spc = 1 then h.writeCore c.slot s a data else h.writeVa n c.slot (exactVa a) data
    match r.2 with
    | some e => r.1.dmaErr n e
    | none => r.1.modDmaChan n (fun c => { c with
        wr := c.wr + len, wrLeft := c.wrLeft - len, stage := if fill then c.stage else dropStage c.stage len })

/-! ### Arbitration (R421) -/

/-- A channel that moves a descriptor's bytes. -/
def DmaChan.moving (c : DmaChan) : Bool := c.state = .running && c.words ≠ [] && c.pend.isNone

/-- Room for one more read beat: 64 fill the staging buffer (R411). -/
def DmaChan.hasRoom (c : DmaChan) : Bool := c.stage.length < 64

/-- A read beat is ready. -/
def DmaChan.readReady (c : DmaChan) : Bool :=
  c.moving && (srcSide c.words).spc ≠ 2 && c.rd < c.limit && c.hasRoom

/-- A write beat is ready: a whole beat is staged, or what is staged is all there is for now. -/
def DmaChan.writeReady (c : DmaChan) : Bool :=
  let total := (srcSide c.words).total
  let s := dstSide c.words
  let whole := if s.pat = 1 then min 64 (s.llen - c.wr % s.llen) else s.beatLen (s.at 0 c.wr) c.wr
  if c.state ≠ .running || c.words = [] || total ≤ c.wr then false
  else if (srcSide c.words).spc = 2 then c.pend.isNone && c.wr < c.limit
  else 0 < c.staged && (whole ≤ c.staged || c.limit ≤ c.rd || c.pend.isSome || !c.hasRoom)

/-- The next of rising channel numbers after the one served last, in a circle. -/
def nextAfter (last : Option Nat) (l : List Nat) : Option Nat :=
  match last with
  | none => l.head?
  | some k => match l.find? (fun n => k < n) with
    | some n => some n
    | none => l.head?

/-- The channel that a port serves: of highest priority; among equals the one whose burst it serves, then one with a burst
begun, then the next in turn. `left` is the bytes left of a channel's burst on that port. -/
def Hw.portPick (h : Hw) (left : DmaChan → Nat) (hold : Option Nat) (last : Tbl Nat) (cands : List Nat) : Option Nat :=
  let prio (n : Nat) := (h.dmaChan n).prio
  let top := (cands.map prio).foldl max 0
  let same := cands.filter (fun n => prio n = top)
  let begun := same.filter (fun n => 0 < left (h.dmaChan n))
  match hold with
  | some k => if begun.contains k then some k else nextAfter (Tbl.find last top) (if begun.isEmpty then same else begun)
  | none => nextAfter (Tbl.find last top) (if begun.isEmpty then same else begun)

/-- The channels of an engine that satisfy `p`, rising. -/
def Hw.engineChans (h : Hw) (e : Nat) (p : DmaChan → Bool) : List Nat :=
  (h.dma.chans.filter (fun (x : Nat × DmaChan) => engineOf x.1 = e && p x.2)).map (·.1)

/-- A port passes from its holder to a candidate of higher priority in the middle of a burst: a pre-emption. -/
def Hw.preempts (h : Hw) (left : DmaChan → Nat) (hold : Option Nat) (cands : List Nat) (n : Nat) : Bool :=
  match hold with
  | some k => k ≠ n && cands.contains k && 0 < left (h.dmaChan k) && (h.dmaChan k).prio < (h.dmaChan n).prio
  | none => false

/-- Channel `n` takes a port: a pre-emption counts, and a burst begins when none is under way. -/
def Hw.takePort (h : Hw) (e n : Nat) (write : Bool) (cands : List Nat) : Hw :=
  let g := h.dmaEngine e
  let c := h.dmaChan n
  let left := if write then DmaChan.wrLeft else DmaChan.rdLeft
  let hold := if write then g.wrHold else g.rdHold
  let h := if h.preempts left hold cands n then h.bump (Reg.dmaEngpre e) 1 else h
  let burst := if dmaPaced c.words then dmaBurst c.words else 4096
  let h := if write then
      (h.setDmaEngine e { g with wrHold := some n, wrLast := Tbl.put g.wrLast c.prio n }).setDmaChan n
        { c with wrLeft := if c.wrLeft = 0 then burst else c.wrLeft }
    else
      (h.setDmaEngine e { g with rdHold := some n, rdLast := Tbl.put g.rdLast c.prio n }).setDmaChan n
        { c with rdLeft := if c.rdLeft = 0 then burst else c.rdLeft }
  h

/-- Channels whose error waited for the bytes before it stop when these are written (R422). -/
def Hw.firePending (h : Hw) (e : Nat) : Hw :=
  (h.engineChans e (fun c => c.state = .running && c.pend.isSome && c.stage.isEmpty)).foldl (fun (h : Hw) n =>
    match (h.dmaChan n).pend with
    | some x => h.dmaErr n x
    | none => h) h

/-- One fabric cycle of an engine (R411, R421): a read beat and a write beat, each of the channel that its port serves. -/
def Hw.engineCycle (h : Hw) (e : Nat) : Hw :=
  let g := h.dmaEngine e
  let rc := h.engineChans e DmaChan.readReady
  let wc := h.engineChans e DmaChan.writeReady
  let r := h.portPick DmaChan.rdLeft g.rdHold g.rdLast rc
  let w := h.portPick DmaChan.wrLeft g.wrHold g.wrLast wc
  let h := match r with
    | some n => (h.takePort e n false rc).readBeat n
    | none => h
  let h := match w with
    | some n => if (h.dmaChan n).state = ChanState.running then (h.takePort e n true wc).writeBeat n else h
    | none => h
  let h := h.firePending e
  if r.isSome || w.isSome then
    let g := h.dmaEngine e
    h.setDmaEngine e { g with busy := g.busy + 1 }
  else h

/-! ### Burst grants (R419) -/

/-- A channel that awaits a request and is eligible in this cycle. -/
def Hw.eligible (h : Hw) (c : DmaChan) : Bool :=
  c.moving && c.waitReq && h.armedNow c && (match c.line with | some k => h.lineHigh k | none => false)

/-- The request is taken: ARMED clears, a held line gives one event and drops for one cycle. -/
def Hw.takeRequest (h : Hw) (k : Nat) : Hw :=
  if k < 16 then { h with
    dma.held := Tbl.set 0 h.dma.held k (Tbl.get 0 h.dma.held k - 1), dma.dropped := Tbl.put h.dma.dropped k h.now }
  else h

/-- A burst of channel `n` is granted when it wins the port of its first beat. -/
def Hw.grantBurst (h : Hw) (n : Nat) : Hw :=
  let c := h.dmaChan n
  let e := engineOf n
  let g := h.dmaEngine e
  let fill := (srcSide c.words).spc = 2
  let ready (x : DmaChan) : Bool := (if fill then x.writeReady else x.readReady) ||
    (h.eligible x && (fill = ((srcSide x.words).spc = 2)) && (fill || x.hasRoom))
  let cands := h.engineChans e ready
  let pick := if fill then h.portPick DmaChan.wrLeft g.wrHold g.wrLast cands else h.portPick DmaChan.rdLeft g.rdHold g.rdLast cands
  match c.line with
  | none => h
  | some k =>
    if !h.eligible c || pick ≠ some n then h
    else
      let h := (h.takePort e n fill cands).takeRequest k
      h.modDmaChan n (fun c =>
        let pos := if fill then c.wr else c.rd
        { c with armed := false, seenLow := k < 16, granted := min (srcSide c.words).total (pos + dmaBurst c.words) })

/-! ### The commands -/

def execDescriptorFetch (n : Fin 128) (s : State) : Host.Outcome State Fault Refusal := act (·.dmaFetch n) s

def execDmaBurstGrant (n : Fin 128) (s : State) : Host.Outcome State Fault Refusal := act (·.grantBurst n) s

def execDmaBeat (e : Fin 4) (s : State) : Host.Outcome State Fault Refusal := act (·.engineCycle e) s

def execDescriptorComplete (n : Fin 128) (s : State) : Host.Outcome State Fault Refusal := act (·.dmaComplete n) s

end Sys2Proof.Machine
end

