-- ==== Sys2Proof/Machine/PktSync.lean ====
section
/-! DEFINITION. Packets about sync counters, mailbox endpoints and DMA channels (04 R113 to R118, R130 to R134, 05 R156,
15 R410, R424 to R427, 16 R434 to R454). -/

namespace Sys2Proof.Machine

/-! ### Counters -/

/-- Whether the counters `[a, a + n)` are all FREE. -/
def Hw.allFree (h : Hw) (a n : Nat) : Bool :=
  a + n ≤ 16384 && h.counters.all (fun e => e.2.state = .free || e.1 < a || a + n ≤ e.1)

/-- A block of `n` FREE counters, if there is one; which one is the steward's choice (log entry 22). -/
def Hw.freeCounters (h : Hw) (n : Nat) : Option Nat :=
  let used := (h.counters.filter (fun e => e.2.state ≠ .free)).map (·.1)
  let a := Config.counterPlace used n h.now
  if h.allFree a n then some a else ((0 :: used.map (· + 1)).filter (fun a => h.allFree a n)).min?

/-- Whether `n` more of a resource stay inside the context's quota and its function's limit (05 R156). -/
def within2 (held quota used limit n : Nat) : Bool := held + n ≤ quota && used + n ≤ limit

/-- SYN_ALLOC (R113). -/
def pktSynAlloc : OpBody := .fixed 0x0301 [(4, 0x7FFF), (5, 0xFFFFFFFF), (6, 0xFFFFFFFF)] (fun c h =>
  let n := c.f 4 0 15
  let x := h.ctx c.slot
  let at_ := h.freeCounters n
  let ok := within2 (h.ownedCounters c.slot).length x.maxSyn (h.synUsed x.owner) (h.synLimit x.owner) n
  checked h [outOfRange (16384 < n) 4, noResource (n ≠ 0 && (!ok || at_.isNone)) 16] (fun _ =>
    match n, at_ with
    | 0, _ => done h []
    | _, none => refuse h Status.noResource 16
    | _, some a =>
      let new : Counter := ⟨BitVec.ofNat 64 (c.q 5), .owned, c.slot, false⟩
      done ((List.range n).foldl (fun (h : Hw) i => h.setCounter (a + i) new) h) [(0, 4, a)]))

/-- SYN_FREE (R114). -/
def pktSynFree : OpBody := .fixed 0x0302 [(4, 0x3FFF), (5, 0x7FFF)] (fun c h =>
  let a := c.f 4 0 14
  let n := c.f 5 0 15
  let mine (i : Nat) : Bool := (h.counter i).state = .owned && (h.counter i).slot = c.slot
  checked h [outOfRange (16384 < a + n) 5, notPermitted ((List.range n).any (fun i => !mine (a + i))) 4] (fun _ =>
    done ((List.range n).foldl (fun (h : Hw) i => h.releaseCounter (a + i)) h) []))

/-- SYN_SIGNAL (R115). -/
def pktSynSignal : OpBody := .fixed 0x0303 [(4, 0x3FFF), (5, 0xFFFFFFFF), (6, 0xFFFFFFFF)] (fun c h =>
  let n := c.f 4 0 14
  checked h [notPermitted (!h.mayUse c.slot n) 4] (fun _ =>
    match h.signalAt ⟨c.slot, 0⟩ n (BitVec.ofNat 64 (c.q 5)) with
    | (h, true) => done h []
    | (h, false) => refuse h Status.outOfRange 20))

/-- SYN_WAIT (R116). -/
def pktSynWait : OpBody := .fixed 0x0304 [(4, 0x3FFF), (5, 0xFFFFFFFF), (6, 0xFFFFFFFF), (7, 0xFF)] (fun c h =>
  let n := c.f 4 0 14
  let target := BitVec.ofNat 64 (c.q 5)
  let t := c.f 7 0 8
  checked h [notPermitted (!h.mayUse c.slot n) 4, (t ≠ 0 && !h.ticksRun, Status.wrongState, 28)] (fun _ =>
    let v := (h.counter n).value
    if target ≤ v then done h [(0, 8, v.toNat), (8, 1, 1)]
    else if t = 0 then done h [(0, 8, v.toNat)]
    else (h, .wait (.synWait n target t))))

/-- TIMEOUT ticks have passed for the SYN_WAIT of a ring (R116). -/
def Hw.synWaitTimeout (h : Hw) (rid : RingId) : Hw :=
  match (h.ring rid).exec with
  | some ⟨p, .synWait n _ 0⟩ => h.reply rid p Status.ok (resultOf [(0, 8, (h.counter n).value.toNat)])
  | _ => h

/-! ### Mailbox endpoints -/

/-- The address of an endpoint (16 R446). -/
def endpointAddr (ch : Nat) (recv : Bool) : Nat := mbxBase + 0x1000 * ch + (if recv then 0x800 else 0)

/-- MBX_OPEN (R117, 16 R452). -/
def pktMbxOpen : OpBody := .fixed 0x0310 [(4, 0x113F)] (fun c h =>
  let n := c.f 4 0 6
  let recv := bit (c.w 4) 8
  let poll := bit (c.w 4) 12
  let x := h.ctx c.slot
  let ch := h.channel n
  let held := if recv then ch.receiver.isSome else ch.sender.isSome
  checked h [outOfRange (!recv && poll) 4, notPermitted (32 ≤ n && !x.secure) 4,
      noResource (held || !within2 (h.endpointsOf c.slot) x.maxMbx (h.mbxUsed x.owner) (h.mbxLimit x.owner) 1) 16] (fun _ =>
    let ch := if recv then
        { ch with receiver := some c.slot, poll := poll, db := 0, rptr := [], rword := [], mask := 0, route := 0, rsig := 0 }
      else { ch with sender := some c.slot, sstate := [], srefused := 0, ssig := 0 }
    done (h.setChannel n ch) [(0, 8, endpointAddr n recv)]))

/-- MBX_CLOSE (R118, 16 R454). -/
def pktMbxClose : OpBody := .fixed 0x0311 [(4, 0x13F)] (fun c h =>
  let n := c.f 4 0 6
  let recv := bit (c.w 4) 8
  let ch := h.channel n
  let held : Bool := (if recv then ch.receiver else ch.sender) = some c.slot
  checked h [wrongState (!held)] (fun _ => done (if recv then (h.closeReceiver n).1 else h.closeSender n) []))

/-! ### DMA channels -/

/-- DMA_ALLOC (R130, 15 R410): the lowest-numbered free channels. -/
def pktDmaAlloc : OpBody := .fixed 0x0701 [(4, 0x7FF)] (fun c h =>
  let n := c.f 4 0 8
  let x := h.ctx c.slot
  let free := (List.range 128).filter (fun k => (h.dmaChan k).state = .free)
  let ok := within2 (h.ownedChans c.slot).length x.maxDma (h.dmaUsed x.owner) (h.dmaLimit x.owner) n
  checked h [outOfRange (128 < n) 4, noResource (!ok || free.length < n) 16] (fun _ =>
    let l := free.take n
    let h := l.foldl (fun (h : Hw) k => h.modDmaChan k (fun d => { d with state := .idle, slot := c.slot, prio := c.f 4 8 3 })) h
    (h, .reply Status.ok (bytesOf 16 (l.map (fun k => 2 ^ k)).sum))))

/-- Whether a context owns a channel. -/
def Hw.ownsChan (h : Hw) (slot n : Nat) : Bool := (h.dmaChan n).state ≠ .free && (h.dmaChan n).slot = slot

/-- DMA_FREE (R131). -/
def pktDmaFree : OpBody :=
  .fixed 0x0702 [(4, 0xFFFFFFFF), (5, 0xFFFFFFFF), (6, 0xFFFFFFFF), (7, 0xFFFFFFFF)] (fun c h =>
  let l := (List.range 128).filter (fun n => bit (c.w (4 + n / 32)) (n % 32))
  let bad := l.find? (fun n => !h.ownsChan c.slot n)
  checked h [notPermitted bad.isSome (4 + bad.getD 0 / 32)] (fun _ =>
    done (l.foldl (fun (h : Hw) n => h.freeChan n) h) []))

/-- DMA_START (R132). -/
def pktDmaStart : OpBody := .fixed 0x0703 [(4, 0x7F), (5, 0xFFFFFFFF), (6, 0xFFFFFFFF)] (fun c h =>
  let n := c.f 4 0 7
  checked h [notPermitted (!h.ownsChan c.slot n) 4, outOfRange (2 ^ 48 ≤ c.q 5) 6, outOfRange (c.q 5 % 64 ≠ 0) 5,
      wrongState ((h.dmaChan n).state ≠ .idle)] (fun _ =>
    done (h.modDmaChan n (fun d => { (d.goTo (c.q 5)) with recheck := false, err := 0, stage := [], granted := 0, rdLeft := 0, wrLeft := 0, entry := none, pend := none })) []))

/-- DMA_KICK (R133). -/
def pktDmaKick : OpBody := .fixed 0x0704 [(4, 0x7F)] (fun c h =>
  let n := c.f 4 0 7
  checked h [notPermitted (!h.ownsChan c.slot n) 4] (fun _ => done (h.dmaKick n) []))

/-- DMA_STOP (R134, 15 R424): the position of the descriptor in progress, and the channel is IDLE. -/
def pktDmaStop : OpBody := .fixed 0x0705 [(4, 0x7F)] (fun c h =>
  let n := c.f 4 0 7
  checked h [notPermitted (!h.ownsChan c.slot n) 4] (fun _ =>
    let d := h.dmaChan n
    if d.state = .idle then done h []
    else done (h.setDmaChan n d.stopped) [(0, 8, d.desc.toNat), (8, 4, min d.left 0xFFFFFFFF)]))

/-! ### The commands -/

def execSynAlloc (ring : RingId) (p : Packet) (s : State) : Host.Outcome State Fault Refusal := act (·.packet ring p pktSynAlloc) s

def execSynFree (ring : RingId) (p : Packet) (s : State) : Host.Outcome State Fault Refusal := act (·.packet ring p pktSynFree) s

def execSynSignal (ring : RingId) (p : Packet) (s : State) : Host.Outcome State Fault Refusal := act (·.packet ring p pktSynSignal) s

def execSynWait (ring : RingId) (p : Packet) (s : State) : Host.Outcome State Fault Refusal := act (·.packet ring p pktSynWait) s

/-- SYN_WAIT_TIMEOUT (R116). -/
def execSynWaitTimeout (ring : RingId) (s : State) : Host.Outcome State Fault Refusal := act (·.synWaitTimeout ring) s

def execMbxOpen (ring : RingId) (p : Packet) (s : State) : Host.Outcome State Fault Refusal := act (·.packet ring p pktMbxOpen) s

def execMbxClose (ring : RingId) (p : Packet) (s : State) : Host.Outcome State Fault Refusal := act (·.packet ring p pktMbxClose) s

def execDmaAlloc (ring : RingId) (p : Packet) (s : State) : Host.Outcome State Fault Refusal := act (·.packet ring p pktDmaAlloc) s

def execDmaFree (ring : RingId) (p : Packet) (s : State) : Host.Outcome State Fault Refusal := act (·.packet ring p pktDmaFree) s

def execDmaStart (ring : RingId) (p : Packet) (s : State) : Host.Outcome State Fault Refusal := act (·.packet ring p pktDmaStart) s

def execDmaKick (ring : RingId) (p : Packet) (s : State) : Host.Outcome State Fault Refusal := act (·.packet ring p pktDmaKick) s

def execDmaStop (ring : RingId) (p : Packet) (s : State) : Host.Outcome State Fault Refusal := act (·.packet ring p pktDmaStop) s

end Sys2Proof.Machine
end

