-- ==== Sys2Proof/Machine/PktJobs.lean ====
section
/-! DEFINITION. Packets about jobs, swaps, staged registers, programs, models and output rules (04 R119, R120, R122 to R129, R140,
02 R49 to R51, 07 R213, 08 R267, 24 R639). -/

namespace Sys2Proof.Machine

/-! ### Jobs -/

/-- The range checks of a job descriptor in w8 to w23 (07 R213). -/
def jobChecks (c : Cmd) : List Check :=
  let cls := c.f 8 0 2
  let cores := c.f 8 16 5
  let arrays := c.f 8 21 3
  [outOfRange ((c.f 8 2 3 ≠ 0 && cls ≠ 2) || (c.f 8 5 1 = 1 && (cls ≠ 0 || 8 < cores || 2 < arrays)) ||
      (c.f 8 8 8 ≠ 0 && cls ≠ 1) || cores = 0 || 16 < cores || 4 < arrays) 8,
   outOfRange (1000000000 < c.f 10 0 30) 10, outOfRange (c.f 11 8 1 = 1 && c.f 11 4 4 ≠ 0) 11,
   outOfRange (c.f 15 0 8 ≠ 0 && cls ≠ 0) 15]

/-- The jobs of all contexts. -/
def Hw.jobsInModule (h : Hw) : Nat := (h.ctxs.map (fun (e : Nat × Ctx) => e.2.jobEntries)).sum

/-- JOB_DEFINE (R119). -/
def pktJobDefine : OpBody :=
  .fixed 0x0401 [(4, 0x3F), (8, 0xFFFF3F), (9, 0xFFFFFFFF), (10, 0x3FFFFFFF), (11, 0x1FF), (12, 0xFFFFFFFF), (13, 0xFFFF),
    (14, 0x80003FFF), (15, 0xFF)] (fun c h =>
  let i := c.f 4 0 6
  let x := h.ctx c.slot
  let known := (Tbl.find x.staged.jobs i).isSome || (Tbl.find x.active.jobs i).isSome
  let room := within2 x.jobEntries x.maxJobs (h.jobsUsed x.owner) (h.jobLimit x.owner) 1 && h.jobsInModule < 4096
  checked h (jobChecks c ++ [swapPending h c.slot, noResource (!known && !room) 16]) (fun _ =>
    done (h.modCtx c.slot (fun x => { x with
      staged.jobs := Tbl.put x.staged.jobs i ((List.range 16).map (fun k => c.w (8 + k))) })) []))

/-- JOB_REMOVE (R120). -/
def pktJobRemove : OpBody := .fixed 0x0402 [(4, 0x3F)] (fun c h =>
  checked h [swapPending h c.slot] (fun _ =>
    done (h.modCtx c.slot (fun x => { x with staged.jobs := Tbl.del x.staged.jobs (c.f 4 0 6) })) []))

/-- A number as a 32-bit result saturates (07, At the edges). -/
def sat32 (n : Nat) : Nat := min n 0xFFFFFFFF

/-- COL_QUERY (R122): of an active job, or of all the context's active jobs; bytes 12 to 15 of the totals are free (log entry 5). -/
def pktColQuery : OpBody := .fixed 0x0404 [(4, 0x7F)] (fun c h =>
  let j := c.f 4 0 7
  let x := h.ctx c.slot
  checked h [outOfRange (64 < j) 4] (fun _ =>
    let budget := (0, 4, sat32 h.col.plan.budget)
    let jobs := x.active.jobs
    if j = 64 then
      done h [budget, (4, 4, sat32 (jobs.map (fun e => (nth 0 e.2 1).toNat)).sum),
        (8, 4, sat32 (jobs.map (fun e => (Tbl.get {} x.stats e.1).measured)).sum),
        (12, 4, (Config.queryTotals c.slot h.now).toNat)]
    else
      match Tbl.find jobs j with
      | none => done h [budget]
      | some d =>
        let st := Tbl.get {} x.stats j
        done h [budget, (4, 4, (nth 0 d 1).toNat), (8, 4, sat32 st.measured), (12, 2, st.age), (14, 1, jobClass d),
          (15, 1, (h.col.plan.jobs.any (fun a => a.slot = c.slot && a.job = j)).toNat)]))

/-! ### Swaps -/

/-- Whether a target frame is in the future (02 R40). -/
def Hw.inFuture (h : Hw) (n : Nat) : Bool :=
  let d := (BitVec.ofNat 48 n - h.frm.fnum).toNat
  1 ≤ d && d < 2 ^ 47

/-- The frame that the next boundary opens: frame 0 when the tick has not begun (02 R33). -/
def Hw.opensNext (h : Hw) : Nat := if h.ticksRun then h.nextFrame else 0

/-- The target of an arm command: an arm in the tail of its target slides to the boundary after it (02 R50). -/
def Hw.swapTarget (h : Hw) (next : Bool) (target : Nat) : Nat :=
  let t := if next then h.opensNext else target
  if h.ticksRun && h.frm.tailBegun && t = h.nextFrame then (h.frm.fnum + 2).toNat else t

/-- The refusals that SWAP_ARM and DOMAIN_SWAP_ARM share (R123, R146): NEXT with a TARGET, and a TARGET not in the future. -/
def armChecks (h : Hw) (c : Cmd) : List Check :=
  let next := bit (c.w 4) 0
  [(next && c.w 5 ≠ 0, Status.reservedNonzero, 20), (next && c.w 6 ≠ 0, Status.reservedNonzero, 24),
   outOfRange (!next && !h.inFuture (c.q 5)) 5]

/-- SWAP_ARM (R123). -/
def pktSwapArm : OpBody := .fixed 0x0501 [(4, 3), (5, 0xFFFFFFFF), (6, 0xFFFF), (7, 0x3FFF)] (fun c h =>
  let n := c.f 7 0 14
  checked h (armChecks h c ++ [((h.ctx c.slot).swap.isSome || h.inDomainSwap c.slot, Status.swapPending, 0),
      notPermitted (!h.mayUse c.slot n) 7]) (fun _ =>
    let t := h.swapTarget (bit (c.w 4) 0) (c.q 5)
    done (h.modCtx c.slot (fun x => { x with swap := some ⟨t, bit (c.w 4) 1, n, false⟩ })) [(0, 8, t)]))

/-- SWAP_CANCEL (R124). -/
def pktSwapCancel : OpBody := .fixed 0x0502 [] (fun c h =>
  let w := (h.ctx c.slot).swap
  checked h [wrongState w.isNone, (w.any (·.committed), Status.swapPending, 0)] (fun _ =>
    done (h.modCtx c.slot (fun x => { x with swap := none })) []))

/-- SWAP_STATUS (R125). -/
def pktSwapStatus : OpBody := .fixed 0x0503 [] (fun c h =>
  let x := h.ctx c.slot
  let t := match x.swap with | some w => w.target | none => 0
  done h [(0, 6, t), (8, 6, x.lastSwap), (14, 1, x.swap.isSome.toNat + 2 * (h.inDomainSwap c.slot).toNat +
    4 * (x.swap.any (·.committed)).toNat + 8 * x.swapped.toNat)])

/-! ### Staged registers (R126, 24 R639) -/

/-- The pairs of REG_STAGE: word number, offset, value. -/
def stagePairs (c : Cmd) : List (Nat × Nat × Word) :=
  (List.range (c.f 4 0 6)).map (fun i => (6 + 2 * i, (c.w (6 + 2 * i)).toNat, c.w (7 + 2 * i)))

/-- Which register an offset names: a line-rate channel's control, the low or high half of its descriptor, or a trigger. -/
inductive StageReg where
  | ctl (n : Nat)
  | low (n : Nat)
  | high (n : Nat)
  | trig (m : Nat)

def stageReg (off : Nat) : Option StageReg :=
  match idx off 0x14100 0x40 4, idx off 0x2000000 0x40 8 with
  | some (n, 0x00), _ => some (.ctl n)
  | some (n, 0x08), _ => some (.low n)
  | some (n, 0x0C), _ => some (.high n)
  | _, some (m, 0x10) => some (.trig m)
  | _, _ => none

/-- PORT of channel `n` as the packet leaves it staged. -/
def Hw.stagedPort (h : Hw) (slot n : Nat) (pairs : List (Nat × Nat × Word)) : Nat :=
  match (pairs.filter (fun p => p.2.1 = Reg.prvLrctl n)).getLast? with
  | some p => bits p.2.2 1 3
  | none => bits (h.reg (Reg.ofCtx slot (Reg.prvLrctl n))) 1 3

/-- Whether a context owns the group of a master port. -/
def Hw.ownsGroup (h : Hw) (slot m : Nat) : Bool := (h.port m).master && (h.port m).ownerSlot = some slot

/-- The ownership test of one pair (14 R393, 19 R515). -/
def Hw.mayStage (h : Hw) (slot : Nat) (pairs : List (Nat × Nat × Word)) (off : Nat) : Bool :=
  match stageReg off with
  | none => false
  | some (.trig m) => h.ownsGroup slot m
  | some (.ctl n) | some (.low n) | some (.high n) => h.ownsGroup slot (h.stagedPort slot n pairs)

/-- Whether a value is legal in the register of an offset. -/
def stageLegal (off : Nat) (v : Word) : Bool :=
  match stageReg off with
  | some (.trig _) => bits v 16 16 ≠ 0
  | some (.low _) => bits v 0 6 = 0
  | _ => true

/-- Writes one pair into the context's staged copies. -/
def Hw.stageWrite (h : Hw) (slot off : Nat) (v : Word) : Hw :=
  match stageReg off with
  | some (.low _) => { h with helds := Tbl.put h.helds (Reg.ofCtx (stageSrc slot) off) v }
  | some (.high _) => (h.stageDesc (stageSrc slot) slot (off - 4) v).getD h
  | _ =>
    match copyType off v with
    | .rw keep _ => h.setReg (Reg.ofCtx slot off) (v &&& keep)
    | _ => h

/-- REG_STAGE (R126). -/
def pktRegStage : OpBody :=
  ⟨0x0504, fun c => (4, 0x3F) :: (stagePairs c).flatMap (fun p => [(p.1, 0x3FFFFFF), (p.1 + 1, 0xFFFFFFFF)]), fun c h =>
  let n := c.f 4 0 6
  let pairs := stagePairs c
  checked h (([(decide (16 * c.p.slots.toNat < 6 + 2 * n), Status.badLength, 16)] : List Check) ++
      pairs.map (fun p => notPermitted (!h.mayStage c.slot pairs p.2.1) p.1) ++
      pairs.map (fun p => outOfRange (!stageLegal p.2.1 p.2.2) (p.1 + 1))) (fun _ =>
    done (pairs.foldl (fun (h : Hw) p => h.stageWrite c.slot p.2.1 p.2.2) h) [])⟩

/-! ### Images (R127 to R129, 08 R267) -/

/-- Bytes of module memory that images hold. -/
def Hw.imageBytes (h : Hw) : Nat := (h.images.map (fun e => e.2.length)).sum

/-- The check of a program image: the byte offset at which it fails, if it does (R127, R267). -/
def progFails (bs : List Byte) : Option Nat :=
  match Config.progCheck bs with
  | some o => some o
  | none =>
    let img := Config.progImage bs
    let fetch (n : Nat) : BitVec 14 := nth 0 img.parcels n
    (img.code.findSome? (fun r => checkRange fetch (r.1 + r.2) (r.2 + 1) r.1)).map (Config.parcelOffset bs)

/-- A failed image check (R127): the offset in the image in result bytes 8 to 11. -/
def imageRefused (h : Hw) (off : Nat) : Hw × Answer := (h, .reply Status.outOfRange (resultOf [(8, 4, off)]))

/-- The steward copies an image from context memory, checks it and takes memory for it: the image's number, or the answer. -/
def Hw.loadImage (h : Hw) (slot va n : Nat) (fails : List Byte → Option Nat) : (Hw × Answer) ⊕ (Hw × Nat) :=
  match h.vaRead stewardCache 0 slot va n with
  | (h, _, some (.xlat r v)) => .inl (h, .reply (xlatStatus r) (resultOf [(0, 8, v)]))
  | (h, _, some f) => .inl (imageRefused h (f.va - va))
  | (h, bs, none) =>
    match fails bs with
    | some o => .inl (imageRefused h o)
    | none =>
      if Config.imageMemory < h.imageBytes + n then .inl (refuse h Status.noResource 0)
      else .inr ({ h with images := Tbl.put h.images h.nextImage bs, nextImage := h.nextImage + 1 }, h.nextImage)

/-- A load into a staged binding: `bind` puts the image there, or empties the binding. -/
def Hw.load (h : Hw) (c : Cmd) (va n : Nat) (fails : List Byte → Option Nat) (bind : Option Nat → Objects → Objects) : Hw × Answer :=
  let put (h : Hw) (i : Option Nat) : Hw × Answer :=
    checked h [swapPending h c.slot] (fun _ =>
      done (h.modCtx c.slot (fun x => { x with staged := bind i x.staged })).dropImages [])
  if n = 0 then put h none
  else
    match h.loadImage c.slot va n fails with
    | .inl a => a
    | .inr (h, i) =>
      match put h (some i) with
      | (h, a) => (h.dropImages, a)

/-- A binding table with an entry set or emptied. -/
def bindAt (t : Tbl Nat) (k : Nat) (i : Option Nat) : Tbl Nat := match i with | some x => Tbl.put t k x | none => Tbl.del t k

/-- PROG_LOAD (R127). -/
def pktProgLoad : OpBody := .fixed 0x0601 [(4, 0xF), (5, 0xFFFFFFFF), (6, 0xFFFFFFFF), (7, 0xFFFFFFFF)] (fun c h =>
  let n := (c.w 7).toNat
  checked h [outOfRange (2 ^ 48 ≤ c.q 5) 6, outOfRange (114688 < n) 7] (fun _ =>
    h.load c (c.q 5) n progFails (fun i o => { o with progs := bindAt o.progs (c.f 4 0 4) i })))

/-- MODEL_LOAD (R128). -/
def pktModelLoad : OpBody :=
  .fixed 0x0602 [(4, 0xF), (5, 0xFFFFFFFF), (6, 0xFFFFFFFF), (7, 0xFFFFFFFF), (8, 0xFFFFFFFF)] (fun c h =>
  let n := c.q 7
  checked h [outOfRange (2 ^ 48 ≤ c.q 5) 6, outOfRange (2 ^ 32 < n) (if c.w 8 = 0 then 7 else 8)] (fun _ =>
    h.load c (c.q 5) n Config.modelCheck (fun i o => { o with models := bindAt o.models (c.f 4 0 4) i })))

/-- MODEL_UNBIND (R129). -/
def pktModelUnbind : OpBody := .fixed 0x0603 [(4, 0xF)] (fun c h =>
  checked h [swapPending h c.slot] (fun _ =>
    done (h.modCtx c.slot (fun x => { x with staged.models := Tbl.del x.staged.models (c.f 4 0 4) })).dropImages []))

/-- WEB_OUT_RULE (R140). OFFSET has 48 bits under BASE 0 and 64 under BASE 1. -/
def pktWebOutRule : OpBody :=
  ⟨0x0806, fun c => [(4, 0x110F), (5, 0xFFFFFFFF), (6, if bit (c.w 4) 8 then 0xFFFFFFFF else 0xFFFF), (7, 0xFFFFFFFF)], fun c h =>
  let o := c.f 4 0 4
  let w := (c.w 7).toNat
  let out := h.output o
  checked h [notPermitted (12 ≤ o || out.orphan || out.bound ≠ some c.slot) 4,
      outOfRange (w % 4 ≠ 0 || w < (if o < 8 then 4 else 40000) || 1000000000 < w) 7, swapPending h c.slot] (fun _ =>
    let rule : OutRule := ⟨bit (c.w 4) 8, bit (c.w 4) 12, BitVec.ofNat 64 (c.q 5), c.w 7⟩
    done (h.modCtx c.slot (fun x => { x with staged.rules := Tbl.put x.staged.rules o rule })) [])⟩

/-! ### The commands -/

def execJobDefine (ring : RingId) (p : Packet) (s : State) : Host.Outcome State Fault Refusal := act (·.packet ring p pktJobDefine) s

def execJobRemove (ring : RingId) (p : Packet) (s : State) : Host.Outcome State Fault Refusal := act (·.packet ring p pktJobRemove) s

def execColQuery (ring : RingId) (p : Packet) (s : State) : Host.Outcome State Fault Refusal := act (·.packet ring p pktColQuery) s

def execSwapArm (ring : RingId) (p : Packet) (s : State) : Host.Outcome State Fault Refusal := act (·.packet ring p pktSwapArm) s

def execSwapCancel (ring : RingId) (p : Packet) (s : State) : Host.Outcome State Fault Refusal := act (·.packet ring p pktSwapCancel) s

def execSwapStatus (ring : RingId) (p : Packet) (s : State) : Host.Outcome State Fault Refusal := act (·.packet ring p pktSwapStatus) s

def execRegStage (ring : RingId) (p : Packet) (s : State) : Host.Outcome State Fault Refusal := act (·.packet ring p pktRegStage) s

def execProgLoad (ring : RingId) (p : Packet) (s : State) : Host.Outcome State Fault Refusal := act (·.packet ring p pktProgLoad) s

def execModelLoad (ring : RingId) (p : Packet) (s : State) : Host.Outcome State Fault Refusal := act (·.packet ring p pktModelLoad) s

def execModelUnbind (ring : RingId) (p : Packet) (s : State) : Host.Outcome State Fault Refusal := act (·.packet ring p pktModelUnbind) s

def execWebOutRule (ring : RingId) (p : Packet) (s : State) : Host.Outcome State Fault Refusal := act (·.packet ring p pktWebOutRule) s

end Sys2Proof.Machine
end

