-- ==== Sys2Proof/Machine/Domain.lean ====
section
/-! DEFINITION. The Waimaco links and the domain: training, frames and replay, joining, routes, ticks, beacons, domain swaps and
remote counter operations (20 R543 to R565, 04 R144, R146). A frame that a link has accepted waits in its `inbox` until the
command of its type acts on it. -/

namespace Sys2Proof.Machine

/-! ### Links (R543 to R547) -/

/-- Lanes stay idle until 400 ms after power good (R543). -/
def Hw.lanesAt (h : Hw) : Nat := h.sys.powerGoodAt + ms 400

/-- Whether a cage's transceiver is accepted and supplied (23 R617). -/
def cageAccepts (cage : Nat) (x : Transceiver) : Bool :=
  if cage < 2 then !x.breakout && (if x.optical then x.milliwatts ≤ 1500 else x.metres ≤ 3)
  else x.breakout || (if x.optical then x.milliwatts ≤ 3500 else x.metres ≤ 3)

def Hw.cageOn (h : Hw) (n : Nat) : Bool :=
  let c := h.cage n
  !c.off && !h.isState .off && (match c.plugged with | some x => cageAccepts n x | none => false)

/-- Whether link `k` may train. -/
def Hw.mayTrain (h : Hw) (k : Nat) : Bool :=
  h.linkEnabled k && h.cageOn (2 + k / 4) && ((h.link k).state = .down || (h.link k).state = .train)

/-- A link trains and goes UP (R544); members exchange ROUTE frames. -/
def Hw.linkTrain (h : Hw) (k : Nat) (t : TrainInfo) : Hw :=
  if !h.mayTrain k then h
  else
    let h := h.advanceTo h.lanesAt
    let l := h.link k
    let h := h.setLink k { ({} : Link) with
      state := .up, partner := t.partner.toNat, delay := t.delay, inbox := l.inbox, sent := l.sent }
    if h.wml.joined then h.linkSend k (.route h.ownRoute) else h

/-- Training starts again while no partner answers. -/
def Hw.linkRetry (h : Hw) (k : Nat) : Hw :=
  if h.mayTrain k then (h.advanceTo h.lanesAt).modLink k (fun l => { l with state := .train }) else h

/-- An UP link's delay is measured again. -/
def Hw.linkMeasure (h : Hw) (k : Nat) (d : Word) : Hw :=
  if (h.link k).state = .up then (h.modLink k (fun l => { l with delay := d })).reroute else h

/-- Frames up to `ack` are acknowledged. -/
def Link.acked (l : Link) (ack : Nat) : Link :=
  match firstIdx l.replay (fun e => e.1 = ack) with
  | some i => { l with replay := l.replay.drop (i + 1), fails := 0 }
  | none => l

/-- Every unacknowledged frame goes out again, in its order. -/
def Link.resend (l : Link) : Link := l.replay.foldl (fun (l : Link) e => l.transmit false e.1 e.2) l

/-- A NAK with the last good SEQ (R546); the sixteenth failed replay in a row takes the link DOWN (R544). -/
def Hw.linkNak (h : Hw) (k seq : Nat) : Hw :=
  let l := h.link k
  if l.state ≠ .up then h
  else
    let l := l.acked seq
    if l.replay = [] then h.setLink k l
    else
      let h := h.bump (Reg.wmlLrep k) 1
      if 15 ≤ l.fails then (h.setLink k l).linkDown k
      else h.setLink k { l.resend with fails := l.fails + 1 }

/-- A discarded frame is counted and answered with NAK and the last good SEQ (R546). -/
def Hw.linkReject (h : Hw) (k : Nat) : Hw :=
  (h.bump (Reg.wmlLcrc k) 1).modLink k (fun l => l.transmit true 0 (.idle h.wml.ltime))

/-- Whether a SYNC_OP's OP is one of R563. -/
def syncKnown : LinkPayload → Bool
  | .syncOp o => 1 ≤ o.op.toNat && o.op.toNat ≤ 6
  | .other => false
  | _ => true

/-- A frame accepted in order: kept for its command, or discarded and counted (R562, R563). -/
def Hw.linkAccept (h : Hw) (k : Nat) (p : LinkPayload) : Hw :=
  let h := h.modLink k (fun l => { l with rxSeq := (l.rxSeq + 1) % 4096 })
  if !syncKnown p then h.bump Reg.wmlLost 1
  else if (h.link k).state = .foreign then h
  else h.modLink k (fun l => { l with inbox := l.inbox ++ [p] })

/-- A link frame arrives (R545 to R547). -/
def Hw.linkReceive (h : Hw) (k : Nat) (f : LinkFrame) : Hw :=
  let l := h.link k
  if l.state = .down || l.state = .train then h
  else if !f.crcOk || !f.rsvOk then h.linkReject k
  else
    let l := if f.ackv then l.acked f.ack.toNat else l
    let l := { l with credits := modAt l.credits f.crvl.toNat (· + f.crcnt.toNat) }
    let h := h.setLink k (l.pump l.waiting.length)
    let h := if f.nak then h.linkNak k f.ack.toNat else h
    match f.payload with
    | .idle t => h.modLink k (fun l => { l with idleTime := some t })
    | .train => h
    | p =>
      let ahead := (f.seq.toNat + 4096 - (h.link k).rxSeq) % 4096
      if ahead = 0 then h.linkAccept k p
      else if ahead < 2048 then h.linkReject k
      else h

/-- Takes the first frame of a kind from a link's inbox; its buffer's credits go back to the sender. -/
def Hw.takeFrame {α : Type} (h : Hw) (k : Nat) (f : LinkPayload → Option α) : Hw × Option α :=
  let l := h.link k
  match firstIdx l.inbox (fun p => (f p).isSome) with
  | none => (h, none)
  | some i =>
    match l.inbox[i]? with
    | none => (h, none)
    | some p =>
      (h.setLink k { l with inbox := l.inbox.eraseIdx i, giveBack := modAt l.giveBack ((vlOf p).getD 0) (· + creditsOf p) }, f p)

def asTick : LinkPayload → Option TickPayload
  | .tick t => some t
  | _ => none
def asBeacon : LinkPayload → Option BeaconPayload
  | .beacon b => some b
  | _ => none
def asJoin : LinkPayload → Option JoinPayload
  | .join j => some j
  | _ => none
def asRoute : LinkPayload → Option RoutePayload
  | .route r => some r
  | _ => none
def asSync : LinkPayload → Option SyncPayload
  | .syncOp o => some o
  | _ => none

/-- IDLE (R554): sent with the link time, or one received from the parent disciplines link time. -/
def Hw.idleFrame (h : Hw) (k : Nat) (recv : Bool) : Hw :=
  let l := h.link k
  if !recv then
    (match l.state with
    | .up | .foreign => h.setLink k (l.transmit false 0 (.idle h.wml.ltime))
    | _ => h)
  else
    match l.idleTime with
    | none => h
    | some t =>
      let h := h.setLink k { l with idleTime := none }
      if h.wml.parent = some k then { h with wml.ltime := t + l.delay.setWidth 64 } else h

/-! ### Membership (R549 to R553) -/

/-- A member is known, and it lies behind link `k` unless that is the way to the leader. -/
def Hw.addMember (h : Hw) (k m : Nat) : Hw :=
  let h := if h.wml.members.contains m then h else { h with wml.members := h.wml.members ++ [m] }
  if h.wml.parent = some k then h
  else h.modLink k (fun l => if l.subtree.contains m then l else { l with subtree := l.subtree ++ [m] })

def Hw.dropMember (h : Hw) (m : Nat) : Hw :=
  { h with
    wml.members := h.wml.members.filter (· ≠ m)
    wml.plats := Tbl.del h.wml.plats m
    wml.links := List.map (fun (e : Nat × Link) => (e.1, { e.2 with subtree := e.2.subtree.filter (· ≠ m) })) h.wml.links }

/-- The links of the tree other than `k`. -/
def Hw.treeLinks (h : Hw) (k : Nat) : List Nat := allLinks.filter (fun i => i ≠ k && ((h.link i).child || h.wml.parent = some i))

/-- The firmware version's halves (04 R98). -/
def Hw.fwMajor (h : Hw) : Nat := bits h.sys.fwVersion 16 16
def Hw.fwMinor (h : Hw) : Nat := bits h.sys.fwVersion 0 16

/-- The links of the ports that a mask names. -/
def portLinks (mask : Nat) : List Nat := allLinks.filter (fun k => mask.testBit (k / 4))

/-- DOMAIN_JOIN (R144). -/
def pktDomainJoin : OpBody :=
  .fixed 0x0A01 ((4, 0x33FFF) :: (List.range 8).map (fun i => (8 + i, 0xFFFFFFFF))) (fun c h =>
    let ports := c.f 4 16 2
    checked h [wrongState h.wml.joined, outOfRange (ports = 0) 4] (fun _ =>
      let digest := (List.range 8).map (fun i => c.w (8 + i))
      let links := (portLinks ports).filter (fun k => (h.link k).state = .up)
      let j : JoinPayload := ⟨1, 0, BitVec.ofNat 14 (c.f 4 0 14), BitVec.ofNat 16 h.fwMajor, BitVec.ofNat 16 h.fwMinor, 0, 0, digest⟩
      let h := { h with wml.joining := some ⟨c.f 4 0 14, links, digest, h.now + ms 400⟩ }
      (links.foldl (fun (h : Hw) k => h.linkSend k (.join j)) h, .wait .join)))

/-- The DOMAIN_JOIN in progress is answered. -/
def Hw.answerJoin (h : Hw) (status : Nat) (result : List Byte) : Hw :=
  match h.findExec .join with
  | some (r, p) => h.reply r p status result
  | none => h

/-- The module is a member from now on. -/
def Hw.becomeMember (h : Hw) (j : Joining) (leader count minor : Nat) : Hw :=
  let h := { h with
    wml.joined := true, wml.joining := none, wml.id := j.id, wml.digest := j.digest, wml.leader := leader
    wml.isLeader := decide (leader = j.id), wml.members := if leader = j.id then [j.id] else [leader, j.id]
    wml.major := h.fwMajor, wml.minor := minor, wml.heardAt := h.now, wml.beaconFrames := 0, wml.sentBeacon := true }
  h.answerJoin Status.ok (resultOf [(0, 2, leader), (2, 2, count)])

/-- No partner answers: the module forms a domain alone (R144). -/
def Hw.domainAlone (h : Hw) : Hw :=
  match h.wml.joining with
  | none => h
  | some j =>
    let h := (h.advanceTo j.deadline).becomeMember j j.id 1 h.fwMinor
    h.reroute.sendRoutes

/-- The reason for which the leader refuses a request, or 0 (R549). -/
def Hw.joinReason (h : Hw) (j : JoinPayload) : Nat :=
  if j.fwMajor.toNat ≠ h.wml.major then 1
  else if j.digest ≠ h.wml.digest then 2
  else if j.joiner.toNat = h.wml.id || h.wml.members.contains j.joiner.toNat then 3
  else 0

/-- A JOIN request at a member (R549). -/
def Hw.joinRequest (h : Hw) (k : Nat) (j : JoinPayload) : Hw :=
  if !h.wml.joined then h
  else if h.wml.isLeader then
    let r := h.joinReason j
    let h := if r = 0 then h.addMember k j.joiner.toNat else h
    h.linkSend k (.join { j with
      op := if r = 0 then 2 else 3, reason := BitVec.ofNat 8 r, fwMajor := BitVec.ofNat 16 h.wml.major
      fwMinor := BitVec.ofNat 16 h.wml.minor, leader := BitVec.ofNat 14 h.wml.id, count := BitVec.ofNat 16 h.wml.members.length })
  else
    match h.wml.parent with
    | none => h
    | some up => { h with wml.relays := h.wml.relays ++ [(j.joiner.toNat, k)] }.linkSend up (.join j)

/-- An answer to this module's own request: the first one decides; a later one from another domain makes its link FOREIGN. -/
def Hw.joinAnswer (h : Hw) (k : Nat) (j : JoinPayload) : Hw :=
  match h.wml.joining with
  | some w =>
    if w.id ≠ j.joiner.toNat || !w.links.contains k then h
    else if j.op = 2 then
      let h := h.becomeMember w j.leader.toNat j.count.toNat j.fwMinor.toNat
      { h with wml.parent := some k, wml.depth := 1, wml.plat := (h.link k).delay.toNat + 300 }.sendRoutes
    else { h with wml.joining := none }.answerJoin Status.domainDisagree (resultOf [(0, 1, j.reason.toNat)])
  | none =>
    if h.wml.joined && j.joiner.toNat = h.wml.id && j.op = 2 && j.leader.toNat ≠ h.wml.leader then
      h.modLink k (fun l => { l with state := .foreign })
    else h

/-- A JOIN frame of a link is acted on (R549). -/
def Hw.joinFrame (h : Hw) (k : Nat) : Hw :=
  match h.takeFrame k asJoin with
  | (h, none) => h
  | (h, some j) =>
    if j.op = 1 then h.joinRequest k j
    else
      match h.wml.relays.find? (fun e => e.1 = j.joiner.toNat) with
      | some (m, down) =>
        let h := { h with wml.relays := h.wml.relays.filter (fun e => e ≠ (m, down)) }
        (if j.op = 2 then h.addMember down m else h).linkSend down (.join j)
      | none => h.joinAnswer k j

/-- A ROUTE frame is acted on: what it says of its ORIGIN; what is new is passed on in the tree (R553). -/
def Hw.routeIn (h : Hw) (k : Nat) (r : RoutePayload) : Hw :=
  let m := r.origin.toNat
  let l := h.link k
  let own : Bool := m = l.partner
  if !h.wml.joined then (if own then h.setLink k { l with neighbour := some r } else h)
  else if m = h.wml.id then h
  else if own && l.neighbour.isNone && r.joined && r.leader.toNat ≠ h.wml.leader && !h.wml.members.contains m then
    h.setLink k { l with state := .foreign, neighbour := some r }
  else
    let h := if own then h.setLink k { l with neighbour := some r, child := l.child && h.wml.depth < r.depth.toNat } else h
    let news : Bool := r.leaving || !h.wml.members.contains m || Tbl.get 0 h.wml.plats m ≠ r.plat.toNat
    let h :=
      if r.leaving || !r.joined then h.dropMember m
      else { h.addMember k m with wml.plats := Tbl.set 0 h.wml.plats m r.plat.toNat }
    let h := if !h.wml.isLeader && h.wml.parent = some k && own && r.joined then { h with wml.leader := r.leader.toNat } else h
    let h := h.reroute
    if news then (h.treeLinks k).foldl (fun (h : Hw) i => h.linkSend i (.route r)) h else h

/-- ROUTE (R553): sent, or one received is acted on. -/
def Hw.routeFrame (h : Hw) (k : Nat) (recv : Bool) : Hw :=
  if !recv then (if h.wml.joined then h.linkSend k (.route h.ownRoute) else h)
  else
    match h.takeFrame k asRoute with
    | (h, some r) => h.routeIn k r
    | (h, none) => h

/-- The members that this module still reaches without its leader. -/
def Hw.reachable (h : Hw) : List Nat :=
  h.wml.id :: allLinks.flatMap (fun k =>
    let l := h.link k
    if l.state ≠ .up then []
    else l.subtree ++ (match l.neighbour with | some r => if r.joined && !r.leaving then [l.partner] else [] | none => []))

/-- No beacon of the leader for 16 frames and 10 ms (R552). -/
def Hw.leaderLost (h : Hw) : Hw :=
  let w := h.wml
  if !w.joined || w.isLeader || (h.ticksRun && w.beaconFrames < 16) then h
  else
    let h := (h.advanceTo (w.heardAt + ms 10)).setRegBit Reg.wmlDstat 4
    let low := (h.reachable.filter (· ≠ w.leader)).foldl min w.id
    let h := h.dropMember w.leader
    ({ h with
      wml.leader := low, wml.isLeader := decide (low = w.id), wml.beaconFrames := 0, wml.heardAt := h.now
      wml.ticks := [] }).reroute.sendRoutes

/-! ### Domain ticks (R555, R556) -/

/-- The number of the frame that the next tick of this module opens. -/
def Hw.nextNumber (h : Hw) : BitVec 48 := if h.ticksRun then h.frm.fnum + 1 else 0

/-- Sends a TICK frame to the children. -/
def Hw.tickDown (h : Hw) (t : TickPayload) : Hw :=
  allLinks.foldl (fun (h : Hw) k => if (h.link k).child then h.linkSend k (.tick t) else h) h

/-- The target of the domain swap that the leader serves: its own, or one that a child's beacon names. -/
def Hw.domainTarget (h : Hw) : Option Nat :=
  match h.wml.swap with
  | some d => some d.target
  | none => allLinks.findSome? (fun k => match (h.link k).child, (h.link k).beacon with
    | true, some b => if b.armed then some b.armTarget.toNat else none
    | _, _ => none)

/-- How far frame `a` lies after frame `b`, when it does. -/
def framesAfter (a b : Nat) : Option Nat :=
  let d := (BitVec.ofNat 48 a - BitVec.ofNat 48 b : BitVec 48).toNat
  if d < 2 ^ 47 then some d else none

/-- The leader emits the TICK frame of a source event (R555, R558). -/
def Hw.emitTick (h : Hw) : Hw :=
  match h.wml.sourceEvent with
  | none => h
  | some t =>
    let h := { h with wml.sourceEvent := none }
    if !h.wml.joined || !h.wml.isLeader then h
    else
      let m := (h.nextNumber + BitVec.ofNat 48 h.wml.ticks.length).toNat
      let past := (h.domainTarget).bind (framesAfter m)
      let sent := h.wml.ticks.any (fun x => x.commit || x.abort)
      let commit := h.wml.latch && past.isSome && !sent
      let p : TickPayload := ⟨BitVec.ofNat 48 m, commit, !commit && !sent && (match past with | some d => decide (8 ≤ d) | none => false),
        m % 64 = 0, t + BitVec.ofNat 64 h.wml.dlat, BitVec.ofNat 48 ((h.domainTarget).getD 0)⟩
      { h with wml.ticks := h.wml.ticks ++ [p], wml.lastFire := some p.fire, wml.latch := h.wml.latch && !commit }.tickDown p

/-- A TICK frame from the parent is forwarded and waits for its FIRE (R555). -/
def Hw.tickIn (h : Hw) (k : Nat) : Hw :=
  match h.takeFrame k asTick with
  | (h, none) => h
  | (h, some t) =>
    if !h.wml.joined || h.wml.isLeader || h.wml.parent ≠ some k then h
    else
      let h := if t.fire < h.wml.ltime then h.bump Reg.wmlTlate 1 else h
      { h with wml.ticks := h.wml.ticks ++ [t] }.tickDown t

/-- A tick that this module does not take as a domain tick: the swap that it would have applied or aborted ends (R558). -/
def Hw.tickMissed (h : Hw) (t : TickPayload) : Hw :=
  if h.wml.swap.isSome && (t.commit || t.abort) then
    let h := { h with wml.swap := none }.answerDomainSwap Status.swapAborted 0
    if t.commit then h.setRegBit Reg.wmlDstat 3 else h
  else h

/-- The module takes a domain tick, under R36 and R37. -/
def Hw.tickTaken (h : Hw) (t : TickPayload) (matched : Bool) : Hw :=
  if h.frm.due.isSome then h.tickMissed t
  else
    let h := if matched then h else h.tickMissed t
    let h := { h with
      wml.commit := t.commit && matched, wml.abort := t.abort && matched, wml.realign := t.realign, wml.matched := matched }
    h.sourceEvent 0 .domain

/-- A tick whose number is not this module's next (R556). -/
def Hw.tickMismatch (h : Hw) (t : TickPayload) : Hw :=
  if !(h.wml.unsync && t.realign) then { h with wml.unsync := true }.tickTaken t false
  else
    let behind := (framesAfter t.fnum.toNat h.nextNumber.toNat).isSome
    let h := h.tickMissed t
    if behind then { h with wml.catchup := some (t.fnum + 1).toNat } else { h with wml.holding := true }

/-- Link time reaches FIRE (R555, R556). -/
def Hw.tickFire (h : Hw) : Hw :=
  match h.wml.ticks with
  | [] => h
  | t :: rest =>
    let h := if h.wml.ltime < t.fire then h.pass (t.fire - h.wml.ltime).toNat else h
    let h := { h with wml.ticks := rest }
    let next : Bool := t.fnum = h.nextNumber
    if !h.frm.running || bits (h.actReg Reg.frmSrc) 0 3 ≠ 6 then h.tickMissed t
    else if next then h.tickTaken t true
    else
      match h.wml.catchup with
      | some _ => { h.tickMissed t with wml.catchup := some (t.fnum + 1).toNat }
      | none => if h.wml.holding then h.tickMissed t else h.tickMismatch t

/-- A catch-up tick, 1,500 ns after the last tick (R556). -/
def Hw.catchUpTick (h : Hw) : Hw :=
  match h.wml.catchup with
  | some f =>
    if h.ticksRun && h.frm.due.isNone && (h.frm.fnum + 1).toNat ≠ f then
      let t := h.frm.lastTick + 1500
      let h := h.advanceTo t
      { h with frm.due := some (.catchUp, t) }
    else h
  | none => h

/-! ### Domain swaps and beacons (R557, R558) -/

/-- The bytes of one context's objects, as the digests cover them (DESIGN CHOICE, log). -/
def Hw.objectBytes (h : Hw) (o : Objects) : List Byte :=
  o.jobs.flatMap (fun e => bytesOf 1 e.1 ++ e.2.flatMap (fun w => bytesOf 4 w.toNat)) ++
  (o.progs ++ o.models).flatMap (fun e => bytesOf 1 e.1 ++ Tbl.get [] h.images e.2) ++ bytesOf 1 o.policy ++
  o.rules.flatMap (fun e => bytesOf 1 e.1 ++ bytesOf 1 (e.2.byTime.toNat + 2 * e.2.enc.toNat) ++ bytesOf 8 e.2.offset.toNat ++
    bytesOf 4 e.2.width.toNat)

/-- The first 8 bytes of the SHA-256 over the objects that `f` picks of the contexts, in slot order. -/
def Hw.swapDigest (h : Hw) (slots : List Nat) (f : Ctx → Objects) : Dword :=
  let d := Config.sha256 (slots.flatMap (fun s => bytesOf 1 s ++ h.objectBytes (f (h.ctx s))))
  dword (nth 0 d 0) (nth 0 d 1)

/-- DOMAIN_SWAP_ARM (R146): the armed contexts' staged objects wait for the domain's commit. -/
def pktDomainSwapArm : OpBody :=
  .fixed 0x0A03 ([(4, 3), (5, 0xFFFFFFFF), (6, 0xFFFF), (7, 0x3FFF)] ++ (List.range 8).map (fun i => (8 + i, 0xFFFFFFFF))) (fun c h =>
    let slots := (List.range 256).filter (fun s => bit (c.w (8 + s / 32)) (s % 32))
    let n := c.f 7 0 14
    checked h (armChecks h c ++ [
        wrongState (!h.wml.joined || !h.ticksRun || slots.any (fun s => (h.ctx s).state = .free)),
        (h.wml.swap.isSome || slots.any (fun s => (h.ctx s).swap.isSome), Status.swapPending, 0),
        notPermitted (slots.any (fun s => !h.mayUse s n)) 7]) (fun _ =>
      let t := if bit (c.w 4) 0 then h.nextFrame else c.q 5
      ({ h with wml.swap := some ⟨t, bit (c.w 4) 1, n, slots⟩ }, .wait .domainSwap)))

/-- The latest beacons of the children. -/
def Hw.childBeacons (h : Hw) : List BeaconPayload :=
  allLinks.filterMap (fun k => if (h.link k).child then (h.link k).beacon else none)

/-- Whether this module acknowledges the swap (R558): it is armed with the leader's target. -/
def Hw.acknowledges (h : Hw) : Bool :=
  match h.wml.swap, h.wml.down with
  | some d, some b => h.wml.isLeader || d.target = b.armTarget.toNat
  | some _, none => h.wml.isLeader
  | none, _ => false

/-- The beacon of this module with its subtree folded in (R557, R564). -/
def Hw.ownBeacon (h : Hw) : BeaconPayload :=
  let kids := h.childBeacons
  let off := BitVec.ofInt 32 (clampInt (-2147483648) 2147483647 h.ptp.offset)
  let ack := h.acknowledges
  let low (a b : BitVec 48) : BitVec 48 := if a ≤ b then a else b
  let high (a b : BitVec 48) : BitVec 48 := if a ≤ b then b else a
  { member := BitVec.ofNat 14 h.wml.id, fnum := h.frm.fnum, state := BitVec.ofNat 8 h.sys.state.code
    down := h.wml.isLeader, unsync := h.wml.unsync, timef := h.ptp.fault, srclost := h.frm.lost.isSome
    armed := h.wml.swap.isSome, ack := ack, ackAll := ack && h.childrenAck, subcnt := BitVec.ofNat 16 h.subtreeCount
    offset := off, active := if h.wml.activeSlots = [] then 0 else h.swapDigest h.wml.activeSlots (·.active)
    armedDigest := match h.wml.swap with | some d => h.swapDigest d.slots (·.staged) | none => 0
    armTarget := BitVec.ofNat 48 ((h.domainTarget).getD 0)
    lowFnum := kids.foldl (fun m b => low m b.lowFnum) h.frm.fnum
    highFnum := kids.foldl (fun m b => high m b.highFnum) h.frm.fnum
    maxOffset := kids.foldl (fun m b => if m < b.maxOffset then b.maxOffset else m) (BitVec.ofNat 32 h.ptp.offset.natAbs)
    lowMinor := kids.foldl (fun m b => if b.lowMinor < m then b.lowMinor else m) (BitVec.ofNat 16 h.fwMinor) }

/-- A beacon goes to every child. -/
def Hw.beaconDown (h : Hw) (b : BeaconPayload) : Hw :=
  allLinks.foldl (fun (h : Hw) k => if (h.link k).child then h.linkSend k (.beacon b) else h) h

/-- The module's beacon of this boundary goes out (R557): at once when every child has reported, else 2 µs after the boundary. -/
def Hw.beaconOut (h : Hw) : Hw :=
  if !h.wml.joined || h.wml.sentBeacon || h.isState .tripped then h
  else
    let all := h.childBeacons.all (fun b => b.fnum = h.frm.fnum)
    let h := if all then h else h.advanceTo (h.wml.beaconAt + 2000)
    let b := h.ownBeacon
    let h := { h with wml.sentBeacon := true }
    if h.wml.isLeader then { h with wml.down := some b, wml.minor := b.lowMinor.toNat }.beaconDown b
    else match h.wml.parent with
      | some k => h.linkSend k (.beacon b)
      | none => h

/-- A beacon arrives: a child's, or the leader's on its way down (R557). -/
def Hw.beaconIn (h : Hw) (k : Nat) (b : BeaconPayload) : Hw :=
  if !h.wml.joined then h
  else if b.down then
    if h.wml.parent = some k && !h.wml.isLeader then
      { h with
        wml.down := some b, wml.leader := b.member.toNat, wml.minor := b.lowMinor.toNat
        wml.beaconFrames := 0, wml.heardAt := h.now }.beaconDown b
    else h
  else if h.wml.parent = some k then h
  else (h.addMember k b.member.toNat).modLink k (fun l => { l with beacon := some b, child := true })

def Hw.beaconFrame (h : Hw) : Option Nat → Hw
  | none => h.beaconOut
  | some k =>
    match h.takeFrame k asBeacon with
    | (h, some b) => h.beaconIn k b
    | (h, none) => h

/-! ### Remote counter operations (R559, 16 R442, R443) -/

/-- A WAIT reaches this module. -/
def Hw.remoteWaitIn (h : Hw) (o : SyncPayload) : Hw :=
  let n := o.index.toNat
  let w : HeldWait := ⟨o.origin.toNat, o.waitId.toNat, n, o.value, 0⟩
  let v := (h.counter n).value
  if !h.synAllowed ⟨0, 9⟩ n then (h.synRefuse ⟨0, 9⟩ n true).answerWait w 5 v
  else if o.value ≤ v then h.answerWait w 4 v
  else if 1024 ≤ h.wml.held.length then (h.bump Reg.wmlRwfull 1).answerWait w 5 v
  else { h with wml.held := h.wml.held ++ [w] }

/-- A SYNC_OP that names this module is applied. -/
def Hw.syncHere (h : Hw) (o : SyncPayload) : Hw :=
  match o.op.toNat with
  | 1 => h.signal ⟨0, 9⟩ o.index.toNat o.value
  | 2 => h.remoteWaitIn o
  | 3 => { h with wml.held := h.wml.held.filter (fun w => !(w.origin = o.origin.toNat && w.waitId = o.waitId.toNat)) }
  | _ =>
    match h.wml.outs.find? (fun w => w.waitId = o.waitId.toNat) with
    | some w => h.endOut w
    | none => h

/-- A SYNC_OP frame is applied, or forwarded to its module; one with no way on is discarded and counted. -/
def Hw.syncIn (h : Hw) (k : Nat) : Hw :=
  match h.takeFrame k asSync with
  | (h, none) => h
  | (h, some o) =>
    if !h.wml.joined then h
    else
      let h := if o.op.toNat ≤ 3 then h.addMember k o.origin.toNat else h
      if o.target.toNat = h.wml.id then h.syncHere o
      else match h.routeTo o.target.toNat with
        | some i => h.linkSend i (.syncOp o)
        | none => h.bump Reg.wmlLost 1

/-- The limit of a remote wait in ticks (R559). -/
def Hw.rwto (h : Hw) : Nat := bits (h.reg Reg.wmlRwto) 0 8

/-- A remote wait reaches its limit. -/
def Hw.waitTimeout (h : Hw) : WaitRef → Hw
  | .held i =>
    match h.wml.held[i]? with
    | some w =>
      if w.ticks < h.rwto then h
      else { h with wml.held := h.wml.held.eraseIdx i }.answerWait w 6 (h.counter w.index).value
    | none => h
  | .outgoing id =>
    match h.wml.outs.find? (fun w => w.waitId = id) with
    | some w => if w.ticks < h.rwto + 4 then h else h.endOut w
    | none => h

/-! ### The commands -/

def execDomainJoin (ring : RingId) (p : Packet) (s : State) : Host.Outcome State Fault Refusal := act (·.packet ring p pktDomainJoin) s

def execDomainAlone (s : State) : Host.Outcome State Fault Refusal := act Hw.domainAlone s

def execDomainSwapArm (ring : RingId) (p : Packet) (s : State) : Host.Outcome State Fault Refusal :=
  act (·.packet ring p pktDomainSwapArm) s

def execLinkTrain (k : Fin 8) (t : TrainInfo) (s : State) : Host.Outcome State Fault Refusal := act (·.linkTrain k t) s

def execLinkTrainRetry (k : Fin 8) (s : State) : Host.Outcome State Fault Refusal := act (·.linkRetry k) s

def execLinkDown (k : Fin 8) (s : State) : Host.Outcome State Fault Refusal := act (·.linkDown k) s

def execLinkDelayMeasure (k : Fin 8) (delay : Word) (s : State) : Host.Outcome State Fault Refusal := act (·.linkMeasure k delay) s

def execLinkFrameReceive (k : Fin 8) (f : LinkFrame) (s : State) : Host.Outcome State Fault Refusal := act (·.linkReceive k f) s

def execNak (k : Fin 8) (seq : BitVec 12) (s : State) : Host.Outcome State Fault Refusal := act (·.linkNak k seq.toNat) s

def execIdle (k : Fin 8) (recv : Bool) (s : State) : Host.Outcome State Fault Refusal := act (·.idleFrame k recv) s

def execRoute (k : Fin 8) (recv : Bool) (s : State) : Host.Outcome State Fault Refusal := act (·.routeFrame k recv) s

def execJoin (k : Fin 8) (s : State) : Host.Outcome State Fault Refusal := act (·.joinFrame k) s

def execTickFrame (k : Fin 8) (s : State) : Host.Outcome State Fault Refusal := act (·.tickIn k) s

def execDomainTickFire (s : State) : Host.Outcome State Fault Refusal := act Hw.tickFire s

def execLeaderTickEmit (s : State) : Host.Outcome State Fault Refusal := act Hw.emitTick s

def execCatchUpTick (s : State) : Host.Outcome State Fault Refusal := act Hw.catchUpTick s

def execBeacon (k : Option (Fin 8)) (s : State) : Host.Outcome State Fault Refusal := act (·.beaconFrame (k.map (·.val))) s

def execLeaderLost (s : State) : Host.Outcome State Fault Refusal := act Hw.leaderLost s

def execSyncOp (k : Fin 8) (s : State) : Host.Outcome State Fault Refusal := act (·.syncIn k) s

def execRemoteWaitTimeout (w : WaitRef) (s : State) : Host.Outcome State Fault Refusal := act (·.waitTimeout w) s

end Sys2Proof.Machine
end

