-- ==== Sys2Proof/Machine/FrameRows.lean ====
section
/-! DEFINITION. The commands of the frame logic, encoders and inputs, and of Collier's tail (02, 07 R205, R206, 19 R520 to R523). -/

namespace Sys2Proof.Machine

/-! ### The commands -/

/-- TIMER_PERIOD_EXPIRY (R29). -/
def execTimerPeriodExpiry (s : State) : Host.Outcome State Fault Refusal := act Hw.timerExpiry s

/-- PTP_PHASE_MATCH (R29). -/
def execPtpPhaseMatch (s : State) : Host.Outcome State Fault Refusal := act Hw.phaseMatch s

/-- STALL_TICK (R37): the TICK that follows runs its window. -/
def execStallTick (s : State) : Host.Outcome State Fault Refusal := act Hw.stallTick s

/-- SRCLOST_TICK (R38). -/
def execSrclostTick (s : State) : Host.Outcome State Fault Refusal := act Hw.srcLostTick s

/-- TICK (R41). -/
def execTick (s : State) : Host.Outcome State Fault Refusal := act Hw.tick s

/-- DVFS_RAIL_SETTLED (R43). -/
def execDvfsRailSettled (s : State) : Host.Outcome State Fault Refusal :=
  act (fun h => match h.col.raising with
    | some p => { h with col.point := p, col.raising := none }
    | none => h) s

/-- FRAME_TAIL (R47, 07 R206). -/
def execFrameTail (s : State) : Host.Outcome State Fault Refusal := act Hw.frameTail s

/-- PSTATIC_IDLE_UPDATE (07 R197). -/
def execPstaticIdleUpdate (s : State) : Host.Outcome State Fault Refusal := act Hw.staticIdle s

/-- FRM_CTL_START (R33). -/
def execFrmCtlStart (s : State) : Host.Outcome State Fault Refusal := act (·.viaPf Hw.frmStart) s

/-- FRM_CTL_STOP (R35). -/
def execFrmCtlStop (s : State) : Host.Outcome State Fault Refusal := act (·.viaPf Hw.frmStop) s

/-- ENCODER_EDGE (19 R520). -/
def execEncoderEdge (e : Fin 2) (a b : Bool) (s : State) : Host.Outcome State Fault Refusal :=
  act (·.encoderEdge e a b) s

/-- FILTERED_INPUT_EDGE (19 R523). -/
def execFilteredInputEdge (i : Fin 8) (level : Bool) (s : State) : Host.Outcome State Fault Refusal :=
  act (·.inputEdge i level) s

end Sys2Proof.Machine
end

