-- ==== Sys2Proof/Machine/FtcScalar.lean ====
section
/-! DEFINITION. The Fintoic instructions of the scalar ALU (A unit): each joins the bundle of its core (08, 09, 10). -/

namespace Sys2Proof.Machine

/-- The slot of an instruction in a bundle. An operation that only one form encodes has that form; a short instruction is
unguarded or guarded by p1 (09 R252, R253). -/
def slotAt (loc : At) (op : CoreOp) (upto : Nat) : Slot :=
  let long := if (encodeShort op).isNone then true else if (encodeLong op).isNone then false else loc.long
  if long then { guard := loc.guard, neg := loc.neg, long := true, op := op, upto := upto }
  else { guard := if loc.guard = 0 then 0 else 1, neg := false, long := false, op := op, upto := upto }

/-- An instruction as a command: it joins its core's bundle, which issues with the stop bit (09 R254). -/
def issueOp (loc : At) (op : CoreOp) (upto : Nat) (s : State) : Host.Outcome State Fault Refusal :=
  act (fun h => h.instr loc.core (slotAt loc op upto) loc.stop) s

/-- The two-operand short RR form computes sd op sa (10 R272). -/
def rrOp (loc : At) (op : AluOp) (d a b : Fin 32) : CoreOp := if loc.long then .alu op d a b else .alu op d d a

/-- The short compares always write p1 (10 R274). -/
def shortP (loc : At) (pd : Fin 8) : Fin 8 := if loc.long then pd else 1

/-- NOP_SHORT (09 R261). -/
def execNopShort (loc : At) (st : State) : Host.Outcome State Fault Refusal :=
  issueOp loc .nop 64 st

/-- HALT (08 R221). -/
def execHalt (loc : At) (st : State) : Host.Outcome State Fault Refusal :=
  issueOp loc .halt 64 st

/-- ADD (10 R272). -/
def execAdd (loc : At) (d a b : Fin 32) (st : State) : Host.Outcome State Fault Refusal :=
  issueOp loc (rrOp loc .add d a b) 64 st

/-- SUB (10 R272). -/
def execSub (loc : At) (d a b : Fin 32) (st : State) : Host.Outcome State Fault Refusal :=
  issueOp loc (rrOp loc .sub d a b) 64 st

/-- AND (10 R272). -/
def execAnd (loc : At) (d a b : Fin 32) (st : State) : Host.Outcome State Fault Refusal :=
  issueOp loc (rrOp loc .and d a b) 64 st

/-- OR (10 R272). -/
def execOr (loc : At) (d a b : Fin 32) (st : State) : Host.Outcome State Fault Refusal :=
  issueOp loc (rrOp loc .or d a b) 64 st

/-- XOR (10 R272). -/
def execXor (loc : At) (d a b : Fin 32) (st : State) : Host.Outcome State Fault Refusal :=
  issueOp loc (rrOp loc .xor d a b) 64 st

/-- MOV (10 R272). -/
def execMov (loc : At) (d a : Fin 32) (st : State) : Host.Outcome State Fault Refusal :=
  issueOp loc (.mov d a) 64 st

/-- MUL (10 R272). -/
def execMul (loc : At) (d a b : Fin 32) (st : State) : Host.Outcome State Fault Refusal :=
  issueOp loc (.alu .mul d a b) 64 st

/-- MIN (10 R272). -/
def execMin (loc : At) (d a b : Fin 32) (st : State) : Host.Outcome State Fault Refusal :=
  issueOp loc (.alu .min d a b) 64 st

/-- MAX (10 R272). -/
def execMax (loc : At) (d a b : Fin 32) (st : State) : Host.Outcome State Fault Refusal :=
  issueOp loc (.alu .max d a b) 64 st

/-- ADDS (10 R272). -/
def execAdds (loc : At) (d a b : Fin 32) (st : State) : Host.Outcome State Fault Refusal :=
  issueOp loc (.alu .adds d a b) 64 st

/-- SUBS (10 R272). -/
def execSubs (loc : At) (d a b : Fin 32) (st : State) : Host.Outcome State Fault Refusal :=
  issueOp loc (.alu .subs d a b) 64 st

/-- SHL (10 R273). -/
def execShl (loc : At) (d a b : Fin 32) (st : State) : Host.Outcome State Fault Refusal :=
  issueOp loc (.alu .shl d a b) 64 st

/-- SHR (10 R273). -/
def execShr (loc : At) (d a b : Fin 32) (st : State) : Host.Outcome State Fault Refusal :=
  issueOp loc (.alu .shr d a b) 64 st

/-- SHRU (10 R273). -/
def execShru (loc : At) (d a b : Fin 32) (st : State) : Host.Outcome State Fault Refusal :=
  issueOp loc (.alu .shru d a b) 64 st

/-- ADDI (10 R272): simm3 in the short form, simm9 in the long. -/
def execAddi (loc : At) (d : Fin 32) (imm : BitVec 9) (st : State) : Host.Outcome State Fault Refusal :=
  issueOp loc (.imm .addi d (if loc.long then simm 9 imm.toNat else simm 3 imm.toNat)) 64 st

/-- MOVI (10 R272): u3 in the short form, simm9 in the long. -/
def execMovi (loc : At) (d : Fin 32) (imm : BitVec 9) (st : State) : Host.Outcome State Fault Refusal :=
  issueOp loc (.imm .movi d (if loc.long then simm 9 imm.toNat else BitVec.ofNat 32 (imm.toNat % 8))) 64 st

/-- ANDI (10 R272). -/
def execAndi (loc : At) (d : Fin 32) (imm : BitVec 9) (st : State) : Host.Outcome State Fault Refusal :=
  issueOp loc (.imm .andi d (simm 9 imm.toNat)) 64 st

/-- ORI (10 R272). -/
def execOri (loc : At) (d : Fin 32) (imm : BitVec 9) (st : State) : Host.Outcome State Fault Refusal :=
  issueOp loc (.imm .ori d (imm.setWidth 32)) 64 st

/-- XORI (10 R272). -/
def execXori (loc : At) (d : Fin 32) (imm : BitVec 9) (st : State) : Host.Outcome State Fault Refusal :=
  issueOp loc (.imm .xori d (imm.setWidth 32)) 64 st

/-- SHLI (10 R272): u3 in the short form, u5 in the long. -/
def execShli (loc : At) (d : Fin 32) (n : BitVec 5) (st : State) : Host.Outcome State Fault Refusal :=
  issueOp loc (.shift .shli d (if loc.long then n else n &&& 7)) 64 st

/-- SHRI (10 R272): u3 in the short form, u5 in the long. -/
def execShri (loc : At) (d : Fin 32) (n : BitVec 5) (st : State) : Host.Outcome State Fault Refusal :=
  issueOp loc (.shift .shri d (if loc.long then n else n &&& 7)) 64 st

/-- SHRUI (10 R272). -/
def execShrui (loc : At) (d : Fin 32) (n : BitVec 5) (st : State) : Host.Outcome State Fault Refusal :=
  issueOp loc (.shift .shrui d n) 64 st

/-- CMPEQ (10 R274): the short form writes p1. -/
def execCmpeq (loc : At) (pd : Fin 8) (a b : Fin 32) (st : State) : Host.Outcome State Fault Refusal :=
  issueOp loc (.cmp .eq (shortP loc pd) a b) 64 st

/-- CMPNE (10 R274). -/
def execCmpne (loc : At) (pd : Fin 8) (a b : Fin 32) (st : State) : Host.Outcome State Fault Refusal :=
  issueOp loc (.cmp .ne pd a b) 64 st

/-- CMPLT (10 R274): the short form writes p1. -/
def execCmplt (loc : At) (pd : Fin 8) (a b : Fin 32) (st : State) : Host.Outcome State Fault Refusal :=
  issueOp loc (.cmp .lt (shortP loc pd) a b) 64 st

/-- CMPLE (10 R274). -/
def execCmple (loc : At) (pd : Fin 8) (a b : Fin 32) (st : State) : Host.Outcome State Fault Refusal :=
  issueOp loc (.cmp .le pd a b) 64 st

/-- CMPLTU (10 R274). -/
def execCmpltu (loc : At) (pd : Fin 8) (a b : Fin 32) (st : State) : Host.Outcome State Fault Refusal :=
  issueOp loc (.cmp .ltu pd a b) 64 st

/-- CMPLEU (10 R274). -/
def execCmpleu (loc : At) (pd : Fin 8) (a b : Fin 32) (st : State) : Host.Outcome State Fault Refusal :=
  issueOp loc (.cmp .leu pd a b) 64 st

/-- CMPEQI (10 R274). -/
def execCmpeqi (loc : At) (pd : Fin 8) (a : Fin 32) (imm : BitVec 6) (st : State) : Host.Outcome State Fault Refusal :=
  issueOp loc (.cmpImm false pd a imm) 64 st

/-- CMPLTI (10 R274). -/
def execCmplti (loc : At) (pd : Fin 8) (a : Fin 32) (imm : BitVec 6) (st : State) : Host.Outcome State Fault Refusal :=
  issueOp loc (.cmpImm true pd a imm) 64 st

/-- PAND (10 R274). -/
def execPand (loc : At) (pd pa pb : Fin 8) (st : State) : Host.Outcome State Fault Refusal :=
  issueOp loc (.pand pd pa pb) 64 st

/-- POR (10 R274). -/
def execPor (loc : At) (pd pa pb : Fin 8) (st : State) : Host.Outcome State Fault Refusal :=
  issueOp loc (.por pd pa pb) 64 st

/-- PNOT (10 R274). -/
def execPnot (loc : At) (pd pa : Fin 8) (st : State) : Host.Outcome State Fault Refusal :=
  issueOp loc (.pnot pd pa) 64 st

/-- BR (10 R275): simm6 in the short form, simm14 in the long. -/
def execBr (loc : At) (off : BitVec 14) (st : State) : Host.Outcome State Fault Refusal :=
  issueOp loc (.br (BitVec.ofInt 16 (signed (if loc.long then 14 else 6) off.toNat))) 64 st

/-- CALL (10 R275). -/
def execCall (loc : At) (off : BitVec 14) (st : State) : Host.Outcome State Fault Refusal :=
  issueOp loc (.call (BitVec.ofInt 16 (signed 14 off.toNat))) 64 st

/-- JR (09 R257). -/
def execJr (loc : At) (a : Fin 32) (st : State) : Host.Outcome State Fault Refusal :=
  issueOp loc (.jr a) 64 st

/-- LOOP (10 R276). -/
def execLoop (loc : At) (l : Fin 2) (sc : Fin 32) (off : BitVec 8) (st : State) : Host.Outcome State Fault Refusal :=
  issueOp loc (.loop l sc off) 64 st

/-- LOOPI (10 R276). -/
def execLoopi (loc : At) (l : Fin 2) (n : BitVec 5) (off : BitVec 8) (st : State) : Host.Outcome State Fault Refusal :=
  issueOp loc (.loopi l n off) 64 st

/-- LBRK (08 R227). -/
def execLbrk (loc : At) (l : Fin 2) (st : State) : Host.Outcome State Fault Refusal :=
  issueOp loc (.lbrk l) 64 st

/-- MOV_L_LR (10 R278). -/
def execMovLLr (loc : At) (sel : BitVec 3) (s : Fin 32) (st : State) : Host.Outcome State Fault Refusal :=
  issueOp loc (.movToLoop sel s) 64 st

/-- MOV_L_SD (10 R278). -/
def execMovLSd (loc : At) (sel : BitVec 3) (s : Fin 32) (st : State) : Host.Outcome State Fault Refusal :=
  issueOp loc (.movFromLoop sel s) 64 st

/-- MOVC_R (10 R279). -/
def execMovcR (loc : At) (s c : Fin 32) (st : State) : Host.Outcome State Fault Refusal :=
  issueOp loc (.movcR s c) 64 st

/-- MOVC_W (10 R279). -/
def execMovcW (loc : At) (s c : Fin 32) (st : State) : Host.Outcome State Fault Refusal :=
  issueOp loc (.movcW s c) 64 st

/-- CSYNC (08 R230). -/
def execCsync (loc : At) (st : State) : Host.Outcome State Fault Refusal :=
  issueOp loc .csync 64 st

/-- PMSYNC (08 R228). -/
def execPmsync (loc : At) (st : State) : Host.Outcome State Fault Refusal :=
  issueOp loc .pmsync 64 st

/-- RTI (08 R239). -/
def execRti (loc : At) (st : State) : Host.Outcome State Fault Refusal :=
  issueOp loc .rti 64 st

/-- RTT (08 R232). -/
def execRtt (loc : At) (st : State) : Host.Outcome State Fault Refusal :=
  issueOp loc .rtt 64 st

/-- VGATE (08 R247). -/
def execVgate (loc : At) (st : State) : Host.Outcome State Fault Refusal :=
  issueOp loc .vgate 64 st

/-- BRK (09 R262). -/
def execBrk (loc : At) (n : BitVec 6) (st : State) : Host.Outcome State Fault Refusal :=
  issueOp loc (.brk n) 64 st

/-- SINT (08 R241). -/
def execSint (loc : At) (n : BitVec 6) (st : State) : Host.Outcome State Fault Refusal :=
  issueOp loc (.sint n) 64 st

end Sys2Proof.Machine
end

