-- ==== Sys2Proof/Machine/FtcAccess.lean ====
section
/-! DEFINITION. The Fintoic instructions of the address and load-store unit (L unit) (10 R280 to R292, 16 R436 to R442). -/

namespace Sys2Proof.Machine

/-- The short GM forms name one N for gN and mN (09 R269); they have no INDEXED form. -/
def shortForm (loc : At) (m : AddrForm) : AddrForm :=
  if loc.long then m
  else match m with
    | .post g _ => .post g (Fin.ofNat 8 g.val)
    | x => x

/-- LD_B (10 R281). -/
def execLdB (loc : At) (s : Fin 32) (m : AddrForm) (st : State) : Host.Outcome State Fault Refusal :=
  issueOp loc (.ld .b s m) 64 st

/-- LD_BU (10 R281). -/
def execLdBu (loc : At) (s : Fin 32) (m : AddrForm) (st : State) : Host.Outcome State Fault Refusal :=
  issueOp loc (.ld .bu s m) 64 st

/-- LD_H (10 R281). -/
def execLdH (loc : At) (s : Fin 32) (m : AddrForm) (st : State) : Host.Outcome State Fault Refusal :=
  issueOp loc (.ld .h s m) 64 st

/-- LD_HU (10 R281). -/
def execLdHu (loc : At) (s : Fin 32) (m : AddrForm) (st : State) : Host.Outcome State Fault Refusal :=
  issueOp loc (.ld .hu s m) 64 st

/-- LD_W (10 R281): the short form names one N for g and m. -/
def execLdW (loc : At) (s : Fin 32) (m : AddrForm) (st : State) : Host.Outcome State Fault Refusal :=
  issueOp loc (.ld .w s (shortForm loc m)) 64 st

/-- ST_B (10 R281). -/
def execStB (loc : At) (s : Fin 32) (m : AddrForm) (st : State) : Host.Outcome State Fault Refusal :=
  issueOp loc (.st .b s m) 64 st

/-- ST_H (10 R281). -/
def execStH (loc : At) (s : Fin 32) (m : AddrForm) (st : State) : Host.Outcome State Fault Refusal :=
  issueOp loc (.st .h s m) 64 st

/-- ST_W (10 R281). -/
def execStW (loc : At) (s : Fin 32) (m : AddrForm) (st : State) : Host.Outcome State Fault Refusal :=
  issueOp loc (.st .w s (shortForm loc m)) 64 st

/-- ADDA (10 R280). -/
def execAdda (loc : At) (g : Fin 16) (x : AddaForm) (st : State) : Host.Outcome State Fault Refusal :=
  issueOp loc (.adda g x) 64 st

/-- MOV_G (10 R280). -/
def execMovG (loc : At) (g : Fin 16) (s : Fin 32) (st : State) : Host.Outcome State Fault Refusal :=
  issueOp loc (.movG g s) 64 st

/-- MOV_S (10 R280). -/
def execMovS (loc : At) (s : Fin 32) (g : Fin 16) (st : State) : Host.Outcome State Fault Refusal :=
  issueOp loc (.movS s g) 64 st

/-- MOV_M (10 R280). -/
def execMovM (loc : At) (m : Fin 8) (s : Fin 32) (st : State) : Host.Outcome State Fault Refusal :=
  issueOp loc (.movM m s) 64 st

/-- BQ_ISSUE (10 R290). -/
def execBqIssue (loc : At) (tag : Fin 16) (s1 s2 : Fin 32) (st : State) : Host.Outcome State Fault Refusal :=
  issueOp loc (.bqIssue tag s1 s2) 64 st

/-- BQ_POLL (10 R291). -/
def execBqPoll (loc : At) (d : Fin 32) (tag : Fin 16) (st : State) : Host.Outcome State Fault Refusal :=
  issueOp loc (.bqPoll d tag) 64 st

/-- BQ_WAIT (10 R291). -/
def execBqWait (loc : At) (d : Fin 32) (tag : Fin 16) (st : State) : Host.Outcome State Fault Refusal :=
  issueOp loc (.bqWait d tag) 64 st

/-- BQ_STAT (10 R291). -/
def execBqStat (loc : At) (d : Fin 32) (tag : Fin 16) (st : State) : Host.Outcome State Fault Refusal :=
  issueOp loc (.bqStat d tag) 64 st

/-- SYN_SIG (16 R436). -/
def execSynSig (loc : At) (sa sb : Fin 32) (st : State) : Host.Outcome State Fault Refusal :=
  issueOp loc (.synSig sa sb) 64 st

/-- SYN_WAIT_INSTR (16 R438). -/
def execSynWaitInstr (loc : At) (sa sb : Fin 32) (st : State) : Host.Outcome State Fault Refusal :=
  issueOp loc (.synWait sa sb) 64 st

/-- SYN_ARM (16 R439). -/
def execSynArm (loc : At) (sa sb : Fin 32) (st : State) : Host.Outcome State Fault Refusal :=
  issueOp loc (.synArm sa sb) 64 st

end Sys2Proof.Machine
end

