-- ==== Sys2Proof/Machine/FtcEvents.lean ====
section
/-! DEFINITION. Events of a Fintoic core that are no instruction: wakes, interrupt entries, the timer, and the debug registers
(08 R205, R235 to R238, R247, 24 R642); and the register accesses as commands (24 R632 to R645). -/

namespace Sys2Proof.Machine

/-- VECTOR_UNIT_WAKE (08 R247): a wake that the program caused ends. -/
def Hw.unitAwake (h : Hw) (c : Nat) : Hw :=
  let k := h.core c
  if k.waking then h.setCore c ({ k with waking := false }.setStat 5 false) else h

def execVectorUnitWake (c : Fin 18) (s : State) : Host.Outcome State Fault Refusal := act (·.unitAwake c) s

/-- UNIT_WAKE_READY (07 R205). -/
def execUnitWakeReady (u : Fin 22) (s : State) : Host.Outcome State Fault Refusal := act (·.wakeReady u) s

/-- INTERRUPT_NORMAL_ENTRY (R237). -/
def execInterruptNormalEntry (c : Fin 18) (forced : Bool) (s : State) : Host.Outcome State Fault Refusal :=
  act (fun h => h.interrupt c false forced) s

/-- INTERRUPT_FAST_ENTRY (R238). -/
def execInterruptFastEntry (c : Fin 18) (forced : Bool) (s : State) : Host.Outcome State Fault Refusal :=
  act (fun h => h.interrupt c true forced) s

/-- FTC_TIMER_MATCH (R235). -/
def execFtcTimerMatch (c : Fin 18) (s : State) : Host.Outcome State Fault Refusal := act (·.timerMatch c) s

/-! ### Register accesses -/

/-- A write that reaches the block; FTC_DBGCTLc acts in READY only (03 R82). -/
def Hw.writeReg (h : Hw) (a : RegAccess) (v : Word) : Hw :=
  match idx a.off 0xE000 0x10 18 with
  | some (c, 0) =>
    if a.src = .pf && a.aligned && h.reaches .pf a.off && h.isState .ready then h.dbgCtlWrite .pf c a.off v else h.accessWrite a v
  | _ => h.accessWrite a v

/-- REGISTER_WRITE (00 R20). -/
def execRegisterWrite (a : RegAccess) (v : Word) (s : State) : Host.Outcome State Fault Refusal := act (·.writeReg a v) s

/-- REGISTER_READ (R20). -/
def execRegisterRead (a : RegAccess) (s : State) : Host.Outcome State Fault Refusal := act (·.accessRead a) s

/-- FTC_DBGCTL_GO (24 R642). -/
def execFtcDbgctlGo (c : Fin 18) (s : State) : Host.Outcome State Fault Refusal :=
  act (·.writeReg ⟨.pf, 0xE000 + 0x10 * c.val, true⟩ 1) s

/-- FTC_DBGCTL_STEP (R642). -/
def execFtcDbgctlStep (c : Fin 18) (s : State) : Host.Outcome State Fault Refusal :=
  act (·.writeReg ⟨.pf, 0xE000 + 0x10 * c.val, true⟩ 2) s

/-- FTC_DBGCTL_HALT (R642). -/
def execFtcDbgctlHalt (c : Fin 18) (s : State) : Host.Outcome State Fault Refusal :=
  act (·.writeReg ⟨.pf, 0xE000 + 0x10 * c.val, true⟩ 4) s

/-! ### Rows that are one register's access -/

/-- A write to one register by whatever source. -/
def Hw.writeTo (h : Hw) (src : RegSrc) (off : Nat) (v : Word) : Hw := h.accessWrite ⟨src, off, true⟩ v

/-- The offset of a function ring's register in the view of the source: `page` is the offset on a context's doorbell page. -/
def ringReg (src : RegSrc) (fn page : Nat) : Nat :=
  match src with
  | .vf _ => 0x1000 + fn
  | .page _ _ => page
  | _ => 0x2000 + fn

/-- CMD_TAIL (03 R62). -/
def execCmdTail (src : RegSrc) (v : Word) (s : State) : Host.Outcome State Fault Refusal :=
  act (fun h => h.writeTo src (ringReg src 0x20 0x00) v) s

/-- CMD_CHEAD (R64). -/
def execCmdChead (src : RegSrc) (v : Word) (s : State) : Host.Outcome State Fault Refusal :=
  act (fun h => h.writeTo src (ringReg src 0x24 0x04) v) s

/-- CMD_FCTL (R85): a function ring's register, so a doorbell page has none. -/
def execCmdFctl (src : RegSrc) (v : Word) (s : State) : Host.Outcome State Fault Refusal :=
  act (fun h => h.writeTo src (ringReg src 0x00 0x08) v) s

/-- FETCHERR_CLEAR (R68). -/
def execFetcherrClear (src : RegSrc) (s : State) : Host.Outcome State Fault Refusal :=
  act (fun h => h.writeTo src (ringReg src 0x2C 0x14) 4) s

/-- SYS_REGERR (24 R645). -/
def execSysRegerr (s : State) : Host.Outcome State Fault Refusal := act (fun h => h.writeTo .pf 0x08 1) s

/-- WEB_POSSET (19 R522): the high half's write. -/
def execWebPosset (e : Fin 2) (v : Word) (s : State) : Host.Outcome State Fault Refusal :=
  act (fun h => h.writeTo .pf (Reg.webPosset e + 4) v) s

/-- HDG_SUBMIT (14 R375): the high half's write. -/
def execHdgSubmit (src : RegSrc) (v : Word) (s : State) : Host.Outcome State Fault Refusal :=
  act (fun h => h.writeTo src 0x13004 v) s

/-- PRV_SUBMIT (R375). -/
def execPrvSubmit (src : RegSrc) (v : Word) (s : State) : Host.Outcome State Fault Refusal :=
  act (fun h => h.writeTo src 0x14004 v) s

/-- WEB_VPOST (19 R524): the high half's write. -/
def execWebVpost (src : RegSrc) (v : Word) (s : State) : Host.Outcome State Fault Refusal :=
  act (fun h => h.writeTo src 0x1F084 v) s

/-- DMA_KICK (15 R427). -/
def execDmaKickWrite (src : RegSrc) (n : Fin 128) (s : State) : Host.Outcome State Fault Refusal :=
  act (fun h => h.writeTo src (0x1901C + 0x40 * n.val) 0) s

/-- SIGNAL (16 R444). -/
def execSignal (f : Fin 32) (page : Fin 256) (v : Word) (s : State) : Host.Outcome State Fault Refusal :=
  act (fun h => h.writeTo (.page f page) 0x100 v) s

/-- VBASE (R444). -/
def execVbase (f : Fin 32) (page : Fin 256) (v : Word) (s : State) : Host.Outcome State Fault Refusal :=
  act (fun h => h.writeTo (.page f page) 0x104 v) s

/-- SYN_CTL (R457). -/
def execSynCtl (src : RegSrc) (n : Fin 16384) (v : Word) (s : State) : Host.Outcome State Fault Refusal :=
  act (fun h => h.writeTo src (0x80008 + 0x10 * n.val) v) s

/-- A core's write to mailbox space, while it runs a job. -/
def Hw.coreMbx (h : Hw) (c : Fin 18) (o : Nat) (v : Word) : Hw :=
  if (h.core c).run = .job && !(h.core c).halted then h.mbxWrite (.core c) o v else h

/-- WORD (16 R447). -/
def execWord (c : Fin 18) (ch : Fin 64) (d : Fin 32) (v : Word) (s : State) : Host.Outcome State Fault Refusal :=
  act (fun h => h.coreMbx c (ch.val * 0x1000 + 0x10 * d.val + 8) v) s

/-- DB (R449). -/
def execDb (c : Fin 18) (ch : Fin 64) (v : Word) (s : State) : Host.Outcome State Fault Refusal :=
  act (fun h => h.coreMbx c (ch.val * 0x1000 + 0xA00) v) s

/-- MASK (R451). -/
def execMask (c : Fin 18) (ch : Fin 64) (v : Word) (s : State) : Host.Outcome State Fault Refusal :=
  act (fun h => h.coreMbx c (ch.val * 0x1000 + 0xA04) v) s

end Sys2Proof.Machine
end

