-- ==== Sys2Proof/Machine/FtcSignal.lean ====
section
/-! DEFINITION. The Fintoic instructions of the signal unit (D unit) (10 R284 to R288). -/

namespace Sys2Proof.Machine

/-- MAC (10 R285, R286): dual fetch. -/
def execMac (loc : At) (x : Dual) (st : State) : Host.Outcome State Fault Refusal :=
  issueOp loc (.dual .mac x) 64 st

/-- MSU (10 R285, R286): dual fetch. -/
def execMsu (loc : At) (x : Dual) (st : State) : Host.Outcome State Fault Refusal :=
  issueOp loc (.dual .msu x) 64 st

/-- MPY (10 R285, R286): dual fetch. -/
def execMpy (loc : At) (x : Dual) (st : State) : Host.Outcome State Fault Refusal :=
  issueOp loc (.dual .mpy x) 64 st

/-- MAC_R (10 R285, R286). -/
def execMacR (loc : At) (acc : Fin 4) (a b : Fin 32) (st : State) : Host.Outcome State Fault Refusal :=
  issueOp loc (.macr .mac acc a b) 64 st

/-- MSU_R (10 R285, R286). -/
def execMsuR (loc : At) (acc : Fin 4) (a b : Fin 32) (st : State) : Host.Outcome State Fault Refusal :=
  issueOp loc (.macr .msu acc a b) 64 st

/-- MPY_R (10 R285, R286). -/
def execMpyR (loc : At) (acc : Fin 4) (a b : Fin 32) (st : State) : Host.Outcome State Fault Refusal :=
  issueOp loc (.macr .mpy acc a b) 64 st

/-- SAT_A (10 R287). -/
def execSatA (loc : At) (d : Fin 32) (acc : Fin 4) (n : BitVec 5) (st : State) : Host.Outcome State Fault Refusal :=
  issueOp loc (.satA d acc n) 64 st

/-- MOV_A (10 R286). -/
def execMovA (loc : At) (acc : Fin 4) (a : Fin 32) (st : State) : Host.Outcome State Fault Refusal :=
  issueOp loc (.movA acc a) 64 st

/-- ADDACC (10 R286). -/
def execAddacc (loc : At) (an am : Fin 4) (st : State) : Host.Outcome State Fault Refusal :=
  issueOp loc (.accAdd false an am) 64 st

/-- SUBACC (10 R286). -/
def execSubacc (loc : At) (an am : Fin 4) (st : State) : Host.Outcome State Fault Refusal :=
  issueOp loc (.accAdd true an am) 64 st

/-- SHLA (10 R286). -/
def execShla (loc : At) (acc : Fin 4) (imm : BitVec 6) (st : State) : Host.Outcome State Fault Refusal :=
  issueOp loc (.shla acc imm) 64 st

/-- CLR (10 R286). -/
def execClr (loc : At) (acc : Fin 4) (st : State) : Host.Outcome State Fault Refusal :=
  issueOp loc (.clr acc) 64 st

end Sys2Proof.Machine
end

