-- ==== Sys2Proof/Machine/FtcVector.lean ====
section
/-! DEFINITION. The Fintoic vector instructions (V unit) (11). -/

namespace Sys2Proof.Machine

/-- VADD_H (11 R298). -/
def execVaddH (loc : At) (d a b : Fin 32) (st : State) : Host.Outcome State Fault Refusal :=
  issueOp loc (.vop .addH d a b) 64 st

/-- VSUB_H (11 R298). -/
def execVsubH (loc : At) (d a b : Fin 32) (st : State) : Host.Outcome State Fault Refusal :=
  issueOp loc (.vop .subH d a b) 64 st

/-- VADDS_H (11 R298). -/
def execVaddsH (loc : At) (d a b : Fin 32) (st : State) : Host.Outcome State Fault Refusal :=
  issueOp loc (.vop .addsH d a b) 64 st

/-- VSUBS_H (11 R298). -/
def execVsubsH (loc : At) (d a b : Fin 32) (st : State) : Host.Outcome State Fault Refusal :=
  issueOp loc (.vop .subsH d a b) 64 st

/-- VMUL_H (11 R298). -/
def execVmulH (loc : At) (d a b : Fin 32) (st : State) : Host.Outcome State Fault Refusal :=
  issueOp loc (.vop .mulH d a b) 64 st

/-- VMIN_H (11 R298). -/
def execVminH (loc : At) (d a b : Fin 32) (st : State) : Host.Outcome State Fault Refusal :=
  issueOp loc (.vop .minH d a b) 64 st

/-- VMAX_H (11 R298). -/
def execVmaxH (loc : At) (d a b : Fin 32) (st : State) : Host.Outcome State Fault Refusal :=
  issueOp loc (.vop .maxH d a b) 64 st

/-- VAND (11 R298). -/
def execVand (loc : At) (d a b : Fin 32) (st : State) : Host.Outcome State Fault Refusal :=
  issueOp loc (.vop .and d a b) 64 st

/-- VOR (11 R298). -/
def execVor (loc : At) (d a b : Fin 32) (st : State) : Host.Outcome State Fault Refusal :=
  issueOp loc (.vop .or d a b) 64 st

/-- VXOR (11 R298). -/
def execVxor (loc : At) (d a b : Fin 32) (st : State) : Host.Outcome State Fault Refusal :=
  issueOp loc (.vop .xor d a b) 64 st

/-- VADD_B (11 R298). -/
def execVaddB (loc : At) (d a b : Fin 32) (st : State) : Host.Outcome State Fault Refusal :=
  issueOp loc (.vop .addB d a b) 64 st

/-- VADDS_B (11 R298). -/
def execVaddsB (loc : At) (d a b : Fin 32) (st : State) : Host.Outcome State Fault Refusal :=
  issueOp loc (.vop .addsB d a b) 64 st

/-- VADD_H_M (11 R300). -/
def execVaddHM (loc : At) (d b : Fin 32) (k : Fin 8) (z : Bool) (st : State) : Host.Outcome State Fault Refusal :=
  issueOp loc (.vopMasked .addH d b k z) 64 st

/-- VSUB_H_M (11 R300). -/
def execVsubHM (loc : At) (d b : Fin 32) (k : Fin 8) (z : Bool) (st : State) : Host.Outcome State Fault Refusal :=
  issueOp loc (.vopMasked .subH d b k z) 64 st

/-- VADDS_H_M (11 R300). -/
def execVaddsHM (loc : At) (d b : Fin 32) (k : Fin 8) (z : Bool) (st : State) : Host.Outcome State Fault Refusal :=
  issueOp loc (.vopMasked .addsH d b k z) 64 st

/-- VMUL_H_M (11 R300). -/
def execVmulHM (loc : At) (d b : Fin 32) (k : Fin 8) (z : Bool) (st : State) : Host.Outcome State Fault Refusal :=
  issueOp loc (.vopMasked .mulH d b k z) 64 st

/-- VMOV_M (11 R300). -/
def execVmovM (loc : At) (d b : Fin 32) (k : Fin 8) (z : Bool) (st : State) : Host.Outcome State Fault Refusal :=
  issueOp loc (.vmovMasked d b k z) 64 st

/-- VMOV (11 R303). -/
def execVmov (loc : At) (d a : Fin 32) (st : State) : Host.Outcome State Fault Refusal :=
  issueOp loc (.vmov d a) 64 st

/-- VSHL_H (11 R299). -/
def execVshlH (loc : At) (d a : Fin 32) (n : BitVec 4) (st : State) : Host.Outcome State Fault Refusal :=
  issueOp loc (.vshift .shl d a n) 64 st

/-- VSHR_H (11 R299). -/
def execVshrH (loc : At) (d a : Fin 32) (n : BitVec 4) (st : State) : Host.Outcome State Fault Refusal :=
  issueOp loc (.vshift .shr d a n) 64 st

/-- VSHRR_H (11 R299). -/
def execVshrrH (loc : At) (d a : Fin 32) (n : BitVec 4) (st : State) : Host.Outcome State Fault Refusal :=
  issueOp loc (.vshift .shrr d a n) 64 st

/-- VMAC_H (11 R301). -/
def execVmacH (loc : At) (w : Fin 4) (a b : Fin 32) (st : State) : Host.Outcome State Fault Refusal :=
  issueOp loc (.vmac .mac w a b) 64 st

/-- VMSU_H (11 R301). -/
def execVmsuH (loc : At) (w : Fin 4) (a b : Fin 32) (st : State) : Host.Outcome State Fault Refusal :=
  issueOp loc (.vmac .msu w a b) 64 st

/-- VMPY_H (11 R301). -/
def execVmpyH (loc : At) (w : Fin 4) (a b : Fin 32) (st : State) : Host.Outcome State Fault Refusal :=
  issueOp loc (.vmac .mpy w a b) 64 st

/-- VCLR (11 R301). -/
def execVclr (loc : At) (w : Fin 4) (st : State) : Host.Outcome State Fault Refusal :=
  issueOp loc (.vclr w) 64 st

/-- VNARROW (11 R302). -/
def execVnarrow (loc : At) (d : Fin 32) (w : Fin 4) (n : BitVec 5) (st : State) : Host.Outcome State Fault Refusal :=
  issueOp loc (.vnarrow d w n) 64 st

/-- VCMPEQ_H (11 R303). -/
def execVcmpeqH (loc : At) (k : Fin 8) (a b : Fin 32) (st : State) : Host.Outcome State Fault Refusal :=
  issueOp loc (.vcmp .eq k a b) 64 st

/-- VCMPLT_H (11 R303). -/
def execVcmpltH (loc : At) (k : Fin 8) (a b : Fin 32) (st : State) : Host.Outcome State Fault Refusal :=
  issueOp loc (.vcmp .lt k a b) 64 st

/-- VCMPLE_H (11 R303). -/
def execVcmpleH (loc : At) (k : Fin 8) (a b : Fin 32) (st : State) : Host.Outcome State Fault Refusal :=
  issueOp loc (.vcmp .le k a b) 64 st

/-- KAND (11 R303). -/
def execKand (loc : At) (kd ka kb : Fin 8) (st : State) : Host.Outcome State Fault Refusal :=
  issueOp loc (.kand kd ka kb) 64 st

/-- KOR (11 R303). -/
def execKor (loc : At) (kd ka kb : Fin 8) (st : State) : Host.Outcome State Fault Refusal :=
  issueOp loc (.kor kd ka kb) 64 st

/-- KNOT (11 R303). -/
def execKnot (loc : At) (kd ka : Fin 8) (st : State) : Host.Outcome State Fault Refusal :=
  issueOp loc (.knot kd ka) 64 st

/-- VBCAST (11 R303). -/
def execVbcast (loc : At) (d a : Fin 32) (st : State) : Host.Outcome State Fault Refusal :=
  issueOp loc (.vbcast d a) 64 st

/-- VEXT (11 R303). -/
def execVext (loc : At) (d a b : Fin 32) (st : State) : Host.Outcome State Fault Refusal :=
  issueOp loc (.vext d a b) 64 st

/-- VLD (11 R304). -/
def execVld (loc : At) (v : Fin 32) (m : AddrForm) (upto : Nat) (st : State) : Host.Outcome State Fault Refusal :=
  issueOp loc (.vld v m) upto st

/-- VST (11 R304). -/
def execVst (loc : At) (v : Fin 32) (m : AddrForm) (upto : Nat) (st : State) : Host.Outcome State Fault Refusal :=
  issueOp loc (.vst v m) upto st

/-- VGATHER_H (11 R308). -/
def execVgatherH (loc : At) (v vi : Fin 32) (g : Fin 16) (upto : Nat) (st : State) : Host.Outcome State Fault Refusal :=
  issueOp loc (.index .gather v vi g) upto st

/-- VSCATTER_H (11 R308). -/
def execVscatterH (loc : At) (v vi : Fin 32) (g : Fin 16) (upto : Nat) (st : State) : Host.Outcome State Fault Refusal :=
  issueOp loc (.index .scatter v vi g) upto st

/-- VRMWADD_H (11 R309). -/
def execVrmwAddH (loc : At) (v vi : Fin 32) (g : Fin 16) (upto : Nat) (st : State) : Host.Outcome State Fault Refusal :=
  issueOp loc (.index .rmwAdd v vi g) upto st

/-- VREDSUM_H (11 R313). -/
def execVredsumH (loc : At) (d a : Fin 32) (upto : Nat) (st : State) : Host.Outcome State Fault Refusal :=
  issueOp loc (.red .sum d a) upto st

/-- VREDMIN_H (11 R313). -/
def execVredminH (loc : At) (d a : Fin 32) (upto : Nat) (st : State) : Host.Outcome State Fault Refusal :=
  issueOp loc (.red .min d a) upto st

/-- VREDMAX_H (11 R313). -/
def execVredmaxH (loc : At) (d a : Fin 32) (upto : Nat) (st : State) : Host.Outcome State Fault Refusal :=
  issueOp loc (.red .max d a) upto st

/-- VMINIDX_H (11 R313). -/
def execVminidxH (loc : At) (d a : Fin 32) (upto : Nat) (st : State) : Host.Outcome State Fault Refusal :=
  issueOp loc (.red .minidx d a) upto st

/-- VMAXIDX_H (11 R313). -/
def execVmaxidxH (loc : At) (d a : Fin 32) (upto : Nat) (st : State) : Host.Outcome State Fault Refusal :=
  issueOp loc (.red .maxidx d a) upto st

/-- VSMIN_IDX (11 R314). -/
def execVsminIdx (loc : At) (d a : Fin 32) (upto : Nat) (st : State) : Host.Outcome State Fault Refusal :=
  issueOp loc (.red .searchMin d a) upto st

/-- VSMAX_IDX (11 R314). -/
def execVsmaxIdx (loc : At) (d a : Fin 32) (upto : Nat) (st : State) : Host.Outcome State Fault Refusal :=
  issueOp loc (.red .searchMax d a) upto st

end Sys2Proof.Machine
end

