-- ==== Sys2Proof/Machine/HostRows.lean ====
section
/-! DEFINITION. The host interface's own commands: configuration requests, BAR4, host completions, bus mastering, MSI-X masks,
host resets and function-level resets (21). -/

namespace Sys2Proof.Machine

/-! ### Function-level reset (R585, R586) -/

/-- The context ring of a slot gives up its packet without a reply (03 R81). -/
def Hw.dropExec (h : Hw) (slot : Nat) : Hw := h.modRing (.ctx (Fin.ofNat 256 slot)) (fun r => { r with exec := none })

/-- One context of the function is destroyed; one that is RESETTING already is released when its reset completes (05 R169). -/
def Hw.flrCtx (h : Hw) (slot : Nat) : Hw :=
  let h := h.dropExec slot
  match (h.ctx slot).state with
  | .resetting => h.modCtx slot (fun c => { c with reset := c.reset.map (fun r => { r with kind := .flr, drain := 0 }) })
  | .free => h
  | _ => h.startReset slot .flr

/-- An FLR of one function. -/
def Hw.flrOne (h : Hw) (f : Nat) : Hw :=
  let h := (h.setRing (.fn (Fin.ofNat 32 f)) {}).setFunc f { cfgBusy := true }
  let lo := f * 0x4000000
  let h := { h with helds := Tbl.clearRange h.helds lo (lo + 0x4000000), snaps := Tbl.clearRange h.snaps lo (lo + 0x4000000) }
  let slots := h.slotsOf f
  let h := slots.foldl (fun (h : Hw) s => h.flrCtx s) h
  h.modFunc f (fun x => { x with flr := !slots.isEmpty })

/-- The VFs that exist. -/
def Hw.vfs (h : Hw) : List Nat := if h.pci.vfEnable then (List.range h.pci.numVfs).map (· + 1) else []

/-- An entry of the steward log for a reset by the host, from the first readiness on (22 R612, 21 R584). -/
def Hw.logReset (h : Hw) (event f : Nat) : Hw := if h.pci.crs then h else h.stewardLog event f 0

/-- VF Enable is cleared (R572); `one` resets a function. -/
def Hw.vfOff (h : Hw) (one : Hw → Nat → Hw) : Hw := { h.vfs.foldl one h with pci.vfEnable := false, pci.numVfs := 0 }

/-- An FLR of one function, with its entry in the steward log. -/
def Hw.flrLogged (h : Hw) (f : Nat) : Hw := (h.flrOne f).logReset 6 f

/-- An FLR; that of the PF clears VF Enable. -/
def Hw.flr (h : Hw) (f : Nat) : Hw :=
  if !h.fnExists f then h else if f = 0 then (h.flrLogged 0).vfOff Hw.flrLogged else h.flrLogged f

/-- A host reset (R584): every function as by FLR, and the link is down until it trains again; then configuration requests are
performed without CRS. -/
def Hw.hostReset (h : Hw) : Hw :=
  let h := (h.flrOne 0).vfOff Hw.flrOne
  let h := (List.range 32).foldl (fun (h : Hw) f => h.modFunc f (fun x => { x with cfgBusy := false })) { h with pci.up := false }
  h.logReset 7 0

/-! ### Bus mastering and masks (R579, R581) -/

/-- A held request goes out: a reply is written, a vector delivered. -/
def Hw.release (h : Hw) (f : Nat) : HeldReq → Hw
  | .reply a bs => h.hostPut a.toNat bs
  | .vector v => h.deliverVector f v
  | .event v => h.deliverVector f v

def isReply : HeldReq → Bool
  | .reply _ _ => true
  | _ => false

/-- What a function held goes out, replies before messages, once it may master the bus. -/
def Hw.releaseHeld (h : Hw) (f : Nat) : Hw :=
  let c := h.func f
  if !c.mayMaster || c.held = [] then h
  else
    let l := c.held.filter isReply ++ c.held.filter (fun r => !isReply r)
    l.foldl (fun (h : Hw) r => h.release f r) (h.setFunc f { c with held := [] })

/-- Changes a function, and sends what its new state allows. -/
def Hw.changeFunc (h : Hw) (f : Nat) (g : Func → Func) : Hw := ((h.modFunc f g).releaseHeld f).sendPending f

/-! ### Configuration requests (R571, R572, R583, R585) -/

/-- Whether a configuration request to a function is performed: not with CRS, nor as Unsupported Request. -/
def Hw.configured (h : Hw) (f : Nat) : Bool :=
  h.pci.up && h.fnExists f && !(h.func f).cfgBusy &&
    (!h.pci.crs || (h.sys.recovery && h.sys.powerGoodAt + ms 350 ≤ h.now))

/-- A dword of configuration space. -/
def Hw.configRead (h : Hw) (f dw : Nat) : Word :=
  let c := h.func f
  match dw with
  | 0 => if f = 0 then 0x08801F3C else 0x08811F3C
  | 1 => setBit (setBit (Config.configWord f 1) 1 c.memSpace) 2 c.busMaster
  | 2 => 0x120000B1
  | 11 => Config.subsystem
  | 15 => setBits (Config.configWord f 15) 8 8 0
  | n => Config.configWord f n

/-- The function that a request names. -/
def configFunc : ConfigReq → Nat
  | .read f _ => f
  | .busMaster f _ => f
  | .memSpace f _ => f
  | .d3hot f _ => f
  | .msixControl f _ _ => f
  | .vfEnable _ _ => 0
  | .initiateFlr f => f

def Hw.configRequest (h : Hw) (r : ConfigReq) : Hw :=
  if !h.configured (configFunc r) then { h with pci.answer := none }
  else
    match r with
    | .read f dw => { h with pci.answer := some (h.configRead f dw.toNat) }
    | .busMaster f on => h.changeFunc f (fun c => { c with busMaster := on })
    | .memSpace f on => h.modFunc f (fun c => { c with memSpace := on })
    | .d3hot f on => h.changeFunc f (fun c => { c with d3hot := on })
    | .msixControl f enable mask => h.changeFunc f (fun c => { c with msixOn := enable, funcMask := mask })
    | .vfEnable on n =>
      if on then (if h.pci.vfEnable then h else { h with pci.vfEnable := true, pci.numVfs := min n.toNat 31 })
      else h.vfOff Hw.flrLogged
    | .initiateFlr f => h.flr f

/-! ### BAR4 (R575) -/

/-- Where a BAR4 access lands, when all of it lies in one open region: local memory, or an offset in a core's window. -/
def Hw.bar4Place (h : Hw) (off n : Nat) : Option (Nat ⊕ (Nat × Nat)) :=
  if n = 0 then none
  else if off + n ≤ 0x600000000 then some (.inl off)
  else if 0x600000000 ≤ off && off + n ≤ 0x603000000 then some (.inl (off - 0x600000000 + sramBase))
  else if 0x700000000 ≤ off && off + n ≤ 0x701200000 && h.isState .ready then
    let o := off - 0x700000000
    some (.inr (o / 0x100000, o % 0x100000))
  else none

/-- A refused access (R575). -/
def Hw.badAddr (h : Hw) : Hw := (h.bump Reg.pciBadaddr 1).setRegBit Reg.pciStat 0

/-- Agent 7 and slot 0xFF of the memory log stand for the host (17 R481). -/
def Hw.bar4Read (h : Hw) (off n : Nat) : Hw :=
  let out (x : Hw × Except Nat (List Byte)) : Hw :=
    { x.1 with pci.bar4 := some (match x.2 with | .ok bs => (bs, false) | .error _ => ([], true)) }
  match h.bar4Place off n with
  | none => { h.badAddr with pci.bar4 := none }
  | some (.inl a) => out (h.memRead 7 0xFF a n)
  | some (.inr (c, o)) => out (h.winRead 7 0xFF c o n)

/-- A poisoned request poisons every granule it touches (17 R471). -/
def Hw.poisonRange (h : Hw) (a n : Nat) : Hw := (granules a n).foldl (fun (h : Hw) g => h.poison g 7 7 0xFF) h

def Hw.bar4Write (h : Hw) (off : Nat) (bs : List Byte) (poisoned : Bool) : Hw :=
  match h.bar4Place off bs.length with
  | none => h.badAddr
  | some (.inl a) =>
    let h := h.memWrite 7 0xFF a bs
    if poisoned then h.poisonRange a bs.length else h
  | some (.inr (c, o)) =>
    let h := h.winWrite 7 0xFF c o bs
    if poisoned && o < 0x60000 then h.poisonRange (coreWindow c + o) bs.length else h

def Hw.bar4 (h : Hw) (r : Bar4Req) : Hw :=
  match r, h.served 0 with
  | .read off n, true => h.bar4Read off n
  | .read _ _, false => { h with pci.bar4 := none }
  | .write off bs p, true => h.bar4Write off bs p
  | .write _ _ _, false => h

/-! ### Completions of host reads (R578) -/

/-- Bytes that a failed read does not deliver. -/
def Hw.markBad (h : Hw) (a n kind : Nat) : Hw :=
  { h with pci.hostBad := (List.range n).foldl (fun t i => Tbl.put t (a + i) kind) h.pci.hostBad }

/-- A completion delivers bytes from an address on, or fails the read there. -/
def Hw.hostCompletion (h : Hw) (f addr : Nat) (r : HostAnswer) : Hw :=
  if !h.fnExists f then h
  else
    match r with
    | .data bs => { h.hostPut addr bs with pci.hostBad := Tbl.clearRange h.pci.hostBad addr (addr + bs.length) }
    | .fail kind => if hostFailCode kind = 4 then h else (h.markBad addr 1 (hostFailCode kind)).hostReadFailed f addr (hostFailCode kind)

/-- A read of `n` bytes times out: it fails at the first byte for which nothing came. -/
def Hw.hostTimeout (h : Hw) (f addr n : Nat) : Hw :=
  if !h.fnExists f || n = 0 then h else (h.markBad addr (min n 4096) 3).hostReadFailed f addr 3

/-! ### The commands -/

def execConfigRequest (r : ConfigReq) (s : State) : Host.Outcome State Fault Refusal := act (·.configRequest r) s

def execBar4Access (r : Bar4Req) (s : State) : Host.Outcome State Fault Refusal := act (·.bar4 r) s

def execHostReadCompletion (f : Fin 32) (addr : Dword) (r : HostAnswer) (s : State) : Host.Outcome State Fault Refusal :=
  act (·.hostCompletion f addr.toNat r) s

def execCompletionTimeout (f : Fin 32) (addr : Dword) (len : Nat) (s : State) : Host.Outcome State Fault Refusal :=
  act (·.hostTimeout f addr.toNat len) s

/-- BUS_MASTER_ENABLE (R579): Bus Master Enable is set and the function is in D0. -/
def execBusMasterEnable (f : Fin 32) (s : State) : Host.Outcome State Fault Refusal :=
  act (fun h => if h.configured f then h.changeFunc f (fun c => { c with busMaster := true, d3hot := false }) else h) s

/-- MSIX_UNMASK (R581). -/
def execMsixUnmask (f : Fin 32) (what : Unmask) (s : State) : Host.Outcome State Fault Refusal :=
  act (fun h =>
    match what with
    | .entry i =>
      if h.served f then
        h.changeFunc f (fun c => { c with table := Tbl.set {} c.table i { Tbl.get {} c.table i with masked := false } })
      else h
    | .funcMask => if h.configured f then h.changeFunc f (fun c => { c with funcMask := false }) else h
    | .enable => if h.configured f then h.changeFunc f (fun c => { c with msixOn := true }) else h) s

def execHostReset (s : State) : Host.Outcome State Fault Refusal := act Hw.hostReset s

def execFlr (f : Fin 32) (s : State) : Host.Outcome State Fault Refusal := act (·.flr f) s

/-- FLR_CONFIG_RESTORED (R585). -/
def execFlrConfigRestored (f : Fin 32) (s : State) : Host.Outcome State Fault Refusal :=
  act (·.modFunc f (fun c => { c with cfgBusy := false })) s

/-- PCIE_LINK_UP (R569, R583): speeds 1 to 5 and widths 1, 2, 4 and 8. -/
def execPcieLinkUp (speed : BitVec 3) (width : BitVec 4) (s : State) : Host.Outcome State Fault Refusal :=
  act (fun h =>
    let n := speed.toNat
    if h.isState .off || !h.pci.trainOn || n = 0 || 5 < n || !([1, 2, 4, 8].contains width.toNat) then h
    else { h with pci.up := true, pci.speed := n, pci.width := width.toNat }) s

end Sys2Proof.Machine
end

