-- ==== Sys2Proof/Machine/Network.lean ====
section
/-! DEFINITION. Ethernet, PTP and the transceiver cages: management datagrams, received frames, the result stream's datagrams,
the servo and TIME_FAULT (20 R535 to R542, R560, R561, R566, R567, 23 R617). -/

namespace Sys2Proof.Machine

/-! ### Cages (R617) -/

/-- A port's link follows its partner while its cage is supplied (20 R566). -/
def Hw.ethLink (h : Hw) (p : Nat) (up : Bool) : Hw :=
  if up && !h.cageOn p then h else h.modEthPort p (fun x => { x with link := up })

/-- The links of a cage drop. -/
def Hw.cageLinksDown (h : Hw) (cage : Nat) : Hw := if cage < 2 then h.ethLink cage false else h.portDown (cage - 2)

def Hw.cageInsert (h : Hw) (cage : Nat) (x : Transceiver) : Hw :=
  if (h.cage cage).plugged.isSome then h else h.setCage cage { plugged := some x }

def Hw.cageRemove (h : Hw) (cage : Nat) : Hw :=
  if (h.cage cage).plugged.isSome then (h.setCage cage {}).cageLinksDown cage else h

def Hw.cageOverpower (h : Hw) (cage : Nat) : Hw :=
  if h.cageOn cage then (h.setCage cage { h.cage cage with off := true }).cageLinksDown cage else h

/-! ### Sending (R536, R537, R560) -/

/-- A port sends something of `bytes`. -/
def Hw.ethSend (h : Hw) (p : Nat) (bytes : List Byte) : Hw := h.modEthPort p (fun x => { x with sent := bytes :: x.sent })

/-- A result-stream datagram (R560). -/
def Hw.datagramBytes (h : Hw) (d : Datagram) : List Byte :=
  bytesOf 2 1 ++ bytesOf 2 (if h.wml.joined then h.wml.id else 0xFFFF) ++ bytesOf 6 d.fnum.toNat ++ bytesOf 2 d.records.length ++
    bytesOf 4 d.dseq.toNat ++ bytesOf 8 d.tickTime.toNat ++ [d.flags] ++ bytesOf 1 d.part ++ bytesOf 6 0 ++ d.records.flatten

/-- The oldest queued datagram leaves its port. -/
def Hw.datagramOut (h : Hw) (p : Nat) : Hw :=
  let x := h.ethPort p
  match decide (x.link = true ∧ x.enabled = true), x.queue with
  | true, d :: rest => ((h.setEthPort p { x with queue := rest }).ethSend p (h.datagramBytes d)).bump (Reg.ethRssent p) 1
  | _, _ => h

/-! ### Management datagrams (R538) -/

/-- The opcodes of a management datagram. -/
def mgmtBody (op : Nat) : Option OpBody := [pktNop, pktQueryModule, pktCpcReport, pktDomainStatus].find? (fun b => b.code = op)

/-- The status and result bytes of a command packet in a management datagram: the checks of R75 without step 3. -/
def Hw.mgmtAnswer (h : Hw) (p : Packet) : Nat × List Byte :=
  let out (s o : Nat) : Nat × List Byte := (s, resultOf [(0, 4, o)])
  match firstFail ((h.formChecks (.fn 0) p).take 3) with
  | some (s, o) => out s o
  | none =>
    match opRow p.opcode.toNat with
    | none => out Status.unknownOpcode 0
    | some row =>
      let n := p.slots.toNat
      match firstFail [(n < row.min || row.max < n, Status.badLength, 0)], mgmtBody row.code with
      | some (s, o), _ => out s o
      | none, none => out Status.notPermitted 0
      | none, some b =>
        match firstFail (h.handleChecks (.fn 0) { row with owned := false } p.handle ++ h.stateChecks none row.code) with
        | some (s, o) => out s o
        | none =>
          let c : Cmd := ⟨.fn 0, p, 0, 0⟩
          match c.reserved (b.masks c) with
          | some w => out Status.reservedNonzero (4 * w)
          | none =>
            match (b.run c h).2 with
            | .reply s r => (s, r)
            | .wait _ => (Status.ok, [])

/-- A management datagram arrives from an address and port. -/
def Hw.mgmtDatagram (h : Hw) (port : Nat) (ip : Word) (udp : Nat) (p : Packet) : Hw :=
  let x := h.ethPort port
  if !x.link || !x.enabled || !bit (h.reg (Reg.ethCfg port)) 1 || !h.sys.stewardOn || !h.sys.everReady then h
  else if (ip ^^^ h.reg (Reg.ethAcl port)) &&& h.reg (Reg.ethAcl port + 4) ≠ 0 then h.bump (Reg.ethMgmtdeny port) 1
  else
    let a := h.mgmtAnswer p
    h.ethSend port (bytesOf 4 ip.toNat ++ bytesOf 2 udp ++ replyEntry p a.1 false 0 a.2)

/-! ### PTP (R539 to R541) -/

/-- Whether the clock listens on a port. -/
def Hw.ptpUses (h : Hw) (port : Nat) : Bool := h.ptp.role ≠ 0 && h.ptp.mask.testBit port

/-- PTP port states (IEEE 1588): LISTENING, MASTER, UNCALIBRATED, SLAVE. -/
def Ptp.listening : Nat := 4
def Ptp.master : Nat := 6
def Ptp.uncalibrated : Nat := 8
def Ptp.slave : Nat := 9

/-- An Announce: the best master clock algorithm selects its sender, or this module. -/
def Hw.announce (h : Hw) (port : Nat) (clock : Dword) (best : Bool) : Hw :=
  let h := { h with ptp.announces := h.ptp.announces + 1 }
  let p := h.ptp
  if !h.ptpUses port then (if best then { h with ptp.master := clock } else h)
  else if best then
    if p.hasMaster && p.master = clock && p.slavePort = port then h
    else { h with
      ptp.master := clock, ptp.hasMaster := true, ptp.measured := false, ptp.slavePort := port, ptp.holdover := none
      ptp.states := (List.range 2).map (fun i =>
        if i = port then Ptp.uncalibrated else if p.role = 2 then Ptp.master else nth 3 p.states i) }
  else if p.role = 2 || bit (h.reg Reg.ptpCfg) 0 then
    (if p.hasMaster && p.slavePort = port then h else { h with ptp.states := setAt p.states port Ptp.master })
  else h

/-- A servo update (R540, R541): `offset` is this clock's lead over its master in ns, `ppb` the new rate. -/
def Hw.ptpSync (h : Hw) (port : Nat) (offset : Int) (mpd : Word) (ppb : Int) : Hw :=
  let p := h.ptp
  if !p.hasMaster || p.slavePort ≠ port || p.role = 0 then h
  else
    let h := { h with
      ptp.offset := offset, ptp.mpd := mpd, ptp.measured := true, ptp.states := setAt p.states port Ptp.slave }
    let h :=
      if 1000000 ≤ offset.natAbs then
        { h with ptp.time := h.ptp.time - BitVec.ofInt 64 offset }.setRegBit Reg.ptpEvt 1
      else { h with ptp.freq := clampInt (-500000) 500000 ppb }
    if 1000 < offset.natAbs then h.raiseTimeFault
    else if offset.natAbs ≤ 800 then
      let n := h.ptp.good + 1
      { h with ptp.good := min n 4, ptp.fault := h.ptp.fault && n < 4 }
    else { h with ptp.good := 0 }

/-- A master port sends a Sync. -/
def Hw.ptpTransmit (h : Hw) (port : Nat) : Hw :=
  let x := h.ethPort port
  if x.link && x.enabled && h.ptpUses port && nth 0 h.ptp.states port = Ptp.master then
    { h with ptp.syncsSent := h.ptp.syncsSent + 1 }
  else h

/-- The master is lost (R540). -/
def Hw.masterLost (h : Hw) : Hw :=
  if h.ptp.hasMaster then
    { h with
      ptp.hasMaster := false, ptp.good := 0, ptp.holdover := some h.now
      ptp.states := setAt h.ptp.states h.ptp.slavePort Ptp.listening }.setRegBit Reg.ptpEvt 2
  else h

/-- Holdover has lasted PTP_HOLDMS (R541). -/
def Hw.holdoverExpiry (h : Hw) : Hw :=
  match h.ptp.holdover with
  | some t => (h.advanceTo (t + ms (bits (h.reg Reg.ptpHoldms) 0 16))).raiseTimeFault
  | none => h

/-! ### Received frames (R535, R536) -/

/-- A received frame. -/
def Hw.ethReceive (h : Hw) (port : Nat) (f : EthFrame) : Hw :=
  let x := h.ethPort port
  if !x.link then h
  else
    match f with
    | .ptpAnnounce clock best => h.announce port clock best
    | .ptpOther => h
    | .unsupported => h.bump (Reg.ethRxdisc port) 1
    | .otherUdp => h
    | .arpRequest target sender =>
      if x.enabled && target = h.reg (Reg.ethIp port) then
        h.ethSend port (bytesOf 6 (Config.mac port).toNat ++ bytesOf 4 target.toNat ++ bytesOf 4 sender.toNat)
      else h
    | .icmpEcho target sender =>
      if x.enabled && target = h.reg (Reg.ethIp port) then h.ethSend port (bytesOf 4 target.toNat ++ bytesOf 4 sender.toNat) else h

/-! ### The commands -/

def execManagementDatagram (port : Fin 2) (ip : Word) (udp : BitVec 16) (p : Packet) (s : State) :
    Host.Outcome State Fault Refusal := act (·.mgmtDatagram port ip udp.toNat p) s

def execEthFrameReceive (port : Fin 2) (f : EthFrame) (s : State) : Host.Outcome State Fault Refusal := act (·.ethReceive port f) s

def execPtpSync (port : Fin 2) (offset : Int) (mpd : Word) (ppb : Int) (s : State) : Host.Outcome State Fault Refusal :=
  act (·.ptpSync port offset mpd ppb) s

def execPtpSyncTransmit (port : Fin 2) (s : State) : Host.Outcome State Fault Refusal := act (·.ptpTransmit port) s

def execMasterlost (s : State) : Host.Outcome State Fault Refusal := act Hw.masterLost s

def execHoldoverExpiry (s : State) : Host.Outcome State Fault Refusal := act Hw.holdoverExpiry s

def execTransceiverInsert (cage : Fin 4) (x : Transceiver) (s : State) : Host.Outcome State Fault Refusal := act (·.cageInsert cage x) s

def execTransceiverOverpower (cage : Fin 4) (s : State) : Host.Outcome State Fault Refusal := act (·.cageOverpower cage) s

def execTransceiverRemove (cage : Fin 4) (s : State) : Host.Outcome State Fault Refusal := act (·.cageRemove cage) s

def execEthLinkState (port : Fin 2) (up : Bool) (s : State) : Host.Outcome State Fault Refusal := act (·.ethLink port up) s

def execDatagramTransmit (port : Fin 2) (s : State) : Host.Outcome State Fault Refusal := act (·.datagramOut port) s

end Sys2Proof.Machine
end

