-- ==== Sys2Proof/Machine/PowerRows.lean ====
section
/-! DEFINITION. The commands of power, boot, resets, trips and Ember, and the samples (22, 07 R201, R211, R217). -/

namespace Sys2Proof.Machine

/-! ### The commands -/

def execPowerGood (railsOk selfCheckOk : Bool) (s : State) : Host.Outcome State Fault Refusal :=
  act (·.powerGood railsOk selfCheckOk) s

def execSupplyLoss (s : State) : Host.Outcome State Fault Refusal := act Hw.supplyLoss s

def execKindlingRetry (railsOk selfCheckOk : Bool) (s : State) : Host.Outcome State Fault Refusal :=
  act (·.bootRetry railsOk selfCheckOk) s

def execStewardStart (s : State) : Host.Outcome State Fault Refusal := act Hw.stewardStart s

def execStewardReady (failing : List Word) (s : State) : Host.Outcome State Fault Refusal :=
  act (·.stewardReady (failing.map BitVec.toNat)) s

def execRecoveryLoadCheck (s : State) : Host.Outcome State Fault Refusal := act Hw.rcvCheck s

def execSysRcvctl (v : Word) (s : State) : Host.Outcome State Fault Refusal := act (·.viaSys (·.rcvCtl .pf v)) s

def execSysRcvdata (v : Word) (s : State) : Host.Outcome State Fault Refusal := act (·.viaSys (·.rcvData .pf v)) s

def execHardarm (s : State) : Host.Outcome State Fault Refusal := act (·.viaSys (·.sysCtl .pf 0x100)) s

def execHardrst (s : State) : Host.Outcome State Fault Refusal := act (·.viaSys (·.sysCtl .pf 0x200)) s

def execHardarmLapse (s : State) : Host.Outcome State Fault Refusal := act Hw.hardarmLapse s

/-- WATCHDOG (R600). -/
def execWatchdog (s : State) : Host.Outcome State Fault Refusal :=
  act (fun h => if h.sys.stewardOn then h.hardReset 2 else h) s

/-- LOCKSTEP (R599). -/
def execLockstep (s : State) : Host.Outcome State Fault Refusal :=
  act (fun h => if h.sys.stewardOn then h.hardReset 3 else h) s

/-- HEARTBEAT (R600): every 1 ms while the command loop runs; it stops in KINDLING. -/
def execHeartbeat (s : State) : Host.Outcome State Fault Refusal :=
  act (fun h => if h.sys.stewardOn && !h.isState .kindling then
      { h.advanceTo ((h.now / ms 1 + 1) * ms 1) with sys.heartbeat := h.sys.heartbeat + 1 }
    else h) s

def execThermalTrip (s : State) : Host.Outcome State Fault Refusal := act Hw.thermalTrip s

def execPowerTrip (s : State) : Host.Outcome State Fault Refusal := act Hw.powerTrip s

def execSupplyTrip (s : State) : Host.Outcome State Fault Refusal := act Hw.supplyTrip s

def execTripack (s : State) : Host.Outcome State Fault Refusal := act (·.viaSys (·.sysCtl .pf 0x1)) s

def execTripclear (s : State) : Host.Outcome State Fault Refusal := act Hw.tripClear s

def execEmberEntryComplete (s : State) : Host.Outcome State Fault Refusal := act Hw.emberEntry s

def execEmberExitComplete (failing : List Word) (s : State) : Host.Outcome State Fault Refusal :=
  act (·.emberExit (failing.map BitVec.toNat)) s

/-- ENCODER_COUNTING_START (19 R522): 5 ms after power good. -/
def execEncoderCountingStart (s : State) : Host.Outcome State Fault Refusal :=
  act (fun h => if h.web.counting || h.isState .off then h
    else { h.advanceTo (h.sys.powerGoodAt + ms 5) with web.counting := true }) s

def execMeterSample (m : MeterReading) (s : State) : Host.Outcome State Fault Refusal := act (·.meterSample m) s

def execSensorSample (t : SensorReading) (s : State) : Host.Outcome State Fault Refusal := act (·.sensorSample t) s

end Sys2Proof.Machine
end

