-- ==== Sys2Proof/Machine/WinRows.lean ====
section
/-! DEFINITION. Window passes of Hedgerow and of the Privet head path: acceptance with its checks, starting, completion and the end
of a drain (14 R375 to R382, R390, R404, R405); and the commands of the line-rate channels. -/

namespace Sys2Proof.Machine

/-- The engine as a reader of operands; log agents 4 and 5 (R378). -/
def winFeed : Engine → Feed
  | .hdg => ⟨hdgCache, 4, true⟩
  | .prv => ⟨prvCache, 5, true⟩

/-- Source code of a completion signal (16 R458). -/
def winSource : Engine → Nat
  | .hdg => 5
  | .prv => 6

/-- Changes pipe `i` of an engine. -/
def Hw.modPipe (h : Hw) (e : Engine) (i : Nat) (f : Pipe → Pipe) : Hw :=
  let w := h.engine e
  h.setEngine e { w with pipes := modAt w.pipes i f }

/-- The context faults by a reason of its own: a translation fault, or poison (R378, 17 R472). -/
def Hw.winFault (h : Hw) (slot : Nat) : AccFail → Hw
  | .xlat r va => h.xlatCtxFault slot 0 r va
  | e => h.ctxFault slot 3 0 0 e.va

/-- STATUS is written into a descriptor; a failure of the write faults the context. -/
def Hw.writeStatus (h : Hw) (e : Engine) (p : Pass) (v : Word) : Hw × Bool :=
  match h.vaWrite (winFeed e).cache (winFeed e).agent p.slot (p.va + 124) (bytesOf 4 v.toNat) with
  | (h, none) => (h, true)
  | (h, some f) => (h.winFault p.slot f, false)

/-- A pass fails a step (R378). -/
def Hw.refusePass (h : Hw) (e : Engine) (p : Pass) (reason : Nat) : Hw :=
  let h := (h.writeStatus e p (faultStatus reason)).1
  let h := (h.winRecord e p.slot reason p.va).bump (Reg.winRefused e) 1
  h.ctxFault p.slot 6 0 0 0

/-- A pass has written its last output: STATUS, then DONE (R381). -/
def Hw.finishPass (h : Hw) (e : Engine) (p : Pass) (status : Word) : Hw :=
  let h := h.bump (Reg.winPasses e) 1
  match h.writeStatus e p status with
  | (h, true) =>
    let d := passDesc (e = .prv) p.words
    if d.doneEn then h.signal ⟨p.slot, winSource e⟩ d.done 1 else h
  | (h, false) => h

/-! ### Acceptance (R376 to R379) -/

/-- The position of the first waiting submission with queue room (R376). -/
def Hw.acceptable (h : Hw) (e : Engine) : Option Nat :=
  let w := h.engine e
  let lim := engineLimits e
  if lim.1 ≤ w.queue.length then none
  else firstIdx w.waiting (fun p => (w.queue.filter (fun q => q.slot = p.slot)).length < lim.2)

/-- What step 9 reads beyond the descriptor: ZAV, behind the block's 960 bytes. -/
def zavBytes (d : PassDesc) (q : QHead) : Nat := if d.conv && d.afmt = 1 && q.zach then d.cin else 0

/-- Operands translate in the order IN, W, Q, ACC, OUT (R377); the header of the quantisation block tells the length of Q. -/
def Hw.passPages (h : Hw) (e : Engine) (slot : Nat) (d : PassDesc) : Hw × Except FeedFail Prepared :=
  let g := winFeed e
  match h.feedRanges g slot [] [(d.inp, d.inBytes, false), (d.w, d.wBytes, false), (d.q, if d.conv then 960 else 0, false)] with
  | (h, .error x) => (h, .error x)
  | (h, .ok p) =>
    match h.feedRead g slot p d.q (if d.conv then 64 else 0) with
    | (h, .error va) => (h, .error (.poison va))
    | (h, .ok bs) =>
      let head := wordsOf bs (bs.length / 4)
      match h.feedRanges g slot p [(d.q + 960, zavBytes d (qHead head), false), (d.acc, d.accBytes, false),
          (d.out, d.outBytes, true)] with
      | (h, .error x) => (h, .error x)
      | (h, .ok p) => (h, .ok ⟨head, p⟩)

/-- Steps 5 to 10 of a pass with elements. -/
def Hw.checkPass (h : Hw) (e : Engine) (p : Pass) (d : PassDesc) (syncBad : Bool) : Hw :=
  if d.middle ≠ 0 then h.refusePass e p d.middle
  else if syncBad then h.refusePass e p 7
  else
    match h.passPages e p.slot d with
    | (h, .error (.reason r)) => h.refusePass e p r
    | (h, .error (.xlat r va)) => h.xlatCtxFault p.slot 0 r va
    | (h, .error (.poison va)) => h.ctxFault p.slot 3 0 0 va
    | (h, .ok x) =>
      if d.overlapBad then h.refusePass e p 8
      else
        let w := h.engine e
        h.setEngine e { w with queue := w.queue ++ [{ p with words := p.words ++ x.head, pages := x.pages }] }

/-- PASS_ACCEPT: the engine reads the descriptor of the first submission that has room, and checks it. -/
def Hw.acceptPass (h : Hw) (e : Engine) : Hw :=
  match h.acceptable e with
  | none => h
  | some i =>
    let w := h.engine e
    match w.waiting[i]? with
    | none => h
    | some p =>
      let h := h.setEngine e { w with waiting := w.waiting.eraseIdx i }
      match h.vaRead (winFeed e).cache (winFeed e).agent p.slot p.va 128 with
      | (h, _, some f) => h.winFault p.slot f
      | (h, bs, none) =>
        let p := { p with words := wordsOf bs 32 }
        let d := passDesc (e = .prv) p.words
        let syncBad := d.doneEn && !h.mayUse p.slot d.done
        if d.early ≠ 0 then h.refusePass e p d.early
        else if d.empty then
          if syncBad then h.refusePass e p 7 else h.finishPass e p (BitVec.ofNat 32 (2 ^ 31))
        else h.checkPass e p d syncBad

/-! ### Starting (R380, R383, R385) -/

/-- Passes of an engine that have not completed. -/
def WinEngine.open_ (w : WinEngine) : List Pass := w.waiting ++ w.queue ++ w.pipes.filterMap (·.pass)

/-- Whether the fence of a pass holds it (R380). -/
def WinEngine.fenced (w : WinEngine) (prv : Bool) (p : Pass) : Bool :=
  (passDesc prv p.words).fence && w.open_.any (fun q => q.core = p.core && q.order < p.order)

/-- The position in the queue of the pass that starts next (R380): one of a C0 job before the others. -/
def WinEngine.nextPass (w : WinEngine) (prv : Bool) : Option Nat :=
  match firstIdx w.queue (fun p => p.cls = 0 && !w.fenced prv p) with
  | some i => some i
  | none => firstIdx w.queue (fun p => !w.fenced prv p)

/-- The lowest free pipe. -/
def WinEngine.freePipe (w : WinEngine) : Option Nat := firstIdx w.pipes (fun x => x.pass.isNone && x.drain.isNone)

/-- Reads rows of one plane. -/
def Hw.planeRows (h : Hw) (g : Feed) (slot : Nat) (pages : Tbl Nat) (va row count size : Nat) :
    List Nat → Hw × Except Nat (List (Array Int))
  | [] => (h, .ok [])
  | y :: t => feedThen (h.feedRead g slot pages (va + y * row) (count * size)) (fun h bs =>
      feedThen (h.planeRows g slot pages va row count size t) (fun h rest =>
        (h, .ok (((elems size bs count).map (signed (8 * size))).toArray :: rest))))

/-- Reads planes: `n` of `rows` rows of `count` elements. -/
def Hw.planes (h : Hw) (g : Feed) (slot : Nat) (pages : Tbl Nat) (va plane row rows count size : Nat) :
    List Nat → Hw × Except Nat (List (Array (Array Int)))
  | [] => (h, .ok [])
  | c :: t => feedThen (h.planeRows g slot pages (va + c * plane) row count size (List.range rows)) (fun h p =>
      feedThen (h.planes g slot pages va plane row rows count size t) (fun h rest => (h, .ok (p.toArray :: rest))))

/-- Zero points by channel: 0 for INT16, else ZAV or ZA. -/
def zeroPoints (d : PassDesc) (q : QHead) (zav : List Byte) : List Int :=
  if d.afmt = 4 then [] else if q.zach then zav.map BitVec.toInt else List.replicate d.cin q.za

/-- The operands of a pass. -/
def Hw.passData (h : Hw) (e : Engine) (p : Pass) (d : PassDesc) : Hw × Except Nat PassData :=
  let g := winFeed e
  let q := qHead (p.words.drop 32)
  let near := min d.cout 128
  let rd (h : Hw) (va n : Nat) := h.feedRead g p.slot p.pages va n
  feedThen (h.planes g p.slot p.pages d.inp d.inPlane d.inRow d.ih d.iw d.es (List.range d.cin)) fun h inp =>
  feedThen (rd h d.w d.wBytes) fun h w =>
  feedThen (rd h (d.q + 0x40) (if d.conv then 2 * near else 0)) fun h sw =>
  feedThen (rd h (d.q + 0x140) (if d.conv && d.bias then 4 * near else 0)) fun h bias =>
  feedThen (rd h (d.q + 0x340) (if d.conv && q.zoch then near else 0)) fun h zov =>
  feedThen (rd h (d.q + 960) (zavBytes d q)) fun h zav =>
  feedThen (h.planes g p.slot p.pages d.acc d.accPlane d.accRow d.oh d.ow 4 (List.range (if d.accum then d.cout else 0))) fun h acc =>
  (h, .ok { inp := inp.toArray, w := ((elems d.es w (w.length / d.es)).map (signed (8 * d.es))).toArray
            za := zeroPoints d q zav, acc := acc.toArray, q := q, sw := elems 2 sw (sw.length / 2)
            bias := wordsOf bias (bias.length / 4), zov := zov.map BitVec.toInt })

/-- The writes of a pass that starts at `t`: one cycle is 1 ns. -/
def passWrites (d : PassDesc) (pages : Tbl Nat) (t : Nat) (rows : List (Nat × Nat × Nat × List Byte)) :
    List (Nat × Nat × List Byte) :=
  rows.flatMap (fun r =>
    (pieces pages (d.out + r.2.1 * d.outPlane + r.2.2.1 * d.outRow) r.2.2.2 (r.2.2.2.length / 4096 + 2)).map
      (fun x => (t + r.1, x.1, x.2)))

/-- STATUS of a pass that ran (R404). -/
def passStatus (pipe : Nat) (sat : Bool) (amaxe : Nat) : Word := BitVec.ofNat 32 (2 ^ 31 + sat.toNat * 2 ^ 23 + pipe * 2 ^ 10 + amaxe)

/-- PASS_START (R380): the next pass starts on the lowest free pipe. -/
def Hw.startPass (h : Hw) (e : Engine) : Hw :=
  let w := h.engine e
  match w.freePipe, w.nextPass (e = .prv) with
  | some i, some k =>
    match w.queue[k]? with
    | none => h
    | some p =>
      let h := h.setEngine e { w with queue := w.queue.eraseIdx k }
      let d := passDesc (e = .prv) p.words
      match h.passData e p d with
      | (h, .error va) => h.ctxFault p.slot 3 0 0 va
      | (h, .ok x) =>
        let r := x.run d
        h.modPipe e i (fun y => { y with
          pass := some p, startAt := h.now, cycles := d.cycles, rows := passWrites d p.pages h.now r.1
          status := passStatus i r.2.1 r.2.2 })
  | _, _ => h

/-! ### Completion (R381) -/

/-- PASS_COMPLETE: the pass in hand on pipe `i` ends after `stall` stalled cycles (R388). -/
def Hw.completePass (h : Hw) (e : Engine) (i stall : Nat) : Hw :=
  match (h.engine e).pipes[i]? with
  | none => h
  | some x =>
    match x.pass with
    | none => h
    | some p =>
      let h := h.advanceTo (x.startAt + x.cycles + stall)
      let h := x.rows.foldl (fun (h : Hw) w => h.placeWrite (winFeed e).agent p.slot w.2.1 w.2.2) h
      let h := h.modPipe e i (fun y => { y with
        pass := none, rows := [], busy := y.busy + BitVec.ofNat 64 (x.cycles + stall), stall := y.stall + BitVec.ofNat 64 stall })
      h.finishPass e p x.status

/-! ### The commands -/

def execPassAccept (e : Engine) (s : State) : Host.Outcome State Fault Refusal := act (·.acceptPass e) s

def execPassStart (e : Engine) (s : State) : Host.Outcome State Fault Refusal := act (·.startPass e) s

def execPassComplete (e : Engine) (pipe : Fin 4) (stall : Nat) (s : State) : Host.Outcome State Fault Refusal :=
  act (·.completePass e pipe stall) s

/-- PASS_DRAIN_END (R390): the row segment of an ended pass has finished. -/
def execPassDrainEnd (e : Engine) (pipe : Fin 4) (s : State) : Host.Outcome State Fault Refusal :=
  act (·.modPipe e pipe (fun x => { x with drain := none })) s

def execLineRateReload (n : Fin 4) (s : State) : Host.Outcome State Fault Refusal := act (·.lineReload n) s

def execLineRateLine (n : Fin 4) (s : State) : Host.Outcome State Fault Refusal := act (·.lineTake n) s

def execFrameEntry (n : Fin 4) (s : State) : Host.Outcome State Fault Refusal := act (·.lineClose n) s

end Sys2Proof.Machine
end

