-- ==== Sys2Proof/Machine/Dispatch.lean ====
section
/-! DEFINITION. The meaning of every command: one arm per constructor, one direct call per arm. -/

namespace Sys2Proof.Machine

def exec (i : Instr) (s : State) : Host.Outcome State Fault Refusal :=
  match i with
  | .powerGood railsOk selfCheckOk => Sys2Proof.Machine.execPowerGood railsOk selfCheckOk s
  | .supplyLoss => Sys2Proof.Machine.execSupplyLoss s
  | .kindlingRetry railsOk selfCheckOk => Sys2Proof.Machine.execKindlingRetry railsOk selfCheckOk s
  | .stewardReady failing => Sys2Proof.Machine.execStewardReady failing s
  | .recoveryLoadCheck => Sys2Proof.Machine.execRecoveryLoadCheck s
  | .sysRcvctl v => Sys2Proof.Machine.execSysRcvctl v s
  | .sysRcvdata v => Sys2Proof.Machine.execSysRcvdata v s
  | .hardarm => Sys2Proof.Machine.execHardarm s
  | .hardrst => Sys2Proof.Machine.execHardrst s
  | .hardarmLapse => Sys2Proof.Machine.execHardarmLapse s
  | .watchdog => Sys2Proof.Machine.execWatchdog s
  | .lockstep => Sys2Proof.Machine.execLockstep s
  | .heartbeat => Sys2Proof.Machine.execHeartbeat s
  | .thermalTrip => Sys2Proof.Machine.execThermalTrip s
  | .powerTrip => Sys2Proof.Machine.execPowerTrip s
  | .supplyTrip => Sys2Proof.Machine.execSupplyTrip s
  | .tripack => Sys2Proof.Machine.execTripack s
  | .tripclear => Sys2Proof.Machine.execTripclear s
  | .emberEntryComplete => Sys2Proof.Machine.execEmberEntryComplete s
  | .emberExitComplete failing => Sys2Proof.Machine.execEmberExitComplete failing s
  | .encoderEdge e a b => Sys2Proof.Machine.execEncoderEdge e a b s
  | .filteredInputEdge ix level => Sys2Proof.Machine.execFilteredInputEdge ix level s
  | .timerPeriodExpiry => Sys2Proof.Machine.execTimerPeriodExpiry s
  | .ptpPhaseMatch => Sys2Proof.Machine.execPtpPhaseMatch s
  | .stallTick => Sys2Proof.Machine.execStallTick s
  | .srclostTick => Sys2Proof.Machine.execSrclostTick s
  | .tick => Sys2Proof.Machine.execTick s
  | .dvfsRailSettled => Sys2Proof.Machine.execDvfsRailSettled s
  | .frameTail => Sys2Proof.Machine.execFrameTail s
  | .pstaticIdleUpdate => Sys2Proof.Machine.execPstaticIdleUpdate s
  | .meterSample m => Sys2Proof.Machine.execMeterSample m s
  | .sensorSample t => Sys2Proof.Machine.execSensorSample t s
  | .unitWakeReady u => Sys2Proof.Machine.execUnitWakeReady u s
  | .cmdTail src v => Sys2Proof.Machine.execCmdTail src v s
  | .cmdChead src v => Sys2Proof.Machine.execCmdChead src v s
  | .cmdFctl src v => Sys2Proof.Machine.execCmdFctl src v s
  | .fetcherrClear src => Sys2Proof.Machine.execFetcherrClear src s
  | .ringFetchFail ring addr kind => Sys2Proof.Machine.execRingFetchFail ring addr kind s
  | .managementDatagram port ip udp p => Sys2Proof.Machine.execManagementDatagram port ip udp p s
  | .nop ring p => Sys2Proof.Machine.execNop ring p s
  | .queryModule ring p => Sys2Proof.Machine.execQueryModule ring p s
  | .moduleState ring p => Sys2Proof.Machine.execModuleState ring p s
  | .frameConfig ring p => Sys2Proof.Machine.execFrameConfig ring p s
  | .frameControl ring p => Sys2Proof.Machine.execFrameControl ring p s
  | .netConfig ring p => Sys2Proof.Machine.execNetConfig ring p s
  | .ptpConfig ring p => Sys2Proof.Machine.execPtpConfig ring p s
  | .ctxCreate ring p => Sys2Proof.Machine.execCtxCreate ring p s
  | .ctxDestroy ring p => Sys2Proof.Machine.execCtxDestroy ring p s
  | .ctxReset ring p => Sys2Proof.Machine.execCtxReset ring p s
  | .ctxResetComplete slot => Sys2Proof.Machine.execCtxResetComplete slot s
  | .ctxQuery ring p => Sys2Proof.Machine.execCtxQuery ring p s
  | .ctxRun ring p => Sys2Proof.Machine.execCtxRun ring p s
  | .ctxSetPolicy ring p => Sys2Proof.Machine.execCtxSetPolicy ring p s
  | .atuMap ring p => Sys2Proof.Machine.execAtuMap ring p s
  | .atuUnmap ring p => Sys2Proof.Machine.execAtuUnmap ring p s
  | .atuInvalidate ring p => Sys2Proof.Machine.execAtuInvalidate ring p s
  | .synAlloc ring p => Sys2Proof.Machine.execSynAlloc ring p s
  | .synFree ring p => Sys2Proof.Machine.execSynFree ring p s
  | .synSignal ring p => Sys2Proof.Machine.execSynSignal ring p s
  | .synWait ring p => Sys2Proof.Machine.execSynWait ring p s
  | .synWaitTimeout ring => Sys2Proof.Machine.execSynWaitTimeout ring s
  | .mbxOpen ring p => Sys2Proof.Machine.execMbxOpen ring p s
  | .mbxClose ring p => Sys2Proof.Machine.execMbxClose ring p s
  | .jobDefine ring p => Sys2Proof.Machine.execJobDefine ring p s
  | .jobRemove ring p => Sys2Proof.Machine.execJobRemove ring p s
  | .colSetCap ring p => Sys2Proof.Machine.execColSetCap ring p s
  | .colQuery ring p => Sys2Proof.Machine.execColQuery ring p s
  | .swapArm ring p => Sys2Proof.Machine.execSwapArm ring p s
  | .swapCancel ring p => Sys2Proof.Machine.execSwapCancel ring p s
  | .swapStatus ring p => Sys2Proof.Machine.execSwapStatus ring p s
  | .regStage ring p => Sys2Proof.Machine.execRegStage ring p s
  | .progLoad ring p => Sys2Proof.Machine.execProgLoad ring p s
  | .modelLoad ring p => Sys2Proof.Machine.execModelLoad ring p s
  | .modelUnbind ring p => Sys2Proof.Machine.execModelUnbind ring p s
  | .dmaAlloc ring p => Sys2Proof.Machine.execDmaAlloc ring p s
  | .dmaFree ring p => Sys2Proof.Machine.execDmaFree ring p s
  | .dmaStart ring p => Sys2Proof.Machine.execDmaStart ring p s
  | .dmaKick ring p => Sys2Proof.Machine.execDmaKick ring p s
  | .dmaStop ring p => Sys2Proof.Machine.execDmaStop ring p s
  | .cxpConfig ring p => Sys2Proof.Machine.execCxpConfig ring p s
  | .cxpPower ring p det => Sys2Proof.Machine.execCxpPower ring p det s
  | .cxpCtrl ring p => Sys2Proof.Machine.execCxpCtrl ring p s
  | .cxpCtrlTimeout port => Sys2Proof.Machine.execCxpCtrlTimeout port s
  | .webEncConfig ring p => Sys2Proof.Machine.execWebEncConfig ring p s
  | .webOutBind ring p => Sys2Proof.Machine.execWebOutBind ring p s
  | .webOutRule ring p => Sys2Proof.Machine.execWebOutRule ring p s
  | .webOutForce ring p => Sys2Proof.Machine.execWebOutForce ring p s
  | .forceDurationEnd o => Sys2Proof.Machine.execForceDurationEnd o s
  | .cpcReport ring p => Sys2Proof.Machine.execCpcReport ring p s
  | .cpcPolicy ring p => Sys2Proof.Machine.execCpcPolicy ring p s
  | .domainJoin ring p => Sys2Proof.Machine.execDomainJoin ring p s
  | .domainAlone => Sys2Proof.Machine.execDomainAlone s
  | .domainLeave ring p => Sys2Proof.Machine.execDomainLeave ring p s
  | .domainSwapArm ring p => Sys2Proof.Machine.execDomainSwapArm ring p s
  | .domainStatus ring p => Sys2Proof.Machine.execDomainStatus ring p s
  | .logRead ring p => Sys2Proof.Machine.execLogRead ring p s
  | .frmCtlStart => Sys2Proof.Machine.execFrmCtlStart s
  | .frmCtlStop => Sys2Proof.Machine.execFrmCtlStop s
  | .registerWrite a v => Sys2Proof.Machine.execRegisterWrite a v s
  | .sysRegerr => Sys2Proof.Machine.execSysRegerr s
  | .webPosset e v => Sys2Proof.Machine.execWebPosset e v s
  | .ftcDbgctlGo c => Sys2Proof.Machine.execFtcDbgctlGo c s
  | .ftcDbgctlStep c => Sys2Proof.Machine.execFtcDbgctlStep c s
  | .ftcDbgctlHalt c => Sys2Proof.Machine.execFtcDbgctlHalt c s
  | .nopShort loc => Sys2Proof.Machine.execNopShort loc s
  | .halt loc => Sys2Proof.Machine.execHalt loc s
  | .add loc d a b => Sys2Proof.Machine.execAdd loc d a b s
  | .sub loc d a b => Sys2Proof.Machine.execSub loc d a b s
  | .and loc d a b => Sys2Proof.Machine.execAnd loc d a b s
  | .or loc d a b => Sys2Proof.Machine.execOr loc d a b s
  | .xor loc d a b => Sys2Proof.Machine.execXor loc d a b s
  | .mov loc d a => Sys2Proof.Machine.execMov loc d a s
  | .mul loc d a b => Sys2Proof.Machine.execMul loc d a b s
  | .min loc d a b => Sys2Proof.Machine.execMin loc d a b s
  | .max loc d a b => Sys2Proof.Machine.execMax loc d a b s
  | .adds loc d a b => Sys2Proof.Machine.execAdds loc d a b s
  | .subs loc d a b => Sys2Proof.Machine.execSubs loc d a b s
  | .shl loc d a b => Sys2Proof.Machine.execShl loc d a b s
  | .shr loc d a b => Sys2Proof.Machine.execShr loc d a b s
  | .shru loc d a b => Sys2Proof.Machine.execShru loc d a b s
  | .addi loc d imm => Sys2Proof.Machine.execAddi loc d imm s
  | .movi loc d imm => Sys2Proof.Machine.execMovi loc d imm s
  | .andi loc d imm => Sys2Proof.Machine.execAndi loc d imm s
  | .ori loc d imm => Sys2Proof.Machine.execOri loc d imm s
  | .xori loc d imm => Sys2Proof.Machine.execXori loc d imm s
  | .shli loc d n => Sys2Proof.Machine.execShli loc d n s
  | .shri loc d n => Sys2Proof.Machine.execShri loc d n s
  | .shrui loc d n => Sys2Proof.Machine.execShrui loc d n s
  | .cmpeq loc pd a b => Sys2Proof.Machine.execCmpeq loc pd a b s
  | .cmpne loc pd a b => Sys2Proof.Machine.execCmpne loc pd a b s
  | .cmplt loc pd a b => Sys2Proof.Machine.execCmplt loc pd a b s
  | .cmple loc pd a b => Sys2Proof.Machine.execCmple loc pd a b s
  | .cmpltu loc pd a b => Sys2Proof.Machine.execCmpltu loc pd a b s
  | .cmpleu loc pd a b => Sys2Proof.Machine.execCmpleu loc pd a b s
  | .cmpeqi loc pd a imm => Sys2Proof.Machine.execCmpeqi loc pd a imm s
  | .cmplti loc pd a imm => Sys2Proof.Machine.execCmplti loc pd a imm s
  | .pand loc pd pa pb => Sys2Proof.Machine.execPand loc pd pa pb s
  | .por loc pd pa pb => Sys2Proof.Machine.execPor loc pd pa pb s
  | .pnot loc pd pa => Sys2Proof.Machine.execPnot loc pd pa s
  | .br loc off => Sys2Proof.Machine.execBr loc off s
  | .call loc off => Sys2Proof.Machine.execCall loc off s
  | .jr loc a => Sys2Proof.Machine.execJr loc a s
  | .loop loc l sc off => Sys2Proof.Machine.execLoop loc l sc off s
  | .loopi loc l n off => Sys2Proof.Machine.execLoopi loc l n off s
  | .lbrk loc l => Sys2Proof.Machine.execLbrk loc l s
  | .movLLr loc sel sr => Sys2Proof.Machine.execMovLLr loc sel sr s
  | .movLSd loc sel sr => Sys2Proof.Machine.execMovLSd loc sel sr s
  | .movcR loc sr c => Sys2Proof.Machine.execMovcR loc sr c s
  | .movcW loc sr c => Sys2Proof.Machine.execMovcW loc sr c s
  | .csync loc => Sys2Proof.Machine.execCsync loc s
  | .pmsync loc => Sys2Proof.Machine.execPmsync loc s
  | .rti loc => Sys2Proof.Machine.execRti loc s
  | .rtt loc => Sys2Proof.Machine.execRtt loc s
  | .brk loc n => Sys2Proof.Machine.execBrk loc n s
  | .vgate loc => Sys2Proof.Machine.execVgate loc s
  | .vectorUnitWake c => Sys2Proof.Machine.execVectorUnitWake c s
  | .sint loc n => Sys2Proof.Machine.execSint loc n s
  | .ldB loc sr m => Sys2Proof.Machine.execLdB loc sr m s
  | .ldBu loc sr m => Sys2Proof.Machine.execLdBu loc sr m s
  | .ldH loc sr m => Sys2Proof.Machine.execLdH loc sr m s
  | .ldHu loc sr m => Sys2Proof.Machine.execLdHu loc sr m s
  | .ldW loc sr m => Sys2Proof.Machine.execLdW loc sr m s
  | .stB loc sr m => Sys2Proof.Machine.execStB loc sr m s
  | .stH loc sr m => Sys2Proof.Machine.execStH loc sr m s
  | .stW loc sr m => Sys2Proof.Machine.execStW loc sr m s
  | .adda loc g x => Sys2Proof.Machine.execAdda loc g x s
  | .movG loc g sr => Sys2Proof.Machine.execMovG loc g sr s
  | .movS loc sr g => Sys2Proof.Machine.execMovS loc sr g s
  | .movM loc m sr => Sys2Proof.Machine.execMovM loc m sr s
  | .bqIssue loc tag s1 s2 => Sys2Proof.Machine.execBqIssue loc tag s1 s2 s
  | .bqPoll loc d tag => Sys2Proof.Machine.execBqPoll loc d tag s
  | .bqWait loc d tag => Sys2Proof.Machine.execBqWait loc d tag s
  | .bqStat loc d tag => Sys2Proof.Machine.execBqStat loc d tag s
  | .synSig loc sa sb => Sys2Proof.Machine.execSynSig loc sa sb s
  | .synWaitInstr loc sa sb => Sys2Proof.Machine.execSynWaitInstr loc sa sb s
  | .synArm loc sa sb => Sys2Proof.Machine.execSynArm loc sa sb s
  | .mac loc x => Sys2Proof.Machine.execMac loc x s
  | .msu loc x => Sys2Proof.Machine.execMsu loc x s
  | .mpy loc x => Sys2Proof.Machine.execMpy loc x s
  | .macR loc acc a b => Sys2Proof.Machine.execMacR loc acc a b s
  | .msuR loc acc a b => Sys2Proof.Machine.execMsuR loc acc a b s
  | .mpyR loc acc a b => Sys2Proof.Machine.execMpyR loc acc a b s
  | .satA loc d acc n => Sys2Proof.Machine.execSatA loc d acc n s
  | .movA loc acc a => Sys2Proof.Machine.execMovA loc acc a s
  | .addacc loc an am => Sys2Proof.Machine.execAddacc loc an am s
  | .subacc loc an am => Sys2Proof.Machine.execSubacc loc an am s
  | .shla loc acc imm => Sys2Proof.Machine.execShla loc acc imm s
  | .clr loc acc => Sys2Proof.Machine.execClr loc acc s
  | .vaddH loc d a b => Sys2Proof.Machine.execVaddH loc d a b s
  | .vsubH loc d a b => Sys2Proof.Machine.execVsubH loc d a b s
  | .vaddsH loc d a b => Sys2Proof.Machine.execVaddsH loc d a b s
  | .vsubsH loc d a b => Sys2Proof.Machine.execVsubsH loc d a b s
  | .vmulH loc d a b => Sys2Proof.Machine.execVmulH loc d a b s
  | .vminH loc d a b => Sys2Proof.Machine.execVminH loc d a b s
  | .vmaxH loc d a b => Sys2Proof.Machine.execVmaxH loc d a b s
  | .vand loc d a b => Sys2Proof.Machine.execVand loc d a b s
  | .vor loc d a b => Sys2Proof.Machine.execVor loc d a b s
  | .vxor loc d a b => Sys2Proof.Machine.execVxor loc d a b s
  | .vaddB loc d a b => Sys2Proof.Machine.execVaddB loc d a b s
  | .vaddsB loc d a b => Sys2Proof.Machine.execVaddsB loc d a b s
  | .vaddHM loc d b k z => Sys2Proof.Machine.execVaddHM loc d b k z s
  | .vsubHM loc d b k z => Sys2Proof.Machine.execVsubHM loc d b k z s
  | .vaddsHM loc d b k z => Sys2Proof.Machine.execVaddsHM loc d b k z s
  | .vmulHM loc d b k z => Sys2Proof.Machine.execVmulHM loc d b k z s
  | .vmovM loc d b k z => Sys2Proof.Machine.execVmovM loc d b k z s
  | .vmov loc d a => Sys2Proof.Machine.execVmov loc d a s
  | .vshlH loc d a n => Sys2Proof.Machine.execVshlH loc d a n s
  | .vshrH loc d a n => Sys2Proof.Machine.execVshrH loc d a n s
  | .vshrrH loc d a n => Sys2Proof.Machine.execVshrrH loc d a n s
  | .vmacH loc w a b => Sys2Proof.Machine.execVmacH loc w a b s
  | .vmsuH loc w a b => Sys2Proof.Machine.execVmsuH loc w a b s
  | .vmpyH loc w a b => Sys2Proof.Machine.execVmpyH loc w a b s
  | .vclr loc w => Sys2Proof.Machine.execVclr loc w s
  | .vnarrow loc d w n => Sys2Proof.Machine.execVnarrow loc d w n s
  | .vcmpeqH loc k a b => Sys2Proof.Machine.execVcmpeqH loc k a b s
  | .vcmpltH loc k a b => Sys2Proof.Machine.execVcmpltH loc k a b s
  | .vcmpleH loc k a b => Sys2Proof.Machine.execVcmpleH loc k a b s
  | .kand loc kd ka kb => Sys2Proof.Machine.execKand loc kd ka kb s
  | .kor loc kd ka kb => Sys2Proof.Machine.execKor loc kd ka kb s
  | .knot loc kd ka => Sys2Proof.Machine.execKnot loc kd ka s
  | .vbcast loc d a => Sys2Proof.Machine.execVbcast loc d a s
  | .vext loc d a b => Sys2Proof.Machine.execVext loc d a b s
  | .vld loc v m upto => Sys2Proof.Machine.execVld loc v m upto s
  | .vst loc v m upto => Sys2Proof.Machine.execVst loc v m upto s
  | .vgatherH loc v vi g upto => Sys2Proof.Machine.execVgatherH loc v vi g upto s
  | .vscatterH loc v vi g upto => Sys2Proof.Machine.execVscatterH loc v vi g upto s
  | .vrmwAddH loc v vi g upto => Sys2Proof.Machine.execVrmwAddH loc v vi g upto s
  | .vredsumH loc d a upto => Sys2Proof.Machine.execVredsumH loc d a upto s
  | .vredminH loc d a upto => Sys2Proof.Machine.execVredminH loc d a upto s
  | .vredmaxH loc d a upto => Sys2Proof.Machine.execVredmaxH loc d a upto s
  | .vminidxH loc d a upto => Sys2Proof.Machine.execVminidxH loc d a upto s
  | .vmaxidxH loc d a upto => Sys2Proof.Machine.execVmaxidxH loc d a upto s
  | .vsminIdx loc d a upto => Sys2Proof.Machine.execVsminIdx loc d a upto s
  | .vsmaxIdx loc d a upto => Sys2Proof.Machine.execVsmaxIdx loc d a upto s
  | .interruptNormalEntry c forced => Sys2Proof.Machine.execInterruptNormalEntry c forced s
  | .interruptFastEntry c forced => Sys2Proof.Machine.execInterruptFastEntry c forced s
  | .ftcTimerMatch c => Sys2Proof.Machine.execFtcTimerMatch c s
  | .bstCommandEntry c => Sys2Proof.Machine.execBstCommandEntry c s
  | .bstCommandStart a => Sys2Proof.Machine.execBstCommandStart a s
  | .narrowRunEnd a stall => Sys2Proof.Machine.execNarrowRunEnd a stall s
  | .widenDecision a => Sys2Proof.Machine.execWidenDecision a s
  | .bstCommandComplete a => Sys2Proof.Machine.execBstCommandComplete a s
  | .bstDrainEnd a => Sys2Proof.Machine.execBstDrainEnd a s
  | .hdgSubmit src v => Sys2Proof.Machine.execHdgSubmit src v s
  | .prvSubmit src v => Sys2Proof.Machine.execPrvSubmit src v s
  | .passAccept e => Sys2Proof.Machine.execPassAccept e s
  | .passStart e => Sys2Proof.Machine.execPassStart e s
  | .passComplete e pipe stall => Sys2Proof.Machine.execPassComplete e pipe stall s
  | .passDrainEnd e pipe => Sys2Proof.Machine.execPassDrainEnd e pipe s
  | .lineRateReload n => Sys2Proof.Machine.execLineRateReload n s
  | .lineRateLine n => Sys2Proof.Machine.execLineRateLine n s
  | .frameEntry n => Sys2Proof.Machine.execFrameEntry n s
  | .descriptorFetch n => Sys2Proof.Machine.execDescriptorFetch n s
  | .dmaBurstGrant n => Sys2Proof.Machine.execDmaBurstGrant n s
  | .dmaBeat e => Sys2Proof.Machine.execDmaBeat e s
  | .descriptorComplete n => Sys2Proof.Machine.execDescriptorComplete n s
  | .dmaKickWrite src n => Sys2Proof.Machine.execDmaKickWrite src n s
  | .signal f page v => Sys2Proof.Machine.execSignal f page v s
  | .vbase f page v => Sys2Proof.Machine.execVbase f page v s
  | .synCtl src n v => Sys2Proof.Machine.execSynCtl src n v s
  | .word c ch d v => Sys2Proof.Machine.execWord c ch d v s
  | .noticeDelivery ch => Sys2Proof.Machine.execNoticeDelivery ch s
  | .db c ch v => Sys2Proof.Machine.execDb c ch v s
  | .mask c ch v => Sys2Proof.Machine.execMask c ch v s
  | .lineDelivery m line => Sys2Proof.Machine.execLineDelivery m line s
  | .cxpLinkLost m => Sys2Proof.Machine.execCxpLinkLost m s
  | .pocxpOverload p short => Sys2Proof.Machine.execPocxpOverload p short s
  | .webVpost src v => Sys2Proof.Machine.execWebVpost src v s
  | .outputPulseStart o => Sys2Proof.Machine.execOutputPulseStart o s
  | .outputPulseEnd o => Sys2Proof.Machine.execOutputPulseEnd o s
  | .scrubIdleItem => Sys2Proof.Machine.execScrubIdleItem s
  | .scrubItem => Sys2Proof.Machine.execScrubItem s
  | .odcntRead n => Sys2Proof.Machine.execOdcntRead n s
  | .coppiceTest unit failing => Sys2Proof.Machine.execCoppiceTest unit failing s
  | .datapathCheckFail unit => Sys2Proof.Machine.execDatapathCheckFail unit s
  | .sramBankCopyDone bank => Sys2Proof.Machine.execSramBankCopyDone bank s
  | .fieldMapWrite => Sys2Proof.Machine.execFieldMapWrite s
  | .ethFrameReceive port f => Sys2Proof.Machine.execEthFrameReceive port f s
  | .ptpSync port offset mpd ppb => Sys2Proof.Machine.execPtpSync port offset mpd ppb s
  | .ptpSyncTransmit port => Sys2Proof.Machine.execPtpSyncTransmit port s
  | .masterlost => Sys2Proof.Machine.execMasterlost s
  | .holdoverExpiry => Sys2Proof.Machine.execHoldoverExpiry s
  | .transceiverInsert cage x => Sys2Proof.Machine.execTransceiverInsert cage x s
  | .transceiverOverpower cage => Sys2Proof.Machine.execTransceiverOverpower cage s
  | .linkTrain k t => Sys2Proof.Machine.execLinkTrain k t s
  | .linkTrainRetry k => Sys2Proof.Machine.execLinkTrainRetry k s
  | .linkDown k => Sys2Proof.Machine.execLinkDown k s
  | .linkDelayMeasure k delay => Sys2Proof.Machine.execLinkDelayMeasure k delay s
  | .linkFrameReceive k f => Sys2Proof.Machine.execLinkFrameReceive k f s
  | .nak k seq => Sys2Proof.Machine.execNak k seq s
  | .idle k recv => Sys2Proof.Machine.execIdle k recv s
  | .route k recv => Sys2Proof.Machine.execRoute k recv s
  | .join k => Sys2Proof.Machine.execJoin k s
  | .tickFrame k => Sys2Proof.Machine.execTickFrame k s
  | .domainTickFire => Sys2Proof.Machine.execDomainTickFire s
  | .leaderTickEmit => Sys2Proof.Machine.execLeaderTickEmit s
  | .catchUpTick => Sys2Proof.Machine.execCatchUpTick s
  | .beacon k => Sys2Proof.Machine.execBeacon k s
  | .leaderLost => Sys2Proof.Machine.execLeaderLost s
  | .syncOp k => Sys2Proof.Machine.execSyncOp k s
  | .remoteWaitTimeout w => Sys2Proof.Machine.execRemoteWaitTimeout w s
  | .configRequest r => Sys2Proof.Machine.execConfigRequest r s
  | .bar4Access r => Sys2Proof.Machine.execBar4Access r s
  | .hostReadCompletion f addr r => Sys2Proof.Machine.execHostReadCompletion f addr r s
  | .completionTimeout f addr len => Sys2Proof.Machine.execCompletionTimeout f addr len s
  | .busMasterEnable f => Sys2Proof.Machine.execBusMasterEnable f s
  | .msixUnmask f what => Sys2Proof.Machine.execMsixUnmask f what s
  | .hostReset => Sys2Proof.Machine.execHostReset s
  | .flr f => Sys2Proof.Machine.execFlr f s
  | .flrConfigRestored f => Sys2Proof.Machine.execFlrConfigRestored f s
  | .pcieLinkUp speed width => Sys2Proof.Machine.execPcieLinkUp speed width s
  | .registerRead a => Sys2Proof.Machine.execRegisterRead a s
  | .cxpPacketReceive m x => Sys2Proof.Machine.execCxpPacketReceive m x s
  | .cxpCameraAnswer p x => Sys2Proof.Machine.execCxpCameraAnswer p x s
  | .transceiverRemove cage => Sys2Proof.Machine.execTransceiverRemove cage s
  | .ethLinkState port up => Sys2Proof.Machine.execEthLinkState port up s
  | .datagramTransmit port => Sys2Proof.Machine.execDatagramTransmit port s
  | .encoderCountingStart => Sys2Proof.Machine.execEncoderCountingStart s
  | .stewardStart => Sys2Proof.Machine.execStewardStart s

end Sys2Proof.Machine
end

