-- ==== Sys2Proof/Safety.lean ====
section
/-! DEFINITION. The conditions in whose terms the statements speak: what an undisturbed command finds. Each is decidable, so that a
concrete state can be shown to meet it. -/

namespace Sys2Proof.Safety

open Sys2Proof.Machine

/-- No core has a bundle that stalls, so a command lets no bundle go on when it ends (08 R231, 10 R292). -/
def calm (h : Hw) : Bool := (List.range 18).all (fun c => (h.core c).stall.isNone)

/-- The granules that hold `n` bytes of a core's window from offset `o` have no memory error (17 R466). -/
def clean (h : Hw) (c o n : Nat) : Bool := (granules (coreWindow c + o) n).all (fun g => decide (h.gran g = .clean))

/-- The guard of an instruction holds (09 R253): a short instruction is unguarded or guarded by p1. -/
def guardHolds (k : Core) (loc : At) (long : Bool) : Bool :=
  if long then k.getP loc.guard = !loc.neg else loc.guard = 0 || k.getP 1

/-- Core `loc.core` is at a bundle boundary, in a run, and its next bundle is the one instruction of the command, whose length
is that of its form; the bundle ends within program memory and is fetched without a memory error. -/
def atBoundary (h : Hw) (loc : At) (long : Bool) : Bool :=
  let k := h.core loc.core
  let n := if long then 2 else 1
  loc.stop && k.running && k.slots.isEmpty && k.vrun.isNone && calm h && decide (k.pc.toNat + n ≤ 65536) &&
    clean h loc.core (0x40000 + 2 * k.pc.toNat) (2 * n)

/-- The same, and the instruction's guard holds. -/
def ready (h : Hw) (loc : At) (long : Bool) : Bool := atBoundary h loc long && guardHolds (h.core loc.core) loc long

/-- The core's vector unit is neither gated nor waking (08 R247). -/
def vectorOn (h : Hw) (c : Nat) : Bool := !(h.core c).vgated && !h.col.waking.contains c

/-- Memory is in its canonical form. -/
def memoryOk (h : Hw) : Bool := Mem.wf h.mem.cells

end Sys2Proof.Safety
end

