-- ==== Sys2Proof/WellFormed.lean ====
section
/-! DEFINITION. Which commands are well formed: an instruction's slot can be encoded, a packet holds the words its header says, and a
reading from outside the block has the parts the manual gives it. Each check has a name. -/

namespace Sys2Proof

open Sys2Proof.Machine

/-- What is wrong with a command. -/
inductive IllFormed where
  /-- A Fintoic instruction whose operands no encoding of it holds (09 R260 to R271). -/
  | encoding
  /-- More elements than a multi-element instruction has (11 R304, R308). -/
  | elements
  /-- A packet whose body is not the words that SLOTS announces (03 R69). -/
  | packetLength
  /-- A register access marked as an aligned word whose offset is none (00 R10). -/
  | alignment
  /-- A meter sample without one energy for each of the 24 meters (07 R201). -/
  | meters
  /-- A sensor sample without one value for each of the 64 sensors (07 R217). -/
  | sensors
  /-- A camera line whose samples do not fill whole pixels (19 R516). -/
  | lineShape
  /-- A JOIN frame whose digest is not 8 words (20 R563). -/
  | digest
deriving DecidableEq, Repr

/-! ### Fintoic instructions -/

/-- The scalar or vector registers that a short form names: 0 to 7 (09 R269). -/
def low (r : Fin 32) : Bool := r.val < 8

/-- Whether a short encoding holds an operation's operands (09 R261, R269). -/
def shortFits : CoreOp → Bool
  | .nop | .halt | .lbrk _ | .csync | .pmsync | .rti | .rtt | .brk _ | .vgate | .sint _ | .clr _ => true
  | .alu .add d a b | .alu .sub d a b | .alu .and d a b | .alu .or d a b | .alu .xor d a b => d = a && low d && low b
  | .mov d a | .vmov d a => low d && low a
  | .imm .addi d n => low d && n = simm 3 n.toNat
  | .imm .movi d n => low d && n.toNat < 8
  | .shift .shli d n | .shift .shri d n => low d && n.toNat < 8
  | .cmp .eq pd a b | .cmp .lt pd a b => pd = 1 && low a && low b
  | .br off => off = BitVec.ofInt 16 (signed 6 off.toNat)
  | .ld .w s (.plain g) | .st .w s (.plain g) => low s && g.val < 8
  | .ld .w s (.post g m) | .st .w s (.post g m) => low s && g.val = m.val
  | .adda g (.modifier m) => g.val = m.val
  | .macr .mac _ a b | .macr .msu _ a b => 16 ≤ a.val && a.val < 20 && 20 ≤ b.val && b.val < 24
  | _ => false

/-- Whether a long encoding holds an operation's operands (09 R264, R270). -/
def longFits (op : CoreOp) : Bool :=
  match op with
  | .imm .addi _ n | .imm .movi _ n | .imm .andi _ n => n = simm 9 n.toNat
  | .imm _ _ n => n.toNat < 512
  | .br off | .call off => off = BitVec.ofInt 16 (signed 14 off.toNat)
  | .vopMasked op _ _ _ _ => op = .addH || op = .subH || op = .addsH || op = .mulH
  | op => (encodeLong op).isSome

/-- Whether a slot has an encoding that stands for it. -/
def slotFits (s : Slot) : Bool :=
  s.upto = 64 && (if s.long then longFits s.op else s.guard.val < 2 && !s.neg && shortFits s.op)

/-- The instruction that a Fintoic row issues: where, what, and how many elements of it take effect. -/
def issued : Instr → Option (At × CoreOp × Nat)
  | .nopShort loc => some (loc, .nop, 64)
  | .halt loc => some (loc, .halt, 64)
  | .add loc d a b => some (loc, rrOp loc .add d a b, 64)
  | .sub loc d a b => some (loc, rrOp loc .sub d a b, 64)
  | .and loc d a b => some (loc, rrOp loc .and d a b, 64)
  | .or loc d a b => some (loc, rrOp loc .or d a b, 64)
  | .xor loc d a b => some (loc, rrOp loc .xor d a b, 64)
  | .mov loc d a => some (loc, .mov d a, 64)
  | .mul loc d a b => some (loc, .alu .mul d a b, 64)
  | .min loc d a b => some (loc, .alu .min d a b, 64)
  | .max loc d a b => some (loc, .alu .max d a b, 64)
  | .adds loc d a b => some (loc, .alu .adds d a b, 64)
  | .subs loc d a b => some (loc, .alu .subs d a b, 64)
  | .shl loc d a b => some (loc, .alu .shl d a b, 64)
  | .shr loc d a b => some (loc, .alu .shr d a b, 64)
  | .shru loc d a b => some (loc, .alu .shru d a b, 64)
  | .addi loc d imm => some (loc, .imm .addi d (if loc.long then simm 9 imm.toNat else simm 3 imm.toNat), 64)
  | .movi loc d imm => some (loc, .imm .movi d (if loc.long then simm 9 imm.toNat else BitVec.ofNat 32 (imm.toNat % 8)), 64)
  | .andi loc d imm => some (loc, .imm .andi d (simm 9 imm.toNat), 64)
  | .ori loc d imm => some (loc, .imm .ori d (imm.setWidth 32), 64)
  | .xori loc d imm => some (loc, .imm .xori d (imm.setWidth 32), 64)
  | .shli loc d n => some (loc, .shift .shli d (if loc.long then n else n &&& 7), 64)
  | .shri loc d n => some (loc, .shift .shri d (if loc.long then n else n &&& 7), 64)
  | .shrui loc d n => some (loc, .shift .shrui d n, 64)
  | .cmpeq loc pd a b => some (loc, .cmp .eq (shortP loc pd) a b, 64)
  | .cmpne loc pd a b => some (loc, .cmp .ne pd a b, 64)
  | .cmplt loc pd a b => some (loc, .cmp .lt (shortP loc pd) a b, 64)
  | .cmple loc pd a b => some (loc, .cmp .le pd a b, 64)
  | .cmpltu loc pd a b => some (loc, .cmp .ltu pd a b, 64)
  | .cmpleu loc pd a b => some (loc, .cmp .leu pd a b, 64)
  | .cmpeqi loc pd a imm => some (loc, .cmpImm false pd a imm, 64)
  | .cmplti loc pd a imm => some (loc, .cmpImm true pd a imm, 64)
  | .pand loc pd pa pb => some (loc, .pand pd pa pb, 64)
  | .por loc pd pa pb => some (loc, .por pd pa pb, 64)
  | .pnot loc pd pa => some (loc, .pnot pd pa, 64)
  | .br loc off => some (loc, .br (BitVec.ofInt 16 (signed (if loc.long then 14 else 6) off.toNat)), 64)
  | .call loc off => some (loc, .call (BitVec.ofInt 16 (signed 14 off.toNat)), 64)
  | .jr loc a => some (loc, .jr a, 64)
  | .loop loc l sc off => some (loc, .loop l sc off, 64)
  | .loopi loc l n off => some (loc, .loopi l n off, 64)
  | .lbrk loc l => some (loc, .lbrk l, 64)
  | .movLLr loc sel s => some (loc, .movToLoop sel s, 64)
  | .movLSd loc sel s => some (loc, .movFromLoop sel s, 64)
  | .movcR loc s c => some (loc, .movcR s c, 64)
  | .movcW loc s c => some (loc, .movcW s c, 64)
  | .csync loc => some (loc, .csync, 64)
  | .pmsync loc => some (loc, .pmsync, 64)
  | .rti loc => some (loc, .rti, 64)
  | .rtt loc => some (loc, .rtt, 64)
  | .vgate loc => some (loc, .vgate, 64)
  | .brk loc n => some (loc, .brk n, 64)
  | .sint loc n => some (loc, .sint n, 64)
  | .ldB loc s m => some (loc, .ld .b s m, 64)
  | .ldBu loc s m => some (loc, .ld .bu s m, 64)
  | .ldH loc s m => some (loc, .ld .h s m, 64)
  | .ldHu loc s m => some (loc, .ld .hu s m, 64)
  | .ldW loc s m => some (loc, .ld .w s (shortForm loc m), 64)
  | .stB loc s m => some (loc, .st .b s m, 64)
  | .stH loc s m => some (loc, .st .h s m, 64)
  | .stW loc s m => some (loc, .st .w s (shortForm loc m), 64)
  | .adda loc g x => some (loc, .adda g x, 64)
  | .movG loc g s => some (loc, .movG g s, 64)
  | .movS loc s g => some (loc, .movS s g, 64)
  | .movM loc m s => some (loc, .movM m s, 64)
  | .bqIssue loc tag s1 s2 => some (loc, .bqIssue tag s1 s2, 64)
  | .bqPoll loc d tag => some (loc, .bqPoll d tag, 64)
  | .bqWait loc d tag => some (loc, .bqWait d tag, 64)
  | .bqStat loc d tag => some (loc, .bqStat d tag, 64)
  | .synSig loc sa sb => some (loc, .synSig sa sb, 64)
  | .synWaitInstr loc sa sb => some (loc, .synWait sa sb, 64)
  | .synArm loc sa sb => some (loc, .synArm sa sb, 64)
  | .mac loc x => some (loc, .dual .mac x, 64)
  | .msu loc x => some (loc, .dual .msu x, 64)
  | .mpy loc x => some (loc, .dual .mpy x, 64)
  | .macR loc acc a b => some (loc, .macr .mac acc a b, 64)
  | .msuR loc acc a b => some (loc, .macr .msu acc a b, 64)
  | .mpyR loc acc a b => some (loc, .macr .mpy acc a b, 64)
  | .satA loc d acc n => some (loc, .satA d acc n, 64)
  | .movA loc acc a => some (loc, .movA acc a, 64)
  | .addacc loc an am => some (loc, .accAdd false an am, 64)
  | .subacc loc an am => some (loc, .accAdd true an am, 64)
  | .shla loc acc imm => some (loc, .shla acc imm, 64)
  | .clr loc acc => some (loc, .clr acc, 64)
  | .vaddH loc d a b => some (loc, .vop .addH d a b, 64)
  | .vsubH loc d a b => some (loc, .vop .subH d a b, 64)
  | .vaddsH loc d a b => some (loc, .vop .addsH d a b, 64)
  | .vsubsH loc d a b => some (loc, .vop .subsH d a b, 64)
  | .vmulH loc d a b => some (loc, .vop .mulH d a b, 64)
  | .vminH loc d a b => some (loc, .vop .minH d a b, 64)
  | .vmaxH loc d a b => some (loc, .vop .maxH d a b, 64)
  | .vand loc d a b => some (loc, .vop .and d a b, 64)
  | .vor loc d a b => some (loc, .vop .or d a b, 64)
  | .vxor loc d a b => some (loc, .vop .xor d a b, 64)
  | .vaddB loc d a b => some (loc, .vop .addB d a b, 64)
  | .vaddsB loc d a b => some (loc, .vop .addsB d a b, 64)
  | .vaddHM loc d b k z => some (loc, .vopMasked .addH d b k z, 64)
  | .vsubHM loc d b k z => some (loc, .vopMasked .subH d b k z, 64)
  | .vaddsHM loc d b k z => some (loc, .vopMasked .addsH d b k z, 64)
  | .vmulHM loc d b k z => some (loc, .vopMasked .mulH d b k z, 64)
  | .vmovM loc d b k z => some (loc, .vmovMasked d b k z, 64)
  | .vmov loc d a => some (loc, .vmov d a, 64)
  | .vshlH loc d a n => some (loc, .vshift .shl d a n, 64)
  | .vshrH loc d a n => some (loc, .vshift .shr d a n, 64)
  | .vshrrH loc d a n => some (loc, .vshift .shrr d a n, 64)
  | .vmacH loc w a b => some (loc, .vmac .mac w a b, 64)
  | .vmsuH loc w a b => some (loc, .vmac .msu w a b, 64)
  | .vmpyH loc w a b => some (loc, .vmac .mpy w a b, 64)
  | .vclr loc w => some (loc, .vclr w, 64)
  | .vnarrow loc d w n => some (loc, .vnarrow d w n, 64)
  | .vcmpeqH loc k a b => some (loc, .vcmp .eq k a b, 64)
  | .vcmpltH loc k a b => some (loc, .vcmp .lt k a b, 64)
  | .vcmpleH loc k a b => some (loc, .vcmp .le k a b, 64)
  | .kand loc kd ka kb => some (loc, .kand kd ka kb, 64)
  | .kor loc kd ka kb => some (loc, .kor kd ka kb, 64)
  | .knot loc kd ka => some (loc, .knot kd ka, 64)
  | .vbcast loc d a => some (loc, .vbcast d a, 64)
  | .vext loc d a b => some (loc, .vext d a b, 64)
  | .vld loc v m upto => some (loc, .vld v m, upto)
  | .vst loc v m upto => some (loc, .vst v m, upto)
  | .vgatherH loc v vi g upto => some (loc, .index .gather v vi g, upto)
  | .vscatterH loc v vi g upto => some (loc, .index .scatter v vi g, upto)
  | .vrmwAddH loc v vi g upto => some (loc, .index .rmwAdd v vi g, upto)
  | .vredsumH loc d a upto => some (loc, .red .sum d a, upto)
  | .vredminH loc d a upto => some (loc, .red .min d a, upto)
  | .vredmaxH loc d a upto => some (loc, .red .max d a, upto)
  | .vminidxH loc d a upto => some (loc, .red .minidx d a, upto)
  | .vmaxidxH loc d a upto => some (loc, .red .maxidx d a, upto)
  | .vsminIdx loc d a upto => some (loc, .red .searchMin d a, upto)
  | .vsmaxIdx loc d a upto => some (loc, .red .searchMax d a, upto)
  | _ => none

/-! ### Packets -/

/-- The packet that a row carries. -/
def packetOf : Instr → Option Packet
  | .nop _ p => some p
  | .queryModule _ p => some p
  | .moduleState _ p => some p
  | .frameConfig _ p => some p
  | .frameControl _ p => some p
  | .netConfig _ p => some p
  | .ptpConfig _ p => some p
  | .ctxCreate _ p => some p
  | .ctxDestroy _ p => some p
  | .ctxReset _ p => some p
  | .ctxQuery _ p => some p
  | .ctxRun _ p => some p
  | .ctxSetPolicy _ p => some p
  | .atuMap _ p => some p
  | .atuUnmap _ p => some p
  | .atuInvalidate _ p => some p
  | .synAlloc _ p => some p
  | .synFree _ p => some p
  | .synSignal _ p => some p
  | .synWait _ p => some p
  | .mbxOpen _ p => some p
  | .mbxClose _ p => some p
  | .jobDefine _ p => some p
  | .jobRemove _ p => some p
  | .colSetCap _ p => some p
  | .colQuery _ p => some p
  | .swapArm _ p => some p
  | .swapCancel _ p => some p
  | .swapStatus _ p => some p
  | .regStage _ p => some p
  | .progLoad _ p => some p
  | .modelLoad _ p => some p
  | .modelUnbind _ p => some p
  | .dmaAlloc _ p => some p
  | .dmaFree _ p => some p
  | .dmaStart _ p => some p
  | .dmaKick _ p => some p
  | .dmaStop _ p => some p
  | .cxpConfig _ p => some p
  | .cxpPower _ p _ => some p
  | .cxpCtrl _ p => some p
  | .webEncConfig _ p => some p
  | .webOutBind _ p => some p
  | .webOutRule _ p => some p
  | .webOutForce _ p => some p
  | .cpcReport _ p => some p
  | .cpcPolicy _ p => some p
  | .domainJoin _ p => some p
  | .domainLeave _ p => some p
  | .domainSwapArm _ p => some p
  | .domainStatus _ p => some p
  | .logRead _ p => some p
  | _ => none

/-- The words after the header that a packet has: those of the slots it consumes (03 R69, R75). -/
def bodyWords (p : Packet) : Nat := 16 * (if 1 ≤ p.slots.toNat ∧ p.slots.toNat ≤ 8 then p.slots.toNat else 1) - 4

/-- The register access of a row. -/
def accessOf : Instr → Option RegAccess
  | .registerWrite a _ => some a
  | .registerRead a => some a
  | _ => none

/-- Samples of one pixel of a format; 1 for a format that no group master accepts (19 R516). -/
def samplesOf : PixFmt → Nat
  | .rgb8 | .rgb10 | .rgb12 | .rgb16 => 3
  | .rgba8 => 4
  | _ => 1

/-- The first check that a command fails, if any. -/
def checkInstr (i : Instr) : Option IllFormed :=
  match issued i with
  | some (loc, op, n) =>
    if !slotFits (slotAt loc op 64) then some .encoding else if 64 < n then some .elements else none
  | none =>
    match packetOf i, accessOf i, i with
    | some p, _, _ => if p.body.length ≠ bodyWords p then some .packetLength else none
    | none, some a, _ => if a.aligned && a.off % 4 ≠ 0 then some .alignment else none
    | none, none, .meterSample m => if m.energy.length ≠ 24 then some .meters else none
    | none, none, .sensorSample t => if t.sensors.length ≠ 64 then some .sensors else none
    | none, none, .lineDelivery _ l => if l.samples.length % samplesOf l.fmt ≠ 0 then some .lineShape else none
    | none, none, .linkFrameReceive _ f =>
      match f.payload with
      | .join j => if j.digest.length ≠ 8 then some .digest else none
      | _ => none
    | _, _, _ => none

/-- A command is well formed when it passes every check. -/
def wellFormed (i : Instr) : Bool := (checkInstr i).isNone

end Sys2Proof
end

