-- ==== Sys2Proof/Certificates/Slice0/Obligations.lean ====
section
/-! DEFINITION. The statements about the block, each a `def Obligations.<Name> : Prop`, and before each group the terms in which
it speaks (`Sys2Proof.Claims`), written from the rules they cite. -/

namespace Sys2Proof.Claims

end Sys2Proof.Claims

open Sys2Proof Sys2Proof.Machine Sys2Proof.Safety Sys2Proof.Claims

namespace Sys2Proof.Claims

/-- The next state with this hardware, and the queue as it was. -/
def hwNext (s : State) (h : Hw) : Host.Outcome State Fault Refusal := .next { s with hw := h }

/-- The next state in which one core changed and nothing else did: no other register, memory, counter or engine. -/
def coreNext (s : State) (c : Nat) (k : Core) : Host.Outcome State Fault Refusal := hwNext s (s.hw.setCore c k)

end Sys2Proof.Claims

/-! ### Fintoic cores: the scalar ALU (10 R272 to R274) -/

namespace Sys2Proof.Claims

/-- What the end of a bundle of one instruction adds to a core's new registers: the run has begun, and the program counter
moves past the bundle, or round a hardware loop that ends there (LoopEndRule). -/
def ends (k : Core) (long : Bool) : Core := ({ k with ran := true, synEnded := false }).finish (if long then 2 else 1) none

/-- A signed value held in the 32-bit range. -/
def satWord (v : Int) : Word :=
  BitVec.ofInt 32 (if v < -2147483648 then -2147483648 else if 2147483647 < v then 2147483647 else v)

/-- The scalar ALU instructions whose result goes to sd, each with whether its form is long, and its result. The short RR forms
compute sd op sa, and the short immediates are simm3 and u3 (R272). -/
def scalarRows (k : Core) (loc : At) (d a b : Fin 32) (n : BitVec 9) (u : BitVec 5) : List (Instr × Bool × Word) :=
  let x := k.getS a
  let y := k.getS b
  let z := k.getS d
  [(.mul loc d a b, true, BitVec.ofInt 32 (x.toInt * y.toInt)),
   (.min loc d a b, true, if x.toInt < y.toInt then x else y),
   (.max loc d a b, true, if x.toInt < y.toInt then y else x),
   (.adds loc d a b, true, satWord (x.toInt + y.toInt)),
   (.subs loc d a b, true, satWord (x.toInt - y.toInt)),
   (.shl loc d a b, true, if 32 ≤ y.toNat then 0 else x <<< y.toNat),
   (.shr loc d a b, true, if 32 ≤ y.toNat then (if x.msb then 0xFFFFFFFF else 0) else x.sshiftRight y.toNat),
   (.shru loc d a b, true, if 32 ≤ y.toNat then 0 else x >>> y.toNat),
   (.andi loc d n, true, z &&& n.signExtend 32),
   (.ori loc d n, true, z ||| n.setWidth 32),
   (.xori loc d n, true, z ^^^ n.setWidth 32),
   (.shrui loc d u, true, z >>> u.toNat),
   (.mov loc d a, false, x)] ++
  if loc.long then
    [(.add loc d a b, true, x + y), (.sub loc d a b, true, x - y), (.and loc d a b, true, x &&& y),
     (.or loc d a b, true, x ||| y), (.xor loc d a b, true, x ^^^ y),
     (.addi loc d n, true, z + n.signExtend 32), (.movi loc d n, true, n.signExtend 32),
     (.shli loc d u, true, z <<< u.toNat), (.shri loc d u, true, z.sshiftRight u.toNat)]
  else
    [(.add loc d a b, false, z + x), (.sub loc d a b, false, z - x), (.and loc d a b, false, z &&& x),
     (.or loc d a b, false, z ||| x), (.xor loc d a b, false, z ^^^ x),
     (.addi loc d n, false, z + (n.setWidth 3).signExtend 32), (.movi loc d n, false, (n.setWidth 3).setWidth 32),
     (.shli loc d u, false, z <<< (u.toNat % 8)), (.shri loc d u, false, z.sshiftRight (u.toNat % 8))]

/-- The compares and predicate operations, each with whether its form is long, the predicate written and its value; the short
compares write p1 (R274). -/
def predicateRows (k : Core) (loc : At) (pd pa pb : Fin 8) (a b : Fin 32) (n : BitVec 6) : List (Instr × Bool × Fin 8 × Bool) :=
  let x := k.getS a
  let y := k.getS b
  [(.cmpne loc pd a b, true, pd, decide (x ≠ y)),
   (.cmple loc pd a b, true, pd, decide (x.toInt ≤ y.toInt)),
   (.cmpltu loc pd a b, true, pd, decide (x.toNat < y.toNat)),
   (.cmpleu loc pd a b, true, pd, decide (x.toNat ≤ y.toNat)),
   (.cmpeqi loc pd a n, true, pd, decide (x = n.signExtend 32)),
   (.cmplti loc pd a n, true, pd, decide (x.toInt < n.toInt)),
   (.pand loc pd pa pb, true, pd, k.getP pa && k.getP pb),
   (.por loc pd pa pb, true, pd, k.getP pa || k.getP pb),
   (.pnot loc pd pa, true, pd, !k.getP pa),
   (.cmpeq loc pd a b, loc.long, if loc.long then pd else 1, decide (x = y)),
   (.cmplt loc pd a b, loc.long, if loc.long then pd else 1, decide (x.toInt < y.toInt))]

/-- A predicate register written; a write to p0 is ignored (R222). -/
def withP (k : Core) (pd : Fin 8) (v : Bool) : Core := if pd = 0 then k else { k with p := Tbl.set false k.p pd v }

end Sys2Proof.Claims

/-- R272, R273: every scalar ALU instruction writes its result to sd and to no other register; the bundle ends; no other part of
the block changes. -/
def Sys2Proof.Claims.scalarResultWritten : Prop :=
  ∀ (s : State) (loc : At) (d a b : Fin 32) (n : BitVec 9) (u : BitVec 5),
    ∀ r ∈ scalarRows (s.hw.core loc.core) loc d a b n u,
      ready s.hw loc r.2.1 = true →
      exec r.1 s =
        coreNext s loc.core (ends ((s.hw.core loc.core).putS d r.2.2) r.2.1)

/-- R274: every compare and predicate operation writes its relation to pd, nothing where pd is p0, and nothing else. -/
def Sys2Proof.Claims.predicateResultWritten : Prop :=
  ∀ (s : State) (loc : At) (pd pa pb : Fin 8) (a b : Fin 32) (n : BitVec 6),
    ∀ r ∈ predicateRows (s.hw.core loc.core) loc pd pa pb a b n,
      ready s.hw loc r.2.1 = true →
      exec r.1 s =
        coreNext s loc.core
          (ends (withP (s.hw.core loc.core) r.2.2.1 r.2.2.2) r.2.1)


/-! ### Fintoic cores: branches, loops and control registers (08 R227 to R230, 09 R257, 10 R275 to R279) -/

namespace Sys2Proof.Claims

/-- A core whose one-instruction bundle took a branch to `t`: no end check is made (R227). -/
def jumps (k : Core) (t : BitVec 16) (long : Bool) : Core :=
  ({ k with ran := true, synEnded := false }).finish (if long then 2 else 1) (some t)

/-- The branches, each with whether its form is long, the core before it ends, and its target (R257, R275). -/
def branchRows (k : Core) (loc : At) (off : BitVec 14) (a : Fin 32) : List (Instr × Bool × Core × BitVec 16) :=
  [(.br loc off, loc.long, k, k.pc + if loc.long then off.signExtend 16 else (off.setWidth 6).signExtend 16),
   (.call loc off, true, k.putS 31 ((k.pc + 2).setWidth 32), k.pc + off.signExtend 16),
   (.jr loc a, true, k, (k.getS a).setWidth 16)]

/-- The loop registers of level `l`. -/
def loopLevel (k : Core) (l : Fin 2) : BitVec 16 × BitVec 16 × Word :=
  if l = 0 then (k.ls0, k.le0, k.lc0) else (k.ls1, k.le1, k.lc1)

/-- `loop` and `loopi` with a count above 0, with their count (R227, R276). -/
def loopRows (k : Core) (loc : At) (l : Fin 2) (sc : Fin 32) (n : BitVec 5) (off : BitVec 8) : List (Instr × Word) :=
  [(.loop loc l sc off, k.getS sc), (.loopi loc l n off, n.setWidth 32)]

/-- The loop register that a selector of R271 names, as `mov.l` reads it when no write of it is pending. -/
def loopReg (k : Core) (sel : BitVec 3) : Word :=
  if sel = 0 then k.ls0.setWidth 32 else if sel = 1 then k.le0.setWidth 32 else if sel = 2 then k.lc0
  else if sel = 3 then k.ls1.setWidth 32 else if sel = 4 then k.le1.setWidth 32 else k.lc1

/-- The control registers that `movc.w` writes with effect from the next bundle, and the bits a write changes (R248, R250). -/
def plainControl : List (Fin 32 × Word) :=
  [(2, 0x7F), (4, 0x7F), (5, 0xFFFF), (6, 0xFFFF), (7, 0xFFFF), (8, 0xFFFF), (9, 0xFFFF), (10, 0xFFFF), (26, 0xFFFFFFFF),
   (27, 0x1F), (28, 0x1F), (29, 0x1F)]

/-- The low halves of the 64-bit control registers that `movc.w` writes: VSTATE1, VSTATE2 and VSTATET (R11, R248). -/
def wideControl : List (Fin 32 × Fin 32) := [(14, 15), (16, 17), (18, 19)]

/-- The control registers that no `movc.w` changes (R248). -/
def readOnlyControl : List (Fin 32) := [11, 12, 13, 24, 25]

end Sys2Proof.Claims

/-- R257, R275: a branch, `call` and `jr` continue at their target, `call` with the next bundle's address in s31. -/
def Sys2Proof.Claims.branchTaken : Prop :=
  ∀ (s : State) (loc : At) (off : BitVec 14) (a : Fin 32), ∀ r ∈ branchRows (s.hw.core loc.core) loc off a,
    ready s.hw loc r.2.1 = true → exec r.1 s = coreNext s loc.core (jumps r.2.2.1 r.2.2.2 r.2.1)

/-- R227: the end check of a bundle that ends without a taken branch. At leL with lcL above 1 the core continues at lsL and
lcL falls by one; with lcL = 1 it falls to 0 and the core goes on; level 1 is checked when level 0 does not send it back. -/
def Sys2Proof.Claims.loopEndRule : Prop :=
  ∀ (k : Core) (n : Nat), k.late = [] →
    let e := k.finish n none
    let next := k.pc + BitVec.ofNat 16 n
    let at0 := decide (k.lc0 ≠ 0 ∧ k.le0 = k.pc)
    let at1 := decide (k.lc1 ≠ 0 ∧ k.le1 = k.pc)
    let back0 := at0 && decide (k.lc0 ≠ 1)
    let back1 := !back0 && at1 && decide (k.lc1 ≠ 1)
    e.pc = (if back0 then k.ls0 else if back1 then k.ls1 else next) ∧
    e.lc0 = (if at0 then k.lc0 - 1 else k.lc0) ∧
    e.lc1 = (if !back0 && at1 then k.lc1 - 1 else k.lc1) ∧
    e.ls0 = k.ls0 ∧ e.le0 = k.le0 ∧ e.ls1 = k.ls1 ∧ e.le1 = k.le1 ∧ e.late = [] ∧
    e.s = k.s ∧ e.p = k.p ∧ e.g = k.g ∧ e.m = k.m ∧ e.a = k.a ∧ e.v = k.v ∧ e.k = k.k ∧ e.w = k.w ∧
    e.x = k.x ∧ e.y = k.y ∧ e.pm = k.pm ∧ e.tags = k.tags ∧ (∀ r, r ≠ Cr.stat → e.getCr r = k.getCr r) ∧
    (∀ i : Fin 32, i ≠ 6 → (e.getCr Cr.stat).getLsbD i = (k.getCr Cr.stat).getLsbD i)

/-- R227: `loop` and `loopi` set the level's start to the next bundle, its end to the named bundle and its count, at once, and
the core goes on; the loop registers are written before this bundle's end check. A count of 0 skips the body and goes on after the
bundle at the end. `lbrk` sets the count to 0. -/
def Sys2Proof.Claims.loopRegistersSet : Prop :=
  ∀ (s : State) (loc : At) (l : Fin 2) (sc : Fin 32) (n : BitVec 5) (off : BitVec 8),
    (∀ r ∈ loopRows (s.hw.core loc.core) loc l sc n off, r.2 ≠ 0 → off.toNat < 128 → ready s.hw loc true = true →
      ∃ k' : Core, exec r.1 s = coreNext s loc.core (ends k' true) ∧
        loopLevel k' l = ((s.hw.core loc.core).pc + 2, (s.hw.core loc.core).pc + 2 + off.setWidth 16, r.2) ∧
        loopLevel k' (1 - l) = loopLevel (s.hw.core loc.core) (1 - l) ∧
        k'.s = (s.hw.core loc.core).s ∧ k'.cr = (s.hw.core loc.core).cr ∧ k'.pc = (s.hw.core loc.core).pc) ∧
    (∀ r ∈ loopRows (s.hw.core loc.core) loc l sc n off, r.2 = 0 → off.toNat < 128 → ready s.hw loc true = true →
      let le := (s.hw.core loc.core).pc + 2 + off.setWidth 16
      ∃ k' : Core, exec r.1 s =
          coreNext s loc.core (jumps k' (le + BitVec.ofNat 16 ((s.hw.core loc.core).bundleLength le.toNat)) true) ∧
        loopLevel k' l = ((s.hw.core loc.core).pc + 2, le, 0) ∧
        loopLevel k' (1 - l) = loopLevel (s.hw.core loc.core) (1 - l) ∧ k'.s = (s.hw.core loc.core).s) ∧
    (ready s.hw loc false = true →
      ∃ k' : Core, exec (.lbrk loc l) s = coreNext s loc.core (ends k' false) ∧
        loopLevel k' l = ((loopLevel (s.hw.core loc.core) l).1, (loopLevel (s.hw.core loc.core) l).2.1, 0) ∧
        loopLevel k' (1 - l) = loopLevel (s.hw.core loc.core) (1 - l) ∧
        k'.s = (s.hw.core loc.core).s ∧ k'.cr = (s.hw.core loc.core).cr ∧ k'.pc = (s.hw.core loc.core).pc)

/-- R230, R278: `mov.l sd, lr` reads the loop register zero-extended; `mov.l lr, sa` is seen by end checks from the third bundle
after its own: at the end of its own bundle and of the two after it the loop registers that no end check changes are the old ones,
and at the end of the third the register holds the value. -/
def Sys2Proof.Claims.loopRegisterMoves : Prop :=
  ∀ (s : State) (loc : At) (sel : BitVec 3) (r : Fin 32), sel.toNat < 6 → (s.hw.core loc.core).late = [] →
    ready s.hw loc true = true →
    exec (.movLSd loc sel r) s =
      coreNext s loc.core (ends ((s.hw.core loc.core).putS r (loopReg (s.hw.core loc.core) sel)) true) ∧
    ∃ k' : Core, exec (.movLLr loc sel r) s = coreNext s loc.core (ends k' true) ∧
      (∀ q : BitVec 3, loopReg k' q = loopReg (s.hw.core loc.core) q) ∧
      (k'.stepLate.stepLate.stepLate.late ≠ [] ∧ k'.stepLate.stepLate.stepLate.stepLate.late = []) ∧
      (∀ q : BitVec 3, loopReg k'.stepLate.stepLate.stepLate q = loopReg (s.hw.core loc.core) q) ∧
      loopReg k'.stepLate.stepLate.stepLate.stepLate sel =
        (if sel = 2 ∨ sel = 5 then (s.hw.core loc.core).getS r else (((s.hw.core loc.core).getS r).setWidth 16).setWidth 32)

/-- R230, R248, R279: `movc.w` to a control register that acts at once writes its writable bits; to a read-only one nothing; to
FTC_IPEND it clears the bits written as 1; to FTC_CTL and FTC_WINn the value waits for `csync` and FTC_STAT.PEND shows it.
a 64-bit one is written with its high half, by the low half held before (R11). `movc.r` reads the value written last, and the high half
of a 64-bit register as its low half's read found it. -/
def Sys2Proof.Claims.controlRegisterMoves : Prop :=
  ∀ (s : State) (loc : At) (a : Fin 32), ready s.hw loc true = true →
    let k := s.hw.core loc.core
    (∀ r ∈ plainControl, exec (.movcW loc a r.1) s = coreNext s loc.core (ends (k.setCr r.1 (k.getS a &&& r.2)) true)) ∧
    (∀ c ∈ readOnlyControl, exec (.movcW loc a c) s = coreNext s loc.core (ends k true)) ∧
    exec (.movcW loc a 3) s = coreNext s loc.core (ends (k.setCr 3 (k.getCr 3 &&& ~~~(k.getS a &&& 0x7F))) true) ∧
    exec (.movcW loc a 0) s =
      coreNext s loc.core (ends ({ k with ctlNew := some (k.getS a &&& 3) }.setCr 1 (k.getCr 1 ||| 0x80)) true) ∧
    (∀ w : Fin 4, exec (.movcW loc a (Fin.ofNat 32 (20 + w.val))) s =
      coreNext s loc.core
        (ends ({ k with winNew := Tbl.put k.winNew w.val (k.getS a &&& 0x7FFFF) }.setCr 1 (k.getCr 1 ||| 0x80)) true)) ∧
    exec (.movcW loc a 1) s =
      coreNext s loc.core (ends (k.setCr 1
        ((k.getCr 1 &&& ~~~(if (k.getS a).getLsbD 8 then 0x103 else 0x003)) ||| (k.getS a &&& 3))) true) ∧
    (∀ r ∈ wideControl,
      exec (.movcW loc a r.1) s =
        coreNext s loc.core (ends { k with crHeld := Tbl.put k.crHeld r.1 (k.getS a &&& 0xFFFF03FF) } true) ∧
      exec (.movcW loc a r.2) s =
        coreNext s loc.core (ends ((k.setCr r.1 ((Tbl.find k.crHeld r.1).getD (k.getCr r.1))).setCr r.2 (k.getS a)) true)) ∧
    (∀ v, k.ctlNew = some v → exec (.movcR loc a 0) s = coreNext s loc.core (ends (k.putS a v) true)) ∧
    (k.ctlNew = none → exec (.movcR loc a 0) s = coreNext s loc.core (ends (k.putS a (k.getCr 0)) true)) ∧
    (∀ w : Fin 4, exec (.movcR loc a (Fin.ofNat 32 (20 + w.val))) s =
      coreNext s loc.core (ends (k.putS a ((Tbl.find k.winNew w).getD (k.getCr (20 + w.val)))) true)) ∧
    (∀ c : Fin 32, c.val ∈ [1, 2, 3, 4, 5, 6, 7, 8, 9, 10, 11, 26, 27, 28, 29] →
      exec (.movcR loc a c) s = coreNext s loc.core (ends (k.putS a (k.getCr c)) true)) ∧
    (∀ c : Fin 32, c.val ∈ [12, 14, 16, 18, 24] →
      exec (.movcR loc a c) s =
        coreNext s loc.core (ends ({ k with crSnap := Tbl.put k.crSnap c (k.getCr (c.val + 1)) }.putS a (k.getCr c)) true)) ∧
    (∀ c : Fin 32, c.val ∈ [13, 15, 17, 19, 25] →
      exec (.movcR loc a c) s =
        coreNext s loc.core (ends (match Tbl.find k.crSnap (c.val - 1) with
          | some w => { k with crSnap := Tbl.del k.crSnap (c.val - 1) }.putS a w
          | none => k.putS a (k.getCr c)) true))

/-- R228, R230, R247, R261: `nop` does nothing; `csync` makes pending control writes take effect; `pmsync` makes fetch see program
memory as stored and empties the repeat cache; `vgate` gates the vector unit, whose registers keep their contents. -/
def Obligations.SynchronisingInstructions : Prop :=
  ∀ (s : State) (loc : At), ready s.hw loc false = true →
    let k := s.hw.core loc.core
    exec (.nopShort loc) s = coreNext s loc.core (ends k false) ∧
    exec (.pmsync loc) s = coreNext s loc.core (ends { k with fetch := k.pm, rcLoop := none, rcCount := 0, rcFull := false } false) ∧
    exec (.vgate loc) s = coreNext s loc.core (ends ({ k with waking := false }.setCr 1 (k.getCr 1 ||| 0x20)) false) ∧
    ∃ k' : Core, exec (.csync loc) s = coreNext s loc.core (ends k' false) ∧ k'.ctlNew = none ∧ k'.winNew = [] ∧
      (∀ v, k.ctlNew = some v → k'.getCr 0 = v) ∧ (k.ctlNew = none → k'.getCr 0 = k.getCr 0) ∧
      ((k.winNew.map (·.1)).Nodup → ∀ w : Fin 4, k'.getCr (20 + w.val) = (Tbl.find k.winNew w).getD (k.getCr (20 + w.val))) ∧
      (∀ i : Fin 4, k'.getA i =
        if k.dsp24 ∧ (∃ v, k.ctlNew = some v ∧ v.getLsbD 1 = false) then satInt 40 (k.getA i) else k.getA i) ∧
      k'.s = k.s ∧ k'.v = k.v ∧ k'.pc = k.pc ∧ (k'.getCr 1).getLsbD 7 = false


/-! ### Fintoic cores: traps, interrupts, the end of a run, and the debug registers (08 R231 to R247, 09 R255, 24 R642) -/

namespace Sys2Proof.Claims

/-- Cores changed as `f` says, and nothing else of the block. -/
def coresNext (s t : State) (f : Nat → Core) : Prop :=
  (∀ n, t.hw.core n = f n) ∧ { t.hw with cores := s.hw.cores } = s.hw ∧ t.pending = s.pending

/-- The registers that no trap or interrupt entry of a level other than the fast one changes. -/
def sameRegisters (k k' : Core) : Prop :=
  k'.s = k.s ∧ k'.p = k.p ∧ k'.g = k.g ∧ k'.m = k.m ∧ k'.v = k.v ∧ k'.k = k.k ∧ k'.w = k.w ∧
  k'.x = k.x ∧ k'.y = k.y ∧ k'.pm = k.pm ∧ k'.lc0 = k.lc0 ∧ k'.lc1 = k.lc1 ∧ k'.queue = k.queue

/-- Instructions that trap at issue, each with whether its form is long, when it does, FTC_CAUSE and FTC_TVAL (R232, R239, R251,
R255, R265, R281, R290, R304, R308). -/
def trapRows (k : Core) (loc : At) (n : BitVec 6) (r : Fin 32) (g : Fin 16) (tag : Fin 16) (a b : Fin 32)
    (l : Fin 2) (c5 : BitVec 5) (off : BitVec 8) (sel : BitVec 3) : List (Instr × Bool × Bool × Nat × Nat) :=
  let pc := k.pc.toNat
  let addr := (k.getG g).toNat
  let ptr := (k.getS a).toNat
  [(.brk loc n, false, true, 0x10, n.toNat),
   (.rti loc, false, (k.getCr 1).extractLsb' 2 2 = 0, 1, pc),
   (.rtt loc, false, !(k.getCr 1).getLsbD 4, 1, pc),
   (.loopi loc l c5 off, true, 128 ≤ off.toNat, 1, pc),
   (.loop loc l a off, true, 128 ≤ off.toNat, 1, pc),
   (.movLLr loc sel a, true, 6 ≤ sel.toNat, 1, pc),
   (.movLSd loc sel a, true, 6 ≤ sel.toNat, 1, pc),
   (.movcR loc a b, true, 30 ≤ b.val, 1, pc),
   (.movcW loc a b, true, 30 ≤ b.val, 1, pc),
   (.synArm loc a b, true, b.val % 2 = 1, 1, pc),
   (.ldH loc r (.plain g), true, addr % 2 ≠ 0, 3, addr),
   (.ldHu loc r (.plain g), true, addr % 2 ≠ 0, 3, addr),
   (.ldW loc r (.plain g), loc.long, addr % 4 ≠ 0, 3, addr),
   (.stH loc r (.plain g), true, addr % 2 ≠ 0 ∧ addr < 2 ^ 31, 3, addr),
   (.stW loc r (.plain g), loc.long, addr % 4 ≠ 0 ∧ addr < 2 ^ 31, 3, addr),
   (.bqIssue loc tag a b, true, Tbl.get .free k.tags tag = .busy ∧ k.run = .job, 6, tag.val),
   (.bqIssue loc tag a b, true, Tbl.get .free k.tags tag ≠ .busy ∧ k.run = .job ∧ (ptr < 2 ^ 31 ∨ ptr % 64 ≠ 0), 3, ptr),
   (.sint loc n, false, k.run = .diag, 1, pc),
   (.synSig loc a b, true, k.run = .diag, 1, pc)]

/-- The core can take a trap to its handler (R232, R233). -/
def hasHandler (k : Core) : Bool := decide (k.getCr 7 ≠ 0) && !(k.getCr 1).getLsbD 4

/-- A control write to a window that waits for `csync` is to one of the four windows. -/
def pendingOk (k : Core) : Bool := k.winNew.all (fun e => e.1 < 4)

/-- A core's state after trap entry (R232). -/
def trapEntered (k k' : Core) (cause tval : Nat) : Prop :=
  k'.getCr 11 = BitVec.ofNat 32 cause ∧ k'.getCr 12 = BitVec.ofNat 32 tval ∧ k'.getCr 13 = 0 ∧
  k'.getCr 10 = k.pc.setWidth 32 ∧ k'.getCr 29 = (k.getCr 1 &&& 0x1F) ∧ k'.getCr 18 = 0 ∧ k'.getCr 19 = 0 ∧
  k'.pc = (k.getCr 7).setWidth 16 ∧
  (k'.getCr 1).getLsbD 0 = false ∧ (k'.getCr 1).getLsbD 1 = false ∧ (k'.getCr 1).getLsbD 4 = true ∧
  (k'.getCr 1).extractLsb' 2 2 = (k.getCr 1).extractLsb' 2 2 ∧ sameRegisters k k' ∧ k'.tags = k.tags

/-- What an ESTAT register restores into bits [4:0] of FTC_STAT: its own, where they hold a level; a level of 3 restores another one,
which is free (log entry 37), and the rest. -/
def restores (f : BitVec 5) (e : Word) : Prop :=
  f.extractLsb' 2 2 ≠ 3 ∧ f &&& 0x13 = e.setWidth 5 &&& 0x13 ∧ ((e.setWidth 5).extractLsb' 2 2 ≠ (3 : BitVec 2) → f = e.setWidth 5)

/-- The shadow registers hold only the registers that the fast level switches (R238). -/
def shadowOk (k : Core) : Bool :=
  k.shadow.s.all (fun e => 24 ≤ e.1 && e.1 < 32) && k.shadow.p.all (fun e => 1 ≤ e.1 && e.1 < 8) &&
    k.shadow.g.all (fun e => 12 ≤ e.1 && e.1 < 16)

/-- The registers after a change of bank (R238): s24 to s31, p1 to p7, g12 to g15 and the loop registers are the other bank's, and
the bank that leaves is kept. -/
def bankSwitched (k k' : Core) : Prop :=
  (∀ i : Fin 32, k'.getS i = if 24 ≤ i.val then Tbl.get 0 k.shadow.s i else k.getS i) ∧
  (∀ i : Fin 8, k'.getP i = if i = 0 then true else Tbl.get false k.shadow.p i) ∧
  (∀ i : Fin 16, k'.getG i = if 12 ≤ i.val then Tbl.get 0 k.shadow.g i else k.getG i) ∧
  (k'.lc0, k'.lc1, k'.ls0, k'.ls1, k'.le0, k'.le1) =
    (k.shadow.lc0, k.shadow.lc1, k.shadow.ls0, k.shadow.ls1, k.shadow.le0, k.shadow.le1) ∧
  (∀ i : Fin 32, 24 ≤ i.val → Tbl.get 0 k'.shadow.s i = k.getS i) ∧
  (k'.shadow.lc0, k'.shadow.lc1) = (k.lc0, k.lc1) ∧ k'.m = k.m ∧ k'.v = k.v ∧ k'.x = k.x ∧ k'.y = k.y

end Sys2Proof.Claims

/-- R232: an instruction that traps commits nothing: the cause and value are recorded, the status and the bundle's address are
saved, both interrupt levels are disabled, INTRAP is set, and the core continues at FTC_TVEC; no register changes. -/
def Sys2Proof.Claims.trapEntersHandler : Prop :=
  ∀ (s : State) (loc : At) (n : BitVec 6) (r : Fin 32) (g : Fin 16) (tag : Fin 16) (a b : Fin 32) (l : Fin 2)
    (c5 : BitVec 5) (off : BitVec 8) (sel : BitVec 3),
    ∀ x ∈ trapRows (s.hw.core loc.core) loc n r g tag a b l c5 off sel,
      ready s.hw loc x.2.1 = true → x.2.2.1 = true → s.hw.wml.outs = [] → hasHandler (s.hw.core loc.core) = true →
      pendingOk (s.hw.core loc.core) = true →
      ∃ k' : Core, exec x.1 s = coreNext s loc.core k' ∧ trapEntered (s.hw.core loc.core) k' x.2.2.2.1 x.2.2.2.2

/-- R233: a trap with no handler, or inside one, halts the core and faults the context: CAUSE 0x01 with DETAIL the trap's cause and
UNIT the core, for `brk`. -/
def Sys2Proof.Claims.unhandledTrapFaultsContext : Prop :=
  ∀ (s : State) (loc : At) (n : BitVec 6), ready s.hw loc false = true → hasHandler (s.hw.core loc.core) = false →
    (s.hw.core loc.core).run = .job →
    ((s.hw.ctx (s.hw.core loc.core).slot).state = .idle ∨ (s.hw.ctx (s.hw.core loc.core).slot).state = .live) →
    ∃ t : State, exec (.brk loc n) s = .next t ∧
      (t.hw.ctx (s.hw.core loc.core).slot).state = .faulted ∧ (t.hw.ctx (s.hw.core loc.core).slot).cause = 1 ∧
      (t.hw.ctx (s.hw.core loc.core).slot).detail = 0x10 ∧ (t.hw.ctx (s.hw.core loc.core).slot).unit = loc.core.val ∧
      (t.hw.core loc.core).run = .none ∧ (t.hw.core loc.core).halted = true

/-- R232, R239: `rtt` and `rti` restore the saved status and continue at the saved address when no vector instruction is to be
re-issued; `rti` from the fast level switches the shadow registers back. -/
def Obligations.ReturnsRestoreStatus : Prop :=
  ∀ (s : State) (loc : At), ready s.hw loc false = true → (s.hw.core loc.core).late = [] →
    let k := s.hw.core loc.core
    ((k.getCr 1).getLsbD 4 = true → (k.getCr 18).getLsbD 7 = false →
      ∃ k' : Core, exec (.rtt loc) s = coreNext s loc.core k' ∧ k'.pc = (k.getCr 10).setWidth 16 ∧
        restores ((k'.getCr 1).setWidth 5) (k.getCr 29) ∧ sameRegisters k k' ∧ k'.a = k.a) ∧
    ((k.getCr 1).extractLsb' 2 2 = 1 → (k.getCr 14).getLsbD 7 = false →
      ∃ k' : Core, exec (.rti loc) s = coreNext s loc.core k' ∧ k'.pc = (k.getCr 8).setWidth 16 ∧
        restores ((k'.getCr 1).setWidth 5) (k.getCr 27) ∧ sameRegisters k k' ∧ k'.a = k.a) ∧
    ((k.getCr 1).extractLsb' 2 2 = 2 → (k.getCr 16).getLsbD 7 = false → shadowOk k = true →
      ∃ k' : Core, exec (.rti loc) s = coreNext s loc.core k' ∧ k'.pc = (k.getCr 9).setWidth 16 ∧
        restores ((k'.getCr 1).setWidth 5) (k.getCr 28) ∧ bankSwitched k k' ∧ k'.a = k.a)

/-- R236, R237, R238: at a bundle boundary a request of an enabled level is taken: the level's registers save the status and the
bundle's address, the level and the vector address follow, and the fast level switches the shadow registers in. -/
def Sys2Proof.Claims.interruptEntry : Prop :=
  ∀ (s : State) (c : Fin 18) (forced : Bool), calm s.hw = true → s.hw.wml.outs = [] →
    let k := s.hw.core c
    k.running = true → k.slots = [] → k.vrun = none → k.late = [] → pendingOk k = true → (k.getCr 1).getLsbD 4 = false →
    let wants (fast : Bool) : Bool := (List.range 7).any (fun i =>
      (k.getCr 3).getLsbD i && (k.getCr 2).getLsbD i && ((k.getCr 4).getLsbD i == fast))
    (wants false = true → (k.getCr 1).getLsbD 0 = true → (k.getCr 1).extractLsb' 2 2 = 0 →
      ¬ (wants true = true ∧ (k.getCr 1).getLsbD 1 = true) →
      ∃ k' : Core, exec (.interruptNormalEntry c forced) s = coreNext s c k' ∧
        k'.getCr 27 = (k.getCr 1 &&& 0x1F) ∧ k'.getCr 8 = k.pc.setWidth 32 ∧ k'.getCr 14 = 0 ∧ k'.getCr 15 = 0 ∧
        k'.pc = (k.getCr 5).setWidth 16 ∧ (k'.getCr 1).getLsbD 0 = false ∧
        (k'.getCr 1).getLsbD 1 = (k.getCr 1).getLsbD 1 ∧ (k'.getCr 1).extractLsb' 2 2 = 1 ∧ sameRegisters k k') ∧
    (wants true = true → (k.getCr 1).getLsbD 1 = true → (k.getCr 1).extractLsb' 2 2 ≠ 2 → (k.getCr 1).extractLsb' 2 2 ≠ 3 →
      shadowOk k = true →
      ∃ k' : Core, exec (.interruptFastEntry c forced) s = coreNext s c k' ∧
        k'.getCr 28 = (k.getCr 1 &&& 0x1F) ∧ k'.getCr 9 = k.pc.setWidth 32 ∧ k'.getCr 16 = 0 ∧ k'.getCr 17 = 0 ∧
        k'.pc = (k.getCr 6).setWidth 16 ∧ (k'.getCr 1).getLsbD 0 = false ∧ (k'.getCr 1).getLsbD 1 = false ∧
        (k'.getCr 1).extractLsb' 2 2 = 2 ∧ bankSwitched k k')

/-- R241: `sint n` sets SOFT on the core of rank n of the same job and half; for an n beyond the job's cores it sets SOFTERR on the
issuing core. -/
def Sys2Proof.Claims.softInterrupt : Prop :=
  ∀ (s : State) (loc : At) (n : BitVec 6), ready s.hw loc false = true → (s.hw.core loc.core).run = .job →
    let k := s.hw.core loc.core
    (k.cores ≤ n.toNat →
      exec (.sint loc n) s = coreNext s loc.core (ends (k.setCr 1 (k.getCr 1 ||| 0x100)) false)) ∧
    (∀ x : Fin 18, n.toNat < k.cores → x ≠ loc.core → (s.hw.core x).run = .job → (s.hw.core x).slot = k.slot →
      (s.hw.core x).job = k.job → (s.hw.core x).half = k.half → (s.hw.core x).rank = n.toNat →
      (∀ y : Fin 18, y ≠ x → ¬ ((s.hw.core y).run = .job ∧ (s.hw.core y).slot = k.slot ∧ (s.hw.core y).job = k.job ∧
        (s.hw.core y).half = k.half ∧ (s.hw.core y).rank = n.toNat)) →
      ∃ t : State, exec (.sint loc n) s = .next t ∧ coresNext s t (fun m =>
        if m = loc.core then ends k false
        else if m = x then (s.hw.core x).setCr 3 ((s.hw.core x).getCr 3 ||| 0x20) else s.hw.core m))

/-- R221, R289, R642: `halt` waits while a tag is BUSY; with none it ends the core's part of its run, and its tags, queue and waits
go. A diagnostic run halts with FTC_DBGPC at the next bundle. -/
def Obligations.HaltEndsRun : Prop :=
  ∀ (s : State) (loc : At), ready s.hw loc false = true →
    let k := s.hw.core loc.core
    ((∃ e ∈ k.tags, e.2 = TagState.busy) → exec (.halt loc) s = coreNext s loc.core { k with
        stall := some [⟨if loc.guard = 0 then 0 else 1, false, false, .halt, 64⟩] }) ∧
    ((∀ e ∈ k.tags, e.2 ≠ TagState.busy) →
      (∀ n : Fin 16, ∀ st quiet, Tbl.get TagState.free k.tags n = .done st quiet → st.getLsbD 30 = false ∨ quiet = true) →
      s.hw.wml.outs = [] → k.run = .job →
      (∃ a ∈ s.hw.col.plan.jobs, a.slot = k.slot ∧ a.job = k.job ∧ (∀ a' ∈ s.hw.col.plan.jobs, a'.slot = k.slot → a'.job = k.job → a' = a) ∧
        ∃ x ∈ a.cores ++ a.cores2, x ≠ loc.core.val ∧ (s.hw.core x).run = .job ∧ (s.hw.core x).slot = k.slot ∧
          (s.hw.core x).job = k.job) →
      exec (.halt loc) s = coreNext s loc.core { k with
        ran := true, run := .none, halted := true, tags := [], queue := [], waits := [], synWait := none, synEnded := false }) ∧
    ((∀ e ∈ k.tags, e.2 ≠ TagState.busy) →
      (∀ n : Fin 16, ∀ st quiet, Tbl.get TagState.free k.tags n = .done st quiet → st.getLsbD 30 = false ∨ quiet = true) →
      k.run = .diag →
      exec (.halt loc) s = coreNext s loc.core { (ends k false).dropBundle with
        run := .none, halted := true, dbgPc := (ends k false).pc })

/-- R642, R649: in READY, GO runs a halted core from FTC_DBGPC with no context, and HALT stops a diagnostic run at the bundle
boundary; a STEP whose bundle is one `nop` executes it and halts after it. -/
def Sys2Proof.Claims.debugControlsCore : Prop :=
  ∀ (s : State) (c : Fin 18), calm s.hw = true → s.hw.sys.state = .ready → s.hw.cpc.retired = [] →
    s.hw.reaches .pf (0xE000 + 0x10 * c.val) = true →
    let k := s.hw.core c
    (k.running = false → exec (.ftcDbgctlGo c) s = coreNext s c
      (({ k.dropBundle with run := .diag, halted := false, trapped := false, fetch := k.pm, slot := 0, job := 0 }).goto k.dbgPc)) ∧
    (k.run = .diag → k.vrun = none → exec (.ftcDbgctlHalt c) s = coreNext s c
      { k.dropBundle with run := .none, halted := true, dbgPc := k.pc }) ∧
    (k.running = false → k.vrun = none → Tbl.get 0 k.pm k.dbgPc.toNat = 0x1000 → k.dbgPc.toNat < 65535 →
      clean s.hw c (0x40000 + 2 * k.dbgPc.toNat) 2 = true → k.late = [] → k.lc0 = 0 → k.lc1 = 0 →
      ∃ t k', exec (.ftcDbgctlStep c) s = .next t ∧ t.hw.core c = k' ∧ k'.run = .none ∧ k'.halted = true ∧
        k'.dbgPc = k.dbgPc + 1 ∧ sameRegisters k k' ∧ coresNext s t (fun m => if m = c then k' else s.hw.core m))

/-- R205, R235, R247: a wake that a program caused ends with the unit ungated; a wake that an admission caused ends for its unit;
FTC_IPEND.TIMER is set when FTC_CYCLE[31:0] stands at FTC_TCMP. -/
def Sys2Proof.Claims.coreEvents : Prop :=
  ∀ (s : State) (c : Fin 18), calm s.hw = true →
    let k := s.hw.core c
    (k.waking = true →
      exec (.vectorUnitWake c) s = coreNext s c ({ k with waking := false }.setCr 1 (k.getCr 1 &&& ~~~0x20))) ∧
    (k.running = true → k.ran = true → k.getCr 26 = k.getCr 24 → s.hw.ticksRun = false →
      exec (.ftcTimerMatch c) s = coreNext s c (k.setCr 3 (k.getCr 3 ||| 0x40))) ∧
    (∀ u : Fin 22, s.hw.col.waking.contains u.val = true → s.hw.frm.lastTick + 352 ≤ s.hw.now →
      exec (.unitWakeReady u) s = hwNext s { s.hw with
        col := { s.hw.col with waking := s.hw.col.waking.filter (· ≠ u.val) } })

/-- R253, R254, R255: an instruction whose guard is false changes nothing but that its bundle ends; an instruction without the stop
bit joins its bundle. -/
def Sys2Proof.Claims.guardsAndBundles : Prop :=
  ∀ (s : State) (i : Instr) (loc : At) (op : CoreOp) (n : Nat), issued i = some (loc, op, n) → opLegal op = true →
    (unitOf op = .v → vectorOn s.hw loc.core = true) →
    let x := slotAt loc op n
    let k := s.hw.core loc.core
    (atBoundary s.hw loc x.long = true → guardHolds k loc x.long = false →
      exec i s = coreNext s loc.core (ends k x.long)) ∧
    (loc.stop = false → calm s.hw = true → k.running = true → k.vrun = none → k.slots.length < 3 →
      k.pc.toNat + lengthOf (k.slots ++ [x]) ≤ 65536 →
      exec i s = coreNext s loc.core { k with slots := k.slots ++ [x] })

/-- R253 to R256: a bundle whose second instruction writes a register that the first writes, or uses its unit, traps ILLEGAL_BUNDLE; one with a reserved field value traps ILLEGAL; whatever the guards. -/
def Sys2Proof.Claims.malformedBundleTraps : Prop :=
  ∀ (s : State) (i : Instr) (loc : At) (op : CoreOp) (n : Nat) (y : Slot), issued i = some (loc, op, n) →
    let x := slotAt loc op n
    let k := s.hw.core loc.core
    calm s.hw = true → s.hw.wml.outs = [] → k.running = true → k.vrun = none → hasHandler k = true → pendingOk k = true → loc.stop = true →
    k.slots = [y] → k.pc.toNat + lengthOf [y, x] ≤ 65536 →
    clean s.hw loc.core (0x40000 + 2 * k.pc.toNat) (2 * lengthOf [y, x]) = true →
    ((opLegal y.op = false ∨ opLegal op = false) →
      ∃ k' : Core, exec i s = coreNext s loc.core k' ∧ trapEntered k k' 1 k.pc.toNat) ∧
    (opLegal y.op = true → opLegal op = true →
      (unitOf y.op = unitOf op ∨ ∃ d ∈ destsOf y.op, d ∈ destsOf op) →
      ∃ k' : Core, exec i s = coreNext s loc.core k' ∧ trapEntered k k' 2 k.pc.toNat)


/-! ### Fintoic cores: loads and stores, address registers, Bastaef tags, counters and the signal unit (10 R280 to R291, 16 R436
to R439) -/

namespace Sys2Proof.Claims

/-- The byte of a core's X or Y memory at a core address below 0x8000_0000 (R224). -/
def ownByte (k : Core) (a : Nat) : Byte :=
  if a / 0x20000 % 2 = 0 then Tbl.get 0 k.x (a % 0x20000) else Tbl.get 0 k.y (a % 0x20000)

/-- The same byte written. -/
def ownSet (k : Core) (a : Nat) (b : Byte) : Core :=
  if a / 0x20000 % 2 = 0 then { k with x := Tbl.set 0 k.x (a % 0x20000) b } else { k with y := Tbl.set 0 k.y (a % 0x20000) b }

/-- `n` bytes from an address, least significant first (R5). -/
def ownValue (k : Core) (a n : Nat) : Nat := ((List.range n).map (fun i => (ownByte k (a + i)).toNat * 256 ^ i)).sum

/-- `n` bytes of a value stored from an address on. -/
def ownStore (k : Core) (a n v : Nat) : Core := (List.range n).foldl (fun k i => ownSet k (a + i) (BitVec.ofNat 8 (v / 256 ^ i))) k

/-- The core address of a load or store, by its MODE (R271). -/
def formAddr (k : Core) : AddrForm → Word
  | .plain g => k.getG g
  | .post g _ => k.getG g
  | .indexed g m => k.getG g + k.getM m

/-- The g register that a POST access leaves. -/
def formPost (k : Core) : AddrForm → Core
  | .plain _ => k
  | .post g m => k.putG g (k.getG g + k.getM m)
  | .indexed _ _ => k

/-- The short GM forms: one N names both g and m (R280). -/
def wordForm (loc : At) : AddrForm → AddrForm
  | .post g m => if loc.long then .post g m else .post g (Fin.ofNat 8 g.val)
  | m => m

/-- Whether a word access is long: as its command says, but INDEXED has no short form (R269, R280). -/
def wordLong (loc : At) : AddrForm → Bool
  | .indexed _ _ => true
  | _ => loc.long

/-- The loads: form, size, and the register value of the bytes (R281). -/
def loadRows (loc : At) (r : Fin 32) (m : AddrForm) : List (Instr × Bool × AddrForm × Nat × (Nat → Word)) :=
  [(.ldB loc r m, true, m, 1, fun v => (BitVec.ofNat 8 v).signExtend 32),
   (.ldBu loc r m, true, m, 1, fun v => (BitVec.ofNat 8 v).setWidth 32),
   (.ldH loc r m, true, m, 2, fun v => (BitVec.ofNat 16 v).signExtend 32),
   (.ldHu loc r m, true, m, 2, fun v => (BitVec.ofNat 16 v).setWidth 32),
   (.ldW loc r m, wordLong loc m, wordForm loc m, 4, fun v => BitVec.ofNat 32 v)]

/-- The stores: form and size (R281). -/
def storeRows (loc : At) (r : Fin 32) (m : AddrForm) : List (Instr × Bool × AddrForm × Nat) :=
  [(.stB loc r m, true, m, 1), (.stH loc r m, true, m, 2), (.stW loc r m, wordLong loc m, wordForm loc m, 4)]

/-- An aligned access to X or Y memory without a memory error. -/
def ownAccess (h : Hw) (c : Nat) (a : Word) (n : Nat) : Bool :=
  !a.msb && decide (a.toNat % n = 0) && clean h c (a.toNat % 0x40000) n

/-- Copies and sums of address registers (R280): form, and the core they leave. -/
def addressRows (k : Core) (loc : At) (g : Fin 16) (m : Fin 8) (r : Fin 32) (n : BitVec 10) : List (Instr × Bool × Core) :=
  [(.adda loc g (.imm n), true, k.putG g (k.getG g + n.signExtend 32)),
   (.adda loc g (.modifier m), false, k.putG g (k.getG g + k.getM m)),
   (.movG loc g r, true, k.putG g (k.getS r)),
   (.movS loc r g, true, k.putS r (k.getG g)),
   (.movM loc m r, true, k.putM m (k.getS r))]

/-- The context virtual address of a window address (R224). -/
def windowAddress (k : Core) (a : Word) : Nat :=
  ((k.getCr (20 + (a.extractLsb' 29 2).toNat)).extractLsb' 0 19).toNat * 2 ^ 29 + (a.extractLsb' 0 29).toNat

/-- A 64-bit value in the register pair that `sb` names. -/
def pairOf (k : Core) (b : Fin 32) : Dword := (k.getS (b.val + 1)) ++ (k.getS b)

/-- A value held in the signed range of `n` bits (R286). -/
def satTo (n : Nat) (v : Int) : Int := max (-(2 ^ (n - 1))) (min (2 ^ (n - 1) - 1) v)

/-- The accumulator width W, and the operand width, of FTC_CTL.DSPM (R284). -/
def widthW (k : Core) : Nat := if (k.getCr 0).getLsbD 1 then 56 else 40
def operandOf (k : Core) (r : Fin 32) : Int :=
  if (k.getCr 0).getLsbD 1 then ((k.getS r).setWidth 24).toInt else ((k.getS r).setWidth 16).toInt

/-- The signal instructions that write an accumulator, on register operands: form and new value (R286). -/
def signalRows (k : Core) (loc : At) (n m : Fin 4) (a b : Fin 32) (u : BitVec 6) : List (Instr × Bool × Int) :=
  let x := operandOf k a
  let y := operandOf k b
  let w := widthW k
  [(.macR loc n a b, loc.long, satTo w (k.getA n + x * y)),
   (.msuR loc n a b, loc.long, satTo w (k.getA n - x * y)),
   (.mpyR loc n a b, true, x * y),
   (.movA loc n a, true, (k.getS a).toInt),
   (.addacc loc n m, true, satTo w (k.getA n + k.getA m)),
   (.subacc loc n m, true, satTo w (k.getA n - k.getA m)),
   (.shla loc n u, true, if u.msb then k.getA n / 2 ^ (-u.toInt).toNat else satTo w (k.getA n * 2 ^ u.toNat)),
   (.clr loc n, false, 0)]

/-- A signal memory operand in X (`y` false) or Y memory at g[16:0] (R285). -/
def signalOperand (k : Core) (y : Bool) (g : Word) : Int :=
  let a := g.toNat % 0x20000 + if y then 0x20000 else 0
  if (k.getCr 0).getLsbD 1 then (BitVec.ofNat 24 (ownValue k a 4)).toInt else (BitVec.ofNat 16 (ownValue k a 2)).toInt

/-- The dual-fetch instructions with SRC XY (R285, R286). -/
def dualRows (k : Core) (loc : At) (x : Dual) : List (Instr × Int) :=
  let p := signalOperand k false (k.getG x.gx) * signalOperand k true (k.getG (8 + x.gy.val))
  let a := k.getA x.acc
  [(.mac loc x, satTo (widthW k) (a + p)), (.msu loc x, satTo (widthW k) (a - p)), (.mpy loc x, p)]

end Sys2Proof.Claims

/-- R224, R271, R280, R281: an aligned load from X or Y memory puts the bytes, extended, into its register, POST moves its g
register, and nothing else changes. -/
def Sys2Proof.Claims.loadReadsOwnMemory : Prop :=
  ∀ (s : State) (loc : At) (r : Fin 32) (m : AddrForm), ∀ x ∈ loadRows loc r m,
    let k := s.hw.core loc.core
    let a := formAddr k x.2.2.1
    ready s.hw loc x.2.1 = true → ownAccess s.hw loc.core a x.2.2.2.1 = true →
    exec x.1 s = coreNext s loc.core
      (ends (formPost (k.putS r (x.2.2.2.2 (ownValue k (a.toNat % 0x40000) x.2.2.2.1))) x.2.2.1) x.2.1)

/-- R224, R271, R280, R281: an aligned store to X or Y memory writes the low bytes of its register there, POST moves its g
register, and nothing else changes, no other byte of any memory among it. -/
def Sys2Proof.Claims.storeWritesOwnMemory : Prop :=
  ∀ (s : State) (loc : At) (r : Fin 32) (m : AddrForm), ∀ x ∈ storeRows loc r m,
    let k := s.hw.core loc.core
    let a := formAddr k x.2.2.1
    ready s.hw loc x.2.1 = true → ownAccess s.hw loc.core a x.2.2.2 = true →
    exec x.1 s = coreNext s loc.core
      (ends (ownStore (formPost k x.2.2.1) (a.toNat % 0x40000) x.2.2.2 (k.getS r).toNat) x.2.1)

/-- R280: `adda` and the moves between the g, m and s registers. -/
def Sys2Proof.Claims.addressRegisterMoves : Prop :=
  ∀ (s : State) (loc : At) (g : Fin 16) (m : Fin 8) (r : Fin 32) (n : BitVec 10),
    ∀ x ∈ addressRows (s.hw.core loc.core) loc g m r n,
      ready s.hw loc x.2.1 = true → exec x.1 s = coreNext s loc.core (ends x.2.2 x.2.1)

/-- R289 to R293: `bq.issue` queues a command with its window address and makes its tag BUSY; `bq.poll` reads the state; `bq.wait` and
`bq.stat` take the status of a DONE tag and free it; a FREE tag reads 0; `bq.wait` stalls on a BUSY tag and `bq.stat` reads 0. -/
def Sys2Proof.Claims.bastaefTagInstructions : Prop :=
  ∀ (s : State) (loc : At) (tag : Fin 16) (d a b : Fin 32), ready s.hw loc true = true →
    let k := s.hw.core loc.core
    let state := Tbl.get TagState.free k.tags tag
    (k.run = .job → state ≠ .busy → (k.getS a).msb = true → (k.getS a).toNat % 64 = 0 →
      exec (.bqIssue loc tag a b) s = coreNext s loc.core (ends { k with
        tags := Tbl.set .free k.tags tag .busy
        queue := k.queue ++ [⟨tag, windowAddress k (k.getS a), k.getS b, k.orders, Tbl.get 0 k.tagIssues tag⟩]
        orders := k.orders + 1
        tagIssues := Tbl.set 0 k.tagIssues tag (Tbl.get 0 k.tagIssues tag + 1) } true)) ∧
    exec (.bqPoll loc d tag) s = coreNext s loc.core (ends (k.putS d
      (match state with | .free => 0 | .busy => 1 | .done _ _ => 2)) true) ∧
    (∀ st quiet, state = .done st quiet → (st.getLsbD 30 = false ∨ quiet = true) →
      exec (.bqWait loc d tag) s =
        coreNext s loc.core (ends { k.putS d st with tags := Tbl.set .free k.tags tag .free } true) ∧
      exec (.bqStat loc d tag) s =
        coreNext s loc.core (ends { k.putS d st with tags := Tbl.set .free k.tags tag .free } true)) ∧
    (state = .free → exec (.bqWait loc d tag) s = coreNext s loc.core (ends (k.putS d 0) true) ∧
      exec (.bqStat loc d tag) s = coreNext s loc.core (ends (k.putS d 0) true)) ∧
    (state = .busy → exec (.bqStat loc d tag) s = coreNext s loc.core (ends (k.putS d 0) true) ∧
      exec (.bqWait loc d tag) s = coreNext s loc.core
        { k with stall := some [⟨loc.guard, loc.neg, true, .bqWait d tag, 64⟩] })

/-- R436, R438, R439: on a counter of the core's own context, `syn.sig` adds its increment; `syn.wait` goes on when the target is
reached and stalls its bundle when not; `syn.arm` sets SYN when it is reached and arms an entry when not. -/
def Sys2Proof.Claims.counterInstructions : Prop :=
  ∀ (s : State) (loc : At) (a b : Fin 32) (n : Fin 16384), ready s.hw loc true = true →
    let k := s.hw.core loc.core
    let c := s.hw.counter n
    k.run = .job → k.getS a = BitVec.ofNat 32 n.val → c.state = .owned → c.slot = k.slot →
    k.waits = [] → k.synWait = none → k.synEnded = false →
    (c.value.toNat + (pairOf k b).toNat < 2 ^ 64 →
      ∃ t : State, exec (.synSig loc a b) s = .next t ∧ (t.hw.counter n).value = c.value + pairOf k b ∧
        (∀ m, m ≠ n.val → t.hw.counter m = s.hw.counter m) ∧ t.hw.core loc.core = ends k true) ∧
    (b.val % 2 = 0 → pairOf k b ≤ c.value →
      exec (.synWaitInstr loc a b) s = coreNext s loc.core (ends k true) ∧
      exec (.synArm loc a b) s = coreNext s loc.core (ends (k.setCr 3 (k.getCr 3 ||| 0x2)) true)) ∧
    (b.val % 2 = 0 → c.value < pairOf k b →
      exec (.synWaitInstr loc a b) s = coreNext s loc.core { k with
        synWait := some (k.getS a, pairOf k b), stall := some [⟨loc.guard, loc.neg, true, .synWait a b, 64⟩] } ∧
      exec (.synArm loc a b) s = coreNext s loc.core (ends { k with waits := [⟨k.getS a, pairOf k b⟩] } true))

/-- R284 to R286: the signal instructions on registers compute exactly and saturate to the accumulator's width. -/
def Sys2Proof.Claims.signalResultWritten : Prop :=
  ∀ (s : State) (loc : At) (n m : Fin 4) (a b : Fin 32) (u : BitVec 6),
    ∀ x ∈ signalRows (s.hw.core loc.core) loc n m a b u, ready s.hw loc x.2.1 = true →
      exec x.1 s = coreNext s loc.core (ends ((s.hw.core loc.core).putA n x.2.2) x.2.1)

/-- R287: `sat.a` rounds to nearest with halves upward, shifts, saturates to 16 or 24 bits and sign-extends. -/
def Sys2Proof.Claims.saturateRounds : Prop :=
  ∀ (s : State) (loc : At) (d : Fin 32) (n : Fin 4) (u : BitVec 5), ready s.hw loc true = true →
    let k := s.hw.core loc.core
    let ow := if (k.getCr 0).getLsbD 1 then 24 else 16
    let r := if u = 0 then k.getA n else (k.getA n + 2 ^ (u.toNat - 1)) / 2 ^ u.toNat
    exec (.satA loc d n u) s = coreNext s loc.core (ends (k.putS d (BitVec.ofInt 32 (satTo ow r))) true)

/-- R285, R286: a dual fetch reads X at gx and Y at gy, computes, and moves both g registers by their modifiers. -/
def Sys2Proof.Claims.dualFetchResult : Prop :=
  ∀ (s : State) (loc : At) (x : Dual), x.src = .xy → ready s.hw loc true = true →
    let k := s.hw.core loc.core
    let gx := k.getG x.gx
    let gy := k.getG (8 + x.gy.val)
    let n := if (k.getCr 0).getLsbD 1 then 4 else 2
    gx.toNat % n = 0 → gy.toNat % n = 0 → clean s.hw loc.core (gx.toNat % 0x20000) n = true →
    clean s.hw loc.core (gy.toNat % 0x20000 + 0x20000) n = true →
    ∀ r ∈ dualRows k loc x,
      exec r.1 s = coreNext s loc.core (ends
        (((k.putG x.gx (gx + k.getM x.mx)).putG (8 + x.gy.val) (gy + k.getM (4 + x.my.val))).putA x.acc r.2) true)


/-! ### Fintoic cores: the vector unit (11) -/

namespace Sys2Proof.Claims

/-- Halfword lane `i` and byte lane `j` of a vector, as bits (R295). -/
def lane16 (v : Vec) (i : Nat) : BitVec 16 := v.extractLsb' (16 * i) 16
def lane8 (v : Vec) (j : Nat) : BitVec 8 := v.extractLsb' (8 * j) 8

/-- Lane `i` of a vector accumulator (R295). -/
def lane48 (w : BitVec 3072) (i : Nat) : BitVec 48 := w.extractLsb' (48 * i) 48

/-- A signed value saturated to 16 bits. -/
def sat16 (v : Int) : BitVec 16 := BitVec.ofInt 16 (satTo 16 v)

/-- The element-wise operations on halfword lanes (R298): instruction, and its lane result. -/
def halfRows (loc : At) (d a b : Fin 32) : List (Instr × (BitVec 16 → BitVec 16 → BitVec 16)) :=
  [(.vaddH loc d a b, fun x y => x + y),
   (.vsubH loc d a b, fun x y => x - y),
   (.vaddsH loc d a b, fun x y => sat16 (x.toInt + y.toInt)),
   (.vsubsH loc d a b, fun x y => sat16 (x.toInt - y.toInt)),
   (.vmulH loc d a b, fun x y => sat16 ((x.toInt * y.toInt + 2 ^ 14) / 2 ^ 15)),
   (.vminH loc d a b, fun x y => if x.toInt < y.toInt then x else y),
   (.vmaxH loc d a b, fun x y => if x.toInt < y.toInt then y else x)]

/-- The masked forms (R300): lane results as those of R298. -/
def maskedRows (loc : At) (d b : Fin 32) (k : Fin 8) (z : Bool) : List (Instr × (BitVec 16 → BitVec 16 → BitVec 16)) :=
  [(.vaddHM loc d b k z, fun x y => x + y),
   (.vsubHM loc d b k z, fun x y => x - y),
   (.vaddsHM loc d b k z, fun x y => sat16 (x.toInt + y.toInt)),
   (.vmulHM loc d b k z, fun x y => sat16 ((x.toInt * y.toInt + 2 ^ 14) / 2 ^ 15))]

/-- The lane shifts (R299). -/
def shiftRows (loc : At) (d a : Fin 32) (n : BitVec 4) : List (Instr × (BitVec 16 → BitVec 16)) :=
  [(.vshlH loc d a n, fun x => sat16 (x.toInt * 2 ^ n.toNat)),
   (.vshrH loc d a n, fun x => x.sshiftRight n.toNat),
   (.vshrrH loc d a n, fun x =>
     if n = 0 then x else BitVec.ofInt 16 ((x.toInt + 2 ^ (n.toNat - 1)) / 2 ^ n.toNat))]

/-- The multiply-accumulates (R301), on an accumulator lane and two lanes. -/
def multiplyRows (loc : At) (w : Fin 4) (a b : Fin 32) : List (Instr × (Int → Int → Int → Int)) :=
  [(.vmacH loc w a b, fun c x y => satTo 48 (c + x * y)),
   (.vmsuH loc w a b, fun c x y => satTo 48 (c - x * y)),
   (.vmpyH loc w a b, fun _ x y => x * y),
   (.vclr loc w, fun _ _ _ => 0)]

/-- The compares into a mask (R303). -/
def compareRows (loc : At) (kd : Fin 8) (a b : Fin 32) : List (Instr × (Int → Int → Bool)) :=
  [(.vcmpeqH loc kd a b, fun x y => decide (x = y)),
   (.vcmpltH loc kd a b, fun x y => decide (x < y)),
   (.vcmpleH loc kd a b, fun x y => decide (x ≤ y))]

/-- The operations on whole registers (R298, R303): form, and the core they leave. -/
def wholeRows (k : Core) (loc : At) (d a b : Fin 32) (kd ka kb : Fin 8) : List (Instr × Bool × Core) :=
  [(.vand loc d a b, true, k.putV d (k.getV a &&& k.getV b)),
   (.vor loc d a b, true, k.putV d (k.getV a ||| k.getV b)),
   (.vxor loc d a b, true, k.putV d (k.getV a ^^^ k.getV b)),
   (.vmov loc d a, false, k.putV d (k.getV a)),
   (.kand loc kd ka kb, true, k.putK kd (k.getK ka &&& k.getK kb)),
   (.kor loc kd ka kb, true, k.putK kd (k.getK ka ||| k.getK kb)),
   (.knot loc kd ka, true, k.putK kd (~~~ k.getK ka)),
   (.vext loc d a b, true, k.putS d ((lane16 (k.getV a) ((k.getS b).toNat % 64)).signExtend 32))]

/-- The lanes of a vector in order, signed. -/
def lanesOf (v : Vec) : List Int := (List.range 64).map (fun i => (lane16 v i).toInt)

/-- The lowest lane that holds the least, or greatest, value of the lanes. -/
def bestLane (min : Bool) (v : Vec) (e : Fin 64) : Prop :=
  ∀ i : Fin 64, (if min then (lane16 v e).toInt ≤ (lane16 v i).toInt else (lane16 v i).toInt ≤ (lane16 v e).toInt) ∧
    (i < e → lane16 v i ≠ lane16 v e)

/-- Core addresses of the 64 elements of a `vld` or `vst` (R304), and of the indexed instructions (R308). -/
def strideAddr (base : Word) (e : Nat) : Nat := base.toNat + 2 * e
def indexAddr (base : Word) (vi : Vec) (e : Nat) : Nat := base.toNat + 2 * (lane16 vi e).toNat

/-- Every element lies in X or Y memory, whose granules there have no error. -/
def ownElements (h : Hw) (c : Nat) (addr : Nat → Nat) : Bool :=
  (List.range 64).all (fun e => decide (addr e < 2 ^ 31) && decide (addr e % 2 = 0) && clean h c (addr e % 0x40000) 2)

/-- The halfword of X or Y memory at an address. -/
def ownHalf (k : Core) (a : Nat) : BitVec 16 := BitVec.ofNat 16 (ownValue k (a % 0x40000) 2)

/-- The registers other than vectors, and all memory, are as before. -/
def onlyVector (k k' : Core) (d : Nat) : Prop :=
  (∀ i : Nat, i ≠ d → k'.getV i = k.getV i) ∧ k'.s = k.s ∧ k'.p = k.p ∧ k'.m = k.m ∧ k'.a = k.a ∧ k'.k = k.k ∧ k'.w = k.w ∧
  k'.x = k.x ∧ k'.y = k.y ∧ k'.cr = k.cr ∧ k'.pc = k.pc

end Sys2Proof.Claims

/-- R298, R299, R300, R301, R303: every element-wise vector instruction writes each lane's result to its destination and changes
nothing else. -/
def Sys2Proof.Claims.vectorLanesWritten : Prop :=
  ∀ (s : State) (loc : At) (d a b : Fin 32) (kk : Fin 8) (z : Bool) (n : BitVec 4) (w : Fin 4),
    ready s.hw loc true = true → vectorOn s.hw loc.core = true →
    let k := s.hw.core loc.core
    (∀ r ∈ halfRows loc d a b, ∃ v : Vec, exec r.1 s = coreNext s loc.core (ends (k.putV d v) true) ∧
      ∀ i : Fin 64, lane16 v i = r.2 (lane16 (k.getV a) i) (lane16 (k.getV b) i)) ∧
    (∀ r ∈ maskedRows loc d b kk z, ∃ v : Vec, exec r.1 s = coreNext s loc.core (ends (k.putV d v) true) ∧
      ∀ i : Fin 64, lane16 v i = if (k.getK kk).getLsbD (2 * i) then r.2 (lane16 (k.getV d) i) (lane16 (k.getV b) i)
        else if z then 0 else lane16 (k.getV d) i) ∧
    (∀ r ∈ shiftRows loc d a n, ∃ v : Vec, exec r.1 s = coreNext s loc.core (ends (k.putV d v) true) ∧
      ∀ i : Fin 64, lane16 v i = r.2 (lane16 (k.getV a) i)) ∧
    (∀ r ∈ multiplyRows loc w a b, ∃ v : BitVec 3072, exec r.1 s = coreNext s loc.core (ends (k.putW w v) true) ∧
      ∀ i : Fin 64, (lane48 v i).toInt = r.2 (lane48 (k.getW w) i).toInt (lane16 (k.getV a) i).toInt (lane16 (k.getV b) i).toInt) ∧
    (∀ r ∈ compareRows loc kk a b, ∃ v : BitVec 128, exec r.1 s = coreNext s loc.core (ends (k.putK kk v) true) ∧
      ∀ i : Fin 64, v.getLsbD (2 * i) = r.2 (lane16 (k.getV a) i).toInt (lane16 (k.getV b) i).toInt ∧
        v.getLsbD (2 * i + 1) = r.2 (lane16 (k.getV a) i).toInt (lane16 (k.getV b) i).toInt)

/-- R298, R300, R302, R303: the byte-lane, whole-register, narrowing and broadcasting vector instructions. -/
def Sys2Proof.Claims.vectorRegistersWritten : Prop :=
  ∀ (s : State) (loc : At) (d a b : Fin 32) (kd ka kb : Fin 8) (z : Bool) (w : Fin 4) (u : BitVec 5),
    vectorOn s.hw loc.core = true →
    let k := s.hw.core loc.core
    (∀ r ∈ wholeRows k loc d a b kd ka kb, ready s.hw loc r.2.1 = true → exec r.1 s = coreNext s loc.core (ends r.2.2 r.2.1)) ∧
    (ready s.hw loc true = true →
      (∃ v : Vec, exec (.vaddB loc d a b) s = coreNext s loc.core (ends (k.putV d v) true) ∧
        ∀ j : Fin 128, lane8 v j = lane8 (k.getV a) j + lane8 (k.getV b) j) ∧
      (∃ v : Vec, exec (.vaddsB loc d a b) s = coreNext s loc.core (ends (k.putV d v) true) ∧
        ∀ j : Fin 128, lane8 v j = BitVec.ofInt 8 (satTo 8 ((lane8 (k.getV a) j).toInt + (lane8 (k.getV b) j).toInt))) ∧
      (∃ v : Vec, exec (.vmovM loc d b kd z) s = coreNext s loc.core (ends (k.putV d v) true) ∧
        ∀ j : Fin 128, lane8 v j = if (k.getK kd).getLsbD j then lane8 (k.getV b) j else if z then 0 else lane8 (k.getV d) j) ∧
      (∃ v : Vec, exec (.vnarrow loc d w u) s = coreNext s loc.core (ends (k.putV d v) true) ∧
        ∀ i : Fin 64, lane16 v i = sat16 (if u = 0 then (lane48 (k.getW w) i).toInt
          else ((lane48 (k.getW w) i).toInt + 2 ^ (u.toNat - 1)) / 2 ^ u.toNat)) ∧
      (∃ v : Vec, exec (.vbcast loc d a) s = coreNext s loc.core (ends (k.putV d v) true) ∧
        ∀ i : Fin 64, lane16 v i = (k.getS a).setWidth 16))

/-- R313, R314, R319: the reductions leave their result in sd (and the lowest lane that holds it in s(d+1)); a stream search leaves the
best value, its stream position and the position advanced by 64. -/
def Obligations.ReductionResult : Prop :=
  ∀ (s : State) (loc : At) (d a : Fin 32), ready s.hw loc true = true → vectorOn s.hw loc.core = true →
    let k := s.hw.core loc.core
    let l := lanesOf (k.getV a)
    (exec (.vredsumH loc d a 64) s = coreNext s loc.core (ends (k.putS d (BitVec.ofInt 32 l.sum)) true)) ∧
    (∃ v : Int, exec (.vredminH loc d a 64) s = coreNext s loc.core (ends (k.putS d (BitVec.ofInt 32 v)) true) ∧
      v ∈ l ∧ ∀ x ∈ l, v ≤ x) ∧
    (∃ v : Int, exec (.vredmaxH loc d a 64) s = coreNext s loc.core (ends (k.putS d (BitVec.ofInt 32 v)) true) ∧
      v ∈ l ∧ ∀ x ∈ l, x ≤ v) ∧
    (d.val % 2 = 0 → ∃ (k' : Core) (e : Fin 64), exec (.vminidxH loc d a 64) s = coreNext s loc.core (ends k' true) ∧
      bestLane true (k.getV a) e ∧ k'.getS d = (lane16 (k.getV a) e).signExtend 32 ∧ k'.getS (d.val + 1) = BitVec.ofNat 32 e.val ∧
      (∀ i, i ≠ d.val → i ≠ d.val + 1 → k'.getS i = k.getS i) ∧ k'.v = k.v ∧ k'.p = k.p ∧ k'.cr = k.cr ∧ k'.pc = k.pc) ∧
    (d.val % 2 = 0 → ∃ (k' : Core) (e : Fin 64), exec (.vmaxidxH loc d a 64) s = coreNext s loc.core (ends k' true) ∧
      bestLane false (k.getV a) e ∧ k'.getS d = (lane16 (k.getV a) e).signExtend 32 ∧ k'.getS (d.val + 1) = BitVec.ofNat 32 e.val ∧
      (∀ i, i ≠ d.val → i ≠ d.val + 1 → k'.getS i = k.getS i) ∧ k'.v = k.v ∧ k'.p = k.p ∧ k'.cr = k.cr ∧ k'.pc = k.pc) ∧
    (d ≠ a → lane16 (k.getV d) 1 = 0 → ∀ r ∈ [(Instr.vsminIdx loc d a 64, true), (Instr.vsmaxIdx loc d a 64, false)],
      ∃ (v : Vec) (e : Fin 64), exec r.1 s = coreNext s loc.core (ends (k.putV d v) true) ∧ bestLane r.2 (k.getV a) e ∧
        lane16 v 0 = lane16 (k.getV a) e ∧ lane16 v 1 = 1 ∧
        v.extractLsb' 32 32 = (k.getV d).extractLsb' 64 32 + BitVec.ofNat 32 e.val ∧
        v.extractLsb' 64 32 = (k.getV d).extractLsb' 64 32 + 64 ∧ ∀ i : Fin 64, 6 ≤ i.val → lane16 v i = lane16 (k.getV d) i)

/-- R304, R305, R308: vector loads and gathers put the halfword at each element's address into its lane. -/
def Sys2Proof.Claims.vectorLoadsFillLanes : Prop :=
  ∀ (s : State) (loc : At) (v vi : Fin 32) (m : AddrForm) (g : Fin 16),
    ready s.hw loc true = true → vectorOn s.hw loc.core = true →
    let k := s.hw.core loc.core
    (ownElements s.hw loc.core (strideAddr (formAddr k m)) = true →
      ∃ x : Vec, exec (.vld loc v m 64) s = coreNext s loc.core (ends (formPost (k.putV v x) m) true) ∧
        ∀ e : Fin 64, lane16 x e = ownHalf k (strideAddr (formAddr k m) e)) ∧
    (ownElements s.hw loc.core (indexAddr (k.getG g) (k.getV vi)) = true →
      ∃ k' : Core, exec (.vgatherH loc v vi g 64) s = coreNext s loc.core (ends k' true) ∧ onlyVector k k' v ∧ k'.g = k.g ∧
        ∀ e : Fin 64, lane16 (k'.getV v) e = ownHalf k (indexAddr (k.getG g) (k.getV vi) e))

/-- R304, R305, R308, R309: vector stores and scatters write each lane to its element's address, the higher-numbered element
standing where two share one; `vrmw.add.h` adds every lane to the halfword at its address; no other byte changes. -/
def Sys2Proof.Claims.vectorStoresWriteElements : Prop :=
  ∀ (s : State) (loc : At) (v vi : Fin 32) (m : AddrForm) (g : Fin 16),
    ready s.hw loc true = true → vectorOn s.hw loc.core = true →
    let k := s.hw.core loc.core
    let rows : List (Instr × (Nat → Nat) × Core) :=
      [(.vst loc v m 64, strideAddr (formAddr k m), formPost k m), (.vscatterH loc v vi g 64, indexAddr (k.getG g) (k.getV vi), k)]
    (∀ r ∈ rows, ownElements s.hw loc.core r.2.1 = true →
      ∃ k' : Core, exec r.1 s = coreNext s loc.core (ends k' true) ∧ { k' with x := k.x, y := k.y } = r.2.2 ∧
        (∀ e : Fin 64, (∀ f : Fin 64, e < f → r.2.1 f % 0x40000 ≠ r.2.1 e % 0x40000) →
          ownHalf k' (r.2.1 e) = lane16 (k.getV v) e) ∧
        (∀ o < 0x40000, (∀ e : Fin 64, o ≠ r.2.1 e % 0x40000 ∧ o ≠ r.2.1 e % 0x40000 + 1) → ownByte k' o = ownByte k o)) ∧
    (ownElements s.hw loc.core (indexAddr (k.getG g) (k.getV vi)) = true →
      let at_ := indexAddr (k.getG g) (k.getV vi)
      ∃ k' : Core, exec (.vrmwAddH loc v vi g 64) s = coreNext s loc.core (ends k' true) ∧
        { k' with x := k.x, y := k.y } = k ∧
        (∀ e : Fin 64, (ownHalf k' (at_ e)).toNat = ((ownHalf k (at_ e)).toNat +
          (((List.range 64).filter (fun f => at_ f % 0x40000 = at_ e % 0x40000)).map (fun f => (lane16 (k.getV v) f).toNat)).sum)
            % 65536) ∧
        (∀ o < 0x40000, (∀ e : Fin 64, o ≠ at_ e % 0x40000 ∧ o ≠ at_ e % 0x40000 + 1) → ownByte k' o = ownByte k o))

/-- R242, R243: a multi-element instruction stopped after `n` elements keeps them; the interrupt entry then saves ELEM, VALID and
MODE: in resume mode the next element, in restart mode element 0 for an instruction that is not interrupt-atomic. -/
def Obligations.InterruptedVectorInstruction : Prop :=
  ∀ (s : State) (loc : At) (d a : Fin 32) (n : Nat), n < 64 → ready s.hw loc true = true → vectorOn s.hw loc.core = true →
    s.hw.wml.outs = [] →
    let k := s.hw.core loc.core
    pendingOk k = true → (k.getCr 1).getLsbD 4 = false → (k.getCr 1).getLsbD 0 = true → (k.getCr 1).extractLsb' 2 2 = 0 →
    k.getCr 3 &&& k.getCr 2 &&& ~~~ k.getCr 4 &&& 0x7F ≠ 0 → k.getCr 3 &&& k.getCr 2 &&& k.getCr 4 &&& 0x7F = 0 →
    ∃ t k1 k2, exec (.vredsumH loc d a n) s = .next t ∧ t = { s with hw := s.hw.setCore loc.core k1 } ∧
      k1.pc = k.pc ∧ k1.vrun.map (·.elem) = some n ∧
      (0 < n → k1.getS d = BitVec.ofInt 32 ((lanesOf (k.getV a)).take n).sum) ∧
      exec (.interruptNormalEntry loc.core false) t = coreNext t loc.core k2 ∧
      k2.getCr 8 = k.pc.setWidth 32 ∧ k2.pc = (k.getCr 5).setWidth 16 ∧
      k2.getCr 14 = (if (k.getCr 0).getLsbD 0 then BitVec.ofNat 32 (n + 0x180) else 0x80) ∧ k2.getS d = k1.getS d


/-! ### The block as a whole: the queue, reset, memory and encoding -/

namespace Sys2Proof.Claims

/-- The command leaves a next state whose hardware satisfies `P`; the queue is as it was. -/
def leaves (s : State) (i : Instr) (P : Hw → Prop) : Prop := ∃ h : Hw, exec i s = .next { s with hw := h } ∧ P h

/-- The command changes nothing. -/
def idles (s : State) (i : Instr) : Prop := exec i s = .next s

/-- Registers of the register space and what they hold after power-up (02 R56, 07 R214 to R218, 13 R374, 17 R482, R483, 20 R567,
R568). -/
def resetWords : List (Nat × Word) :=
  [(0x1008, 1), (0x100C, 1000000), (0x1014, 1000000000), (0x1004, 0), (0x9004, 150000), (0xB004, 170000), (0xA000, 1600),
   (0xA004, 1760), (0xA008, 400), (0xA00C, 8000), (0xA010, 2000), (0x1D000, 0x110), (0x11000, 1), (0x21028, 1000),
   (0x22024, 16), (0x1F048, 10), (0x2000008, 13000), (0x20028, 7280)]

/-- Words of Fintoic instructions, written out from the encoding tables of chapter 09: first parcel, second parcel, and the
slot (R252 to R271). -/
def encodedWords : List (BitVec 14 × BitVec 14 × Slot) :=
  [(0b00000000000000, 0, ⟨0, false, false, .nop, 64⟩),
   (0b01000001000000, 0, ⟨0, false, false, .halt, 64⟩),
   (0b01100010011101, 0, ⟨1, false, false, .alu .add 3 3 5, 64⟩),
   (0b01000111101010, 0, ⟨0, false, false, .mov 5 2, 64⟩),
   (0b00011000001011, 0, ⟨0, false, false, .ld .w 1 (.post 3 3), 64⟩),
   (0b11000000000010, 0b00001000100001, ⟨0, false, true, .alu .add 1 2 1, 64⟩),
   (0b10011100100001, 0b00100111111111, ⟨3, true, true, .imm .movi 4 0xFFFFFFFF, 64⟩),
   (0b11000010000001, 0b00010000110100, ⟨0, false, true, .vop .addH 2 3 20, 64⟩)]

end Sys2Proof.Claims

/-- The step takes the command at the front of the queue and is that command over the rest; with an empty queue one fabric
clock passes (the model's choice, log entry 7). -/
def Obligations.StepRunsFrontCommand : Prop :=
  (∀ (s : State) (c : Instr) (rest : List Instr), s.pending = c :: rest → step s = exec c { s with pending := rest }) ∧
  (∀ s : State, s.pending = [] → step s = .next { s with hw := s.hw.pass 1 })

/-- No command stops the block: from every state the step answers a next state, with the front command and no other gone from
the queue. -/
def Obligations.StepAlwaysAnswers : Prop :=
  ∀ s : State, ∃ h : Hw, step s = .next ⟨h, s.pending.tail⟩

/-- What reset leaves: KINDLING, no tick, no ring live, every slot FREE, every core halted with every tag FREE, every counter free
and 0, and the registers of `resetWords` at the values the manual gives them. -/
def Obligations.ResetValues : Prop :=
  State.reset.pending = [] ∧ State.reset.hw.sys.state = .kindling ∧ State.reset.hw.frm.running = false ∧
  State.reset.hw.frm.fnum = 0 ∧
  (∀ r, (State.reset.hw.ring r).live = false) ∧ (∀ n, (State.reset.hw.ctx n).state = .free) ∧
  (∀ c, (State.reset.hw.core c).running = false ∧ ∀ t, Tbl.get TagState.free (State.reset.hw.core c).tags t = .free) ∧
  (∀ n, State.reset.hw.counter n = ⟨0, .free, 0, false⟩) ∧ (∀ n, (State.reset.hw.dmaChan n).state = .free) ∧
  (∀ r ∈ resetWords, State.reset.hw.reg r.1 = r.2 ∧ State.reset.hw.actReg r.1 = r.2) ∧ memoryOk State.reset.hw = true

/-- The memory's canonical form: two memories in it that read alike are the same list; a byte written reads back and no other
changes; and writing bytes keeps the form. -/
def Sys2Proof.Claims.memoryCanonicalForm : Prop :=
  (∀ m m' : List Host.Cell, Mem.wf m = true → Mem.wf m' = true → (∀ a, Mem.get m a = Mem.get m' a) → m = m') ∧
  (∀ (m : List Host.Cell) (a : Nat) (l : List Byte) (b : Nat),
    Mem.get (Mem.putN m a l) b = if a ≤ b ∧ b < a + l.length then nth 0 l (b - a) else Mem.get m b) ∧
  (∀ (m : List Host.Cell) (a : Nat) (l : List Byte), Mem.wf m = true → Mem.wf (Mem.putN m a l) = true)

/-- R466 to R472: a write and a zeroing of local memory, with whatever they do to granules and logs, keep the memory's form, and a
read returns the bytes there, or stops at a granule whose read failed, and changes no byte. -/
def Sys2Proof.Claims.memoryAccessesKeepForm : Prop :=
  ∀ (h : Hw) (agent slot a n : Nat) (l : List Byte), memoryOk h = true →
    memoryOk (h.memWrite agent slot a l) = true ∧ memoryOk (h.memZero a n) = true ∧
    (h.memRead agent slot a n).1.mem.cells = h.mem.cells ∧
    (∀ b, Mem.get (h.memWrite agent slot a l).mem.cells b = if a ≤ b ∧ b < a + l.length then nth 0 l (b - a) else Mem.get h.mem.cells b) ∧
    (∀ b, Mem.get (h.memZero a n).mem.cells b = if a ≤ b ∧ b < a + n then 0 else Mem.get h.mem.cells b)

/-- Every step keeps the memory in its canonical form, whatever the command does: from each state whose memory has it, the next state's
memory has it. -/
def Obligations.EveryStepKeepsMemoryForm : Prop :=
  ∀ s s' : State, memoryOk s.hw = true → step s = .next s' → memoryOk s'.hw = true

/-- R252, R261, R264, R269 to R271: a slot that fits its form is encoded in one or two parcels, which say its length and its stop bit
and decode to the slot, whatever follows a short one; and every slot that a pair of parcels decodes to fits. -/
def Obligations.FintoicDecodeEncode : Prop :=
  (∀ (x : Slot) (stop : Bool) (q : BitVec 14), slotFits x = true →
    ∃ (p : BitVec 14) (rest : List (BitVec 14)), encodeSlot x stop = p :: rest ∧ rest.length = (if x.long then 1 else 0) ∧
      decodeInstr p (rest.headD q) = some x ∧ p.getLsbD 12 = stop ∧ p.getLsbD 13 = x.long) ∧
  (∀ (p q : BitVec 14) (x : Slot), decodeInstr p q = some x → slotFits x = true)

/-- A few words of instructions, written out from the encoding tables, decode to what they stand for. -/
def Obligations.EncodedWordsDecode : Prop := ∀ w ∈ encodedWords, decodeInstr w.1 w.2.1 = some w.2.2

/-! ### Power, boot, resets, trips, Ember, samples (22, 07 R201, R211, R217, 19 R522) -/

namespace Sys2Proof.Claims

/-- PF accesses to the SYS block are served (21 R579, R583, R591). -/
def sysOpen (h : Hw) : Bool := h.pci.up && (h.func 0).memSpace && h.sys.everReady

/-- The hardware as it is when time has run on to `t`, if it had not come so far: a timed event falls at its time (log entry 9). -/
def atTime (h : Hw) (t : Nat) : Hw := h.advanceTo t

/-- What every hard reset leaves (R598): KINDLING and booting anew, with its cause; no tick, ring, context, counter, endpoint, DMA
channel or camera in use; memories, maps, meters, encoders and module time kept. -/
def hardReset (h h' : Hw) (cause : Nat) : Prop :=
  h'.sys.state = .kindling ∧ h'.sys.booting = true ∧ h'.sys.stewardOn = false ∧ h'.sys.everReady = false ∧
  h'.sys.rstCause = cause ∧ h'.sys.hardResets = (h.sys.hardResets + 1) % 65536 ∧
  h'.frm = {} ∧ (∀ r, (h'.ring r).live = false) ∧ (∀ n, h'.ctx n = {}) ∧ (∀ n, h'.counter n = {}) ∧ (∀ n, h'.channel n = {}) ∧
  (∀ n, h'.dmaChan n = {}) ∧ (∀ n, h'.core n = {}) ∧ (∀ n, h'.array n = {}) ∧ h'.win = {} ∧ h'.cxp = {} ∧
  (∀ n, (h'.output n).queue = [] ∧ (h'.output n).bound = none) ∧ h'.reg 0x1004 = 0 ∧ h'.actReg 0x1004 = 0 ∧
  h'.mem.cells = h.mem.cells ∧ h'.cpc.factory = h.cpc.factory ∧ h'.cpc.field = h.cpc.field ∧ h'.col.meters = h.col.meters ∧
  h'.web.enc = h.web.enc ∧ h'.ptp.time = h.ptp.time ∧ h'.pci.up = h.pci.up ∧ h'.now = h.now

/-- What a trip leaves (R604). -/
def tripped (h' : Hw) (cause : Nat) : Prop :=
  h'.sys.state = .tripped ∧ h'.sys.tripCause = BitVec.ofNat 3 (2 ^ cause) ∧ h'.sys.acked = false ∧ h'.frm.running = false ∧
  (∀ n : Fin 18, (h'.core n).run = .none) ∧ bits (h'.actReg 0x1004) 0 3 = 0 ∧ (∀ n, (h'.ctx n).swap = none) ∧ h'.wml.swap = none ∧
  (∀ n : Fin 128, (h'.dmaChan n).state.busy = false) ∧ (∀ n, (h'.port n).powered = false ∧ (h'.port n).link = false) ∧
  (∀ n, (h'.output n).activeUntil = none) ∧ h'.col.gated = List.range 22 ∧ bit (h'.reg 0x3000C) 1 = true

end Sys2Proof.Claims

/-- R590, R593 to R595, R600, R522: power good, supply loss, Kindling's retry, the start of the steward, READY, the recovery loader's
registers and check, the start of encoder counting and the heartbeat. -/
def Obligations.PowerAndBoot : Prop :=
  ∀ (s : State), calm s.hw = true →
    let y := s.hw.sys
    (y.state = .off → y.unpowered = false →
      leaves s (.powerGood true true) (fun h => h.now = 0 ∧ h.sys.state = .kindling ∧ h.sys.booting = true ∧ h.mem.cells = [] ∧
        h.ptp.time = 0 ∧ h.ctxs = [] ∧ h.cores = [] ∧ h.sys.slotA = y.slotA ∧ h.sys.slotB = y.slotB ∧ h.sys.rollback = y.rollback ∧
        h.cpc.factory = s.hw.cpc.factory ∧ h.cpc.field = s.hw.cpc.field)) ∧
    (y.state ≠ .off → y.lossSince = none →
      leaves s .supplyLoss (fun h => h.now = s.hw.now ∧ h.sys.state = .off ∧ h.sys.booting = false ∧ h.mem.cells = [] ∧ h.ctxs = [] ∧
        h.cores = [] ∧ h.sys.slotA = y.slotA ∧ h.sys.slotB = y.slotB ∧ h.cpc.factory = s.hw.cpc.factory ∧ h.cpc.field = s.hw.cpc.field)) ∧
    (y.state = .kindling → y.booting = false → y.attempts ≠ 0 → y.unpowered = false →
      leaves s (.kindlingRetry true true) (fun h => h.sys.booting = true ∧ h.sys.retries = y.attempts ∧
        h.now = max s.hw.now (y.powerGoodAt + 1000000000) ∧ h.sys.powerGoodAt = h.now)) ∧
    (y.state = .kindling → y.booting = false → y.attempts = 2 → y.unpowered = false →
      leaves s (.kindlingRetry true false) (fun h => h.sys.booting = false ∧ h.sys.unpowered = true)) ∧
    (y.state = .kindling → y.booting = true → y.stewardOn = false → y.recovery = false → y.fuseFail = false → y.activeB = false →
      y.slotA.present = true → y.slotA.authentic = true → y.rollback ≤ y.slotA.security →
      leaves s .stewardStart (fun h => h.sys.stewardOn = true ∧ h.sys.armedTrips = true ∧ h.pci.trainOn = true ∧
        h.sys.fwVersion = y.slotA.version ∧ h.sys.fallback = false ∧ h.now = max s.hw.now (y.powerGoodAt + 40000000))) ∧
    (∀ failing, y.state = .kindling → y.stewardOn = true →
      leaves s (.stewardReady failing) (fun h => h.sys.state = .ready ∧ h.sys.everReady = true ∧ h.pci.crs = false ∧ h.sys.booting = false)) ∧
    (y.recovery = true → y.fuseFail = false → y.rcvErr = false → y.rcvLen ≠ 0 → y.rcvBytes.length = y.rcvLen →
      let x := Config.imageFacts y.rcvBytes
      (x.authentic = true → y.rollback ≤ x.security → leaves s .recoveryLoadCheck (fun h => hardReset s.hw h 4 ∧
        h.sys.slotA = ⟨true, true, x.security, x.advance, x.version⟩ ∧ h.sys.activeB = false)) ∧
      (x.authentic = false ∨ x.security < y.rollback →
        exec .recoveryLoadCheck s = hwNext s { s.hw with sys.rcvErr := true })) ∧
    (∀ v : Word, sysOpen s.hw = true → y.fuseFail = false → bits v 0 24 ≠ 0 → bits v 0 24 ≤ 8388608 →
      exec (.sysRcvctl v) s = hwNext s { s.hw with sys.rcvLen := bits v 0 24, sys.rcvBytes := [], sys.rcvErr := false }) ∧
    (∀ v : Word, sysOpen s.hw = true → y.rcvBytes.length + 4 ≤ y.rcvLen →
      exec (.sysRcvdata v) s = hwNext s { s.hw with sys.rcvBytes := y.rcvBytes ++ bytesOf 4 v.toNat }) ∧
    (y.state ≠ .off → s.hw.web.counting = false →
      exec .encoderCountingStart s = hwNext s { atTime s.hw (y.powerGoodAt + 5000000) with web.counting := true }) ∧
    (y.stewardOn = true → y.state ≠ .kindling →
      exec .heartbeat s = hwNext s { atTime s.hw ((s.hw.now / 1000000 + 1) * 1000000) with sys.heartbeat := y.heartbeat + 1 })

/-- R597 to R600: HARDARM arms for 1 ms, and only then HARDRST resets; the watchdog and a lockstep mismatch reset; each with its
cause. -/
def Obligations.HardResets : Prop :=
  ∀ (s : State), calm s.hw = true →
    let y := s.hw.sys
    (sysOpen s.hw = true → exec .hardarm s = hwNext s { s.hw with sys.hardArm := some (s.hw.now + 1000000) }) ∧
    (∀ t, sysOpen s.hw = true → y.hardArm = some t → s.hw.now ≤ t → leaves s .hardrst (fun h => hardReset s.hw h 1)) ∧
    (sysOpen s.hw = true → y.hardArm = none → bit (s.hw.reg 8) 0 = false →
      leaves s .hardrst (fun h => h.sys = y ∧ h.reg 8 = s.hw.reg 8 ||| 1 ∧ h.cores = s.hw.cores ∧ h.ctxs = s.hw.ctxs)) ∧
    (∀ t, y.hardArm = some t → exec .hardarmLapse s = hwNext s { atTime s.hw (t + 1) with sys.hardArm := none }) ∧
    (y.stewardOn = true → leaves s .watchdog (fun h => hardReset s.hw h 2)) ∧
    (y.stewardOn = true → leaves s .lockstep (fun h => hardReset s.hw h 3))

/-- R602 to R605, R601: each trip takes an active module to TRIPPED with its cause; TRIPACK is recorded; the module leaves TRIPPED when
every cause has been absent for 1 s; Ember's entry and exit complete with their reply. -/
def Sys2Proof.Claims.tripsAndEmber : Prop :=
  ∀ (s : State), calm s.hw = true →
    let y := s.hw.sys
    let live : Prop := y.state = .ready ∨ y.state = .run ∨ y.state = .hold ∨ y.state = .ember
    (live → y.armedTrips = true → y.hotSince.isSome = true → leaves s .thermalTrip (fun h => tripped h 0)) ∧
    (live → y.armedTrips = true → bits (s.hw.reg 0xB004) 0 18 < (s.hw.col.history.take 10000).sum / 1000 →
      leaves s .powerTrip (fun h => tripped h 1)) ∧
    (live → y.supplySince.isSome = true → leaves s .supplyTrip (fun h => tripped h 2)) ∧
    (y.state = .tripped → sysOpen s.hw = true → exec .tripack s = hwNext s { s.hw with sys.acked := true }) ∧
    (∀ t0 t1 t2, y.state = .tripped → y.acked = true → y.clearSince = [some t0, some t1, some t2] →
      leaves s .tripclear (fun h => h.sys.state = .ready ∧ h.sys.tripCause = 0 ∧ h.sys.acked = false ∧
        (bit y.tripCause 0 = true → t0 + 1000000000 ≤ h.now) ∧ (bit y.tripCause 1 = true → t1 + 1000000000 ≤ h.now) ∧
        (bit y.tripCause 2 = true → t2 + 1000000000 ≤ h.now)))

/-- R99, R601, R602: Ember entry stops DMA, cameras and diagnostic runs, gates every unit and answers OK in EMBER; Ember exit answers
OK in READY. -/
def Sys2Proof.Claims.emberEntryAndExit : Prop :=
  ∀ (s : State) (f : Fin 32) (p : Packet), calm s.hw = true → s.hw.wml.joined = false →
    (s.hw.findExec .emberEntry = some (.fn f, p) → s.hw.sys.state = .ready → s.hw.frm.running = false →
      leaves s .emberEntryComplete (fun h => h.sys.state = .ember ∧ (h.ring (.fn f)).exec = none ∧
        (h.ring (.fn f)).cqTail = ((s.hw.ring (.fn f)).cqTail + 1) % (s.hw.ring (.fn f)).cqSize ∧
        (∀ n : Fin 128, (h.dmaChan n).state.busy = false) ∧ (∀ n, (h.port n).powered = false) ∧ h.col.gated = List.range 22 ∧
        h.ctxs = s.hw.ctxs ∧ h.counters = s.hw.counters)) ∧
    (∀ failing, s.hw.findExec .emberExit = some (.fn f, p) →
      leaves s (.emberExitComplete failing) (fun h => h.sys.state = .ready ∧ (h.ring (.fn f)).exec = none ∧
        (h.ring (.fn f)).cqTail = ((s.hw.ring (.fn f)).cqTail + 1) % (s.hw.ring (.fn f)).cqSize))

/-- R197, R201, R217: a sample of the meters adds each reading to its meter; one of the sensors is read back from THM_SENSn and gives
THM_HOT as the greatest mean of 16; the static draw's idle update leaves the meters. -/
def Obligations.SamplesAccumulate : Prop :=
  ∀ (s : State) (m : MeterReading) (t : SensorReading), calm s.hw = true →
    (m.energy.length = 24 → s.hw.col.meters.length = 24 →
      leaves s (.meterSample m) (fun h => h.col.meters = List.zipWith (· + ·) s.hw.col.meters m.energy ∧
        h.col.history = (m.energy.sum :: s.hw.col.history).take 10000 ∧ h.now = max s.hw.now (s.hw.col.sampledAt + 100) ∧
        h.regs = s.hw.regs ∧ h.mem = s.hw.mem ∧ h.ctxs = s.hw.ctxs)) ∧
    (t.sensors.length = 64 →
      leaves s (.sensorSample t) (fun h => (∀ n : Fin 64, h.reg (0xA100 + 4 * n.val) = (nth 0 t.sensors n).setWidth 32) ∧
        h.sys.supply = t.supply ∧ h.col.plate = t.plate ∧ (∀ n : Fin 64, nth [] h.col.samples n = (nth 0 t.sensors n :: nth [] s.hw.col.samples n).take 16) ∧
        h.col.hotIndex < 64 ∧ h.col.hot = BitVec.ofInt 16 (sensorMean (nth [] h.col.samples h.col.hotIndex)) ∧
        (∀ n : Fin 64, sensorMean (nth [] h.col.samples n) ≤ sensorMean (nth [] h.col.samples h.col.hotIndex)) ∧
        h.sys.state = s.hw.sys.state ∧ h.mem = s.hw.mem ∧ h.ctxs = s.hw.ctxs)) ∧
    (s.hw.ticksRun = false →
      let total := (List.zipWith (fun (a b : Nat) => a - b) s.hw.col.meters s.hw.col.atTick).sum
      let rest : Int := (total : Int) - s.hw.col.frameWakes - s.hw.col.frameWide
      leaves s .pstaticIdleUpdate (fun h => h.col.meters = s.hw.col.meters ∧ h.col.atTick = s.hw.col.meters ∧
        h.col.fen = s.hw.col.fen ∧ h.now = max s.hw.now (s.hw.col.pstaticAt + 1000000) ∧ h.col.pstaticAt = h.now ∧
        h.col.pstatic = ((s.hw.col.pstatic : Int) + (rest * 1000 / 1000000 - s.hw.col.pstatic) / 8).toNat ∧
        h.regs = s.hw.regs ∧ h.mem = s.hw.mem ∧ h.ctxs = s.hw.ctxs))

/-! ### The frame logic, encoders and inputs (02, 19 R520 to R523, 07 R206) -/

namespace Sys2Proof.Claims

/-- The active tick source, FRM_SRC.SEL (R29), where no domain record stands in for it. -/
def sourceSel (h : Hw) : Nat := bits (h.actReg 0x1004) 0 3

/-- When the tick of an event at `t` falls: no sooner than 1,500 ns after the previous one (R36). -/
def heldTo (h : Hw) (t : Nat) : Nat := if h.frm.ticked ∧ t < h.frm.lastTick + 1500 then h.frm.lastTick + 1500 else t

/-- The stall tick of the frame in hand (R37). -/
def stallTime (h : Hw) : Nat := h.frm.countFrom + bits (h.actReg 0x1014) 0 30

/-- The tick that is due, with the frame logic otherwise as it was (R36: an event while a tick is due gives no second one). -/
def dueAt (h h' : Hw) (kind : TickKind) (t : Nat) : Prop := h'.frm = { h.frm with due := some (kind, t) }

/-- The count of an encoder's edge under DECODE (R520): +1 when A leads B. -/
def edgeStep (decode : Nat) (a b a' b' : Bool) : Int :=
  let fwd : Bool := if a ≠ a' then decide (a' ≠ b) else decide (b' = a)
  let counts : Bool := if a ≠ a' then decide (decode ≠ 0 ∨ a' = true) else decide (decode = 2)
  if counts then (if fwd then 1 else -1) else 0

end Sys2Proof.Claims

/-- R29, R31, R36 to R38: the expiry of a TIMER period and the phase of a PTP source give a tick at once, or 1,500 ns after the
last; at FRM_MAXP a stall tick is due and FRM_STAT.STALL set; a lost DOMAIN source gives a tick after two frames and SRCLOST. -/
def Obligations.TickSources : Prop :=
  ∀ (s : State), calm s.hw = true → s.hw.frm.running = true → s.hw.frm.due = none →
    let f := s.hw.frm
    (sourceSel s.hw = 4 → s.hw.wml.sourceEvent = none →
      let t := f.countFrom + bits (s.hw.actReg 0x100C) 0 30
      t ≤ stallTime s.hw →
      leaves s .timerPeriodExpiry (fun h => h.now = max s.hw.now t ∧ dueAt s.hw h .source (heldTo s.hw h.now) ∧
        (heldTo s.hw h.now ≠ h.now → bit (h.reg 0x103C) 0 = true))) ∧
    (sourceSel s.hw = 3 → s.hw.wml.sourceEvent = none →
      let p := bits (s.hw.actReg 0x100C) 0 30
      0 < p → bits (s.hw.actReg 0x1010) 0 30 < p → s.hw.now + p ≤ stallTime s.hw → s.hw.ptp.freq = 0 → 0 ≤ s.hw.ptp.timeFrac →
      s.hw.ptp.timeFrac < 1000000000 → s.hw.ptp.time.toNat + p < 2 ^ 64 →
      leaves s .ptpPhaseMatch (fun h => h.ptp.time.toNat % p = bits (s.hw.actReg 0x1010) 0 30 ∧ h.now ≤ s.hw.now + p ∧
        dueAt s.hw h .source (heldTo s.hw h.now))) ∧
    ((f.waiting = false ∧ f.domainSeen = true ∨ sourceSel s.hw ≠ 6) →
      leaves s .stallTick (fun h => h.now = max s.hw.now (stallTime s.hw) ∧
        h.frm = { f with due := some (.stall, stallTime s.hw), after := none, lastLines := f.lines.toNat, lines := 0 } ∧ bit (h.reg 0x103C) 1 = true)) ∧
    (sourceSel s.hw = 6 → f.waiting = false → f.domainSeen = true → f.lost = none →
      f.lastTick + 2 * f.lastLen ≤ stallTime s.hw →
      leaves s .srclostTick (fun h => h.now = max s.hw.now (f.lastTick + 2 * f.lastLen) ∧
        h.frm = { f with due := some (.srcLost, f.lastTick + 2 * f.lastLen), lost := some f.lastLen } ∧
        bit (h.reg 0x103C) 2 = true ∧ h.wml.unsync = true))

/-- R33, R35, R45: START in READY with a source staged takes the staged frame settings and begins to wait for the first tick; one
without a source, or while RUNNING, is discarded and sets SYS_REGERR; STOP waits for the boundary, ends a wait at once, and while
RUNNING is 0 is discarded. -/
def Sys2Proof.Claims.startAndStop : Prop :=
  ∀ (s : State), calm s.hw = true → sysOpen s.hw = true →
    let f := s.hw.frm
    (f.running = false → bits (s.hw.reg 0x1004) 0 3 ≠ 0 → s.hw.sys.state = .ready →
      leaves s .frmCtlStart (fun h => h.frm.running = true ∧ h.frm.waiting = true ∧ h.frm.due = none ∧ h.frm.countFrom = s.hw.now ∧
        h.frm.lines = 0 ∧ h.sys = s.hw.sys ∧ h.regs = s.hw.regs ∧
        (∀ r : Nat, r ∈ [0x1004, 0x1008, 0x100C, 0x1010, 0x1014] → h.actReg r = s.hw.reg r) ∧
        (∀ r : Nat, r ∉ [0x1004, 0x1008, 0x100C, 0x1010, 0x1014] → h.actReg r = s.hw.actReg r) ∧
        (∀ c, (h.core c).run ≠ .diag))) ∧
    ((f.running = true ∨ bits (s.hw.reg 0x1004) 0 3 = 0) → bit (s.hw.reg 8) 0 = false →
      leaves s .frmCtlStart (fun h => h.frm = f ∧ h.act = s.hw.act ∧ bit (h.reg 8) 0 = true ∧ bits (h.reg 0xC) 4 3 = 3)) ∧
    (f.running = true → f.waiting = false →
      exec .frmCtlStop s = hwNext s { s.hw with frm.stopPending := true }) ∧
    (f.running = true → f.waiting = true →
      leaves s .frmCtlStop (fun h => h.frm.running = false ∧ h.frm.waiting = false ∧ h.frm.due = none ∧ h.sys.state = s.hw.sys.state)) ∧
    (f.running = false → bit (s.hw.reg 8) 0 = false →
      leaves s .frmCtlStop (fun h => h.frm = f ∧ bit (h.reg 8) 0 = true ∧ bits (h.reg 0xC) 4 3 = 3))

/-- R39, R41, R43, R47: a tick that is due opens the next frame (frame 0 when it is the first) at its time; the frame's tail begins
400 ns before the next tick, when armed swaps for the next frame are committed and Collier admits; a settled rail raises the point. -/
def Sys2Proof.Claims.tickAndTail : Prop :=
  ∀ (s : State), calm s.hw = true →
    let f := s.hw.frm
    (∀ t, f.due = some (.stall, t) → f.running = true → f.stopPending = false →
      leaves s .tick (fun h => h.frm.fnum = (if f.waiting then 0 else f.fnum + 1) ∧ h.frm.waiting = false ∧ h.frm.due = none ∧
        h.frm.lastTick = max s.hw.now t ∧ h.frm.countFrom = h.frm.lastTick ∧ h.frm.ticked = true ∧
        h.frm.lastLen = (if f.waiting then f.lastLen else h.frm.lastTick - f.lastTick))) ∧
    (s.hw.ticksRun = true → f.tailBegun = false → f.fixedPlan = false →
      leaves s .frameTail (fun h => h.frm = { f with tailBegun := true } ∧ h.col.next.isSome = true ∧
        (∀ n w, (s.hw.ctx n).swap = some w → (h.ctx n).swap =
          some (if w.target = (f.fnum + 1).toNat then { w with committed := true } else w)))) ∧
    (∀ p, s.hw.col.raising = some p →
      exec .dvfsRailSettled s = hwNext s { s.hw with col.point := p, col.raising := none })

/-- R520 to R523, R31, R36: an edge that changes one of A and B counts as DECODE says, INVERT swapping the sign; one that changes
both is a quadrature error; a filtered edge of an input moves its level and, when it is the tick's source, gives a tick 40 ns
later. -/
def Obligations.EdgesCount : Prop :=
  ∀ (s : State) (e : Fin 2) (a b : Bool) (ix : Fin 8) (level : Bool), calm s.hw = true →
    let x := s.hw.encoder e
    let cfg := s.hw.actReg (0x1F000 + 0x20 * e.val)
    let n := edgeStep (bits cfg 0 2) x.a x.b a b
    (s.hw.web.counting = true → (a ≠ x.a ∧ b = x.b ∨ a = x.a ∧ b ≠ x.b) →
      leaves s (.encoderEdge e a b) (fun h => (h.encoder e).a = a ∧ (h.encoder e).b = b ∧
        (h.encoder e).pos = x.pos + BitVec.ofInt 48 (if bit cfg 2 then -n else n) ∧ h.encoder (1 - e) = s.hw.encoder (1 - e) ∧
        h.mem = s.hw.mem ∧ h.ctxs = s.hw.ctxs ∧ h.sys = s.hw.sys)) ∧
    (s.hw.web.counting = true → a ≠ x.a → b ≠ x.b →
      leaves s (.encoderEdge e a b) (fun h => (h.encoder e).pos = x.pos ∧ (h.encoder e).a = a ∧ (h.encoder e).b = b ∧
        h.reg (0x1F018 + 0x20 * e.val) = s.hw.reg (0x1F018 + 0x20 * e.val) + 1 ∧ bit (h.reg (0x1F01C + 0x20 * e.val)) 0 = true ∧
        h.frm = s.hw.frm)) ∧
    (bit s.hw.web.filtered ix ≠ level →
      leaves s (.filteredInputEdge ix level) (fun h =>
        (∀ j : Fin 8, bit h.web.filtered j = if j = ix then level else bit s.hw.web.filtered j) ∧
        (s.hw.sys.everReady = true → s.hw.frm.running = true → s.hw.frm.due = none → sourceSel s.hw = 5 →
          bits (s.hw.actReg 0x1004) 8 3 = ix.val → bit (s.hw.actReg 0x1004) 11 ≠ level →
          dueAt s.hw h .source (heldTo s.hw (s.hw.now + 40))) ∧
        (s.hw.sys.everReady = false → h.frm = s.hw.frm ∧ h.dma = s.hw.dma ∧ h.cxp = s.hw.cxp)))

/-! ### Rings' registers, doorbell pages, mailbox endpoints and register accesses (03, 16, 24, 00 R10 to R20) -/

namespace Sys2Proof.Claims

/-- The ring whose registers a source writes in its own view: the PF and a VF the function's, a doorbell page the context's; none
when the access does not arrive (03 R65, R83, R84, 21 R572, R579, R583). -/
def ringDoor (h : Hw) : RegSrc → Option RingId
  | .pf => if sysOpen h then some (.fn 0) else none
  | .vf f => if f ≠ 0 ∧ h.served f then some (.fn f) else none
  | .page f n => if h.served f ∧ (h.ctx n).state ≠ .free ∧ (h.ctx n).owner = f.val then some (.ctx n) else none
  | _ => none

/-- A function ring's positions are written only while it is enabled (R84). -/
def doorLive (h : Hw) : RingId → Bool
  | .fn f => (h.ring (.fn f)).live
  | .ctx _ => true

/-- One ring changed and nothing else. -/
def ringNext (s : State) (rid : RingId) (r : Ring) : Host.Outcome State Fault Refusal := hwNext s (s.hw.setRing rid r)

/-- A core that runs a job and has not halted. -/
def jobCore (h : Hw) (c : Nat) : Bool := decide ((h.core c).run = .job) && !(h.core c).halted

/-- Plain registers of the PF's view that a write sets within a range: offset, the bits kept, and the least and greatest value. -/
def plainRegisters : List (Nat × Word × Nat × Nat) :=
  [(0x1008, 0xFFFF, 1, 65535), (0x100C, 0x3FFFFFFF, 1500, 1000000000), (0x1010, 0x3FFFFFFF, 0, 0x3FFFFFFF),
   (0x1014, 0x3FFFFFFF, 1500, 1000000000), (0x9004, 0xFFFFFFFF, 20000, 150000), (0xB004, 0xFFFFFFFF, 20000, 175000),
   (0xA008, 0xFFFFFFFF, 1, 10000), (0xA00C, 0xFFFFFFFF, 100, 1000000), (0xA010, 0xFFFFFFFF, 100, 100000),
   (0x1F048, 0xFF, 0, 255), (0x20010, 0xFFFFFFFF, 0, 0xFFFFFFFF), (0x20028, 0xFFFF, 0, 65535), (0x21028, 0xFFFF, 0, 60000),
   (0x22024, 0xFF, 1, 255)]

/-- Counters that a read clears (00 R20). -/
def readClears : List Nat := [0x1040, 0x801C, 0x8020, 0x8024, 0x900C, 0x1D008, 0x1D00C, 0x1D010, 0x1D014, 0x1D018, 0x1E008, 0x1F088]

end Sys2Proof.Claims

/-- R62, R64, R68, R84 to R86: a tail or completion-head write within the published or unread slots moves the position and any other
sets its error bit; enabling a disabled function ring starts it anew; FETCHERR is cleared by writing it; a failed fetch of a slot
sets it and is counted. -/
def Obligations.RingRegisters : Prop :=
  ∀ (s : State) (src : RegSrc) (rid : RingId) (v : Word), calm s.hw = true → ringDoor s.hw src = some rid →
    let r := s.hw.ring rid
    let n := bits v 0 16
    (doorLive s.hw rid = true →
      (n < r.sqSize ∧ r.published ≤ (n + r.sqSize - r.sqHead) % r.sqSize → exec (.cmdTail src v) s = ringNext s rid { r with sqTail := n }) ∧
      (¬ (n < r.sqSize ∧ r.published ≤ (n + r.sqSize - r.sqHead) % r.sqSize) →
        exec (.cmdTail src v) s = ringNext s rid { r with tailErr := true }) ∧
      (n < r.cqSize ∧ (n + r.cqSize - r.cqHead) % r.cqSize ≤ r.unread → exec (.cmdChead src v) s = ringNext s rid { r with cqHead := n }) ∧
      (¬ (n < r.cqSize ∧ (n + r.cqSize - r.cqHead) % r.cqSize ≤ r.unread) →
        exec (.cmdChead src v) s = ringNext s rid { r with cheadErr := true })) ∧
    (∀ f, rid = .fn f →
      exec (.cmdFctl src v) s = ringNext s rid (if bit v 0 = false then { r with live := false, intAll := bit v 1 }
        else if r.live then { r with intAll := bit v 1 }
        else { r with live := true, intAll := bit v 1, sqHead := 0, sqTail := 0, cqHead := 0, cqTail := 0, phase := true, seq := r.startSeq })) ∧
    exec (.fetcherrClear src) s = ringNext s rid { r with fetchErr := false } ∧
    (∀ (addr : Dword) (kind : HostFail), kind ≠ .notIssued → s.hw.fetches rid = true → r.sqBase.toNat ≤ addr.toNat →
      addr.toNat < r.sqBase.toNat + 64 * r.sqSize →
      leaves s (.ringFetchFail rid addr kind) (fun h => h.ring rid = { r with fetchErr := true } ∧ bit (h.reg 0x30004) 1 = true ∧
        h.reg 0x30020 = s.hw.reg 0x30020 + 1 ∧ h.reg64 0x30018 = addr ∧ h.ctxs = s.hw.ctxs ∧ h.mem = s.hw.mem))

/-- R434 to R436, R444, R457, R458: a signal through a doorbell page adds to a counter that the page's context may use, and a signal of
any other is refused, counted and recorded; VBASE is written; SYN_CTL's REMOTE is written by an agent of the counter's owner only. -/
def Obligations.DoorbellPage : Prop :=
  ∀ (s : State) (f : Fin 32) (page : Fin 256) (v : Word), calm s.hw = true → ringDoor s.hw (.page f page) = some (.ctx page) →
    let n := bits v 0 14
    exec (.vbase f page v) s = hwNext s (s.hw.setCtx page { s.hw.ctx page with vbase := BitVec.ofNat 14 v.toNat }) ∧
    (bits v 14 2 = 0 → s.hw.sys.state ≠ .ember → (s.hw.ctx page).state ≠ .resetting →
      (s.hw.mayUse page n = true → (s.hw.counter n).value.toNat + bits v 16 16 < 2 ^ 64 →
        leaves s (.signal f page v) (fun h => (h.counter n).value = (s.hw.counter n).value + BitVec.ofNat 64 (bits v 16 16) ∧
          (∀ m, m ≠ n → h.counter m = s.hw.counter m) ∧ h.mem = s.hw.mem ∧ h.ctxs = s.hw.ctxs)) ∧
      (s.hw.mayUse page n = false →
        leaves s (.signal f page v) (fun h => h.counters = s.hw.counters ∧ h.reg 0xC0004 = s.hw.reg 0xC0004 + 1 ∧
          bits (h.reg 0xC0008) 0 14 = n ∧ bits (h.reg 0xC0008) 16 8 = page.val ∧ h.cores = s.hw.cores ∧ h.mem = s.hw.mem))) ∧
    (∀ (c : Fin 18) (m : Fin 16384), jobCore s.hw c = true → (s.hw.counter m).state = .owned → (s.hw.counter m).slot = (s.hw.core c).slot →
      exec (.synCtl (.core c) m v) s = hwNext s (s.hw.setCounter m { s.hw.counter m with remote := bit v 0 }))

/-- R447 to R451: a send puts the notice in flight and makes its slot PENDING, or is refused while it is PENDING; a delivered notice
shows its pointer, word and doorbell bit; taking a doorbell makes the sender's slot TAKEN (not where its
notice came from a sender that has closed since, R454); MASK is written in doorbell mode. -/
def Obligations.MailboxEndpoints : Prop :=
  ∀ (s : State) (c : Fin 18) (ch : Fin 64) (d : Fin 32) (v : Word), calm s.hw = true →
    let x := s.hw.channel ch
    let k := s.hw.core c
    (jobCore s.hw c = true → (ch.val < 32 ∨ (s.hw.ctx k.slot).secure = true) →
      (x.sender = some k.slot →
        (Tbl.get 0 x.sstate d ≠ 1 → exec (.word c ch d v) s = hwNext s (s.hw.setChannel ch { x with
          sstate := Tbl.set 0 x.sstate d 1, flight := x.flight ++ [(d.val, Tbl.get 0 x.sptr d, v)] })) ∧
        (Tbl.get 0 x.sstate d = 1 → exec (.word c ch d v) s =
          hwNext s (s.hw.setChannel ch { x with srefused := x.srefused ||| (1 <<< d.val) }))) ∧
      (x.receiver = some k.slot →
        leaves s (.db c ch v) (fun h => (h.channel ch).db = x.db &&& ~~~v ∧
          (∀ i : Fin 32, Tbl.get 0 (h.channel ch).sstate i =
            if x.sender.isSome ∧ bit v i ∧ bit x.db i ∧ ¬ bit x.stale i then 2 else Tbl.get 0 x.sstate i) ∧
          (∀ m, m ≠ ch.val → h.channel m = s.hw.channel m)) ∧
        (x.poll = false → leaves s (.mask c ch v) (fun h => h.channel ch = { x with mask := v } ∧ h.counters = s.hw.counters ∧ h.mem = s.hw.mem)) ∧
        (x.poll = true → exec (.mask c ch v) s = .next s))) ∧
    (∀ ptr w rest, x.flight = (d.val, ptr, w) :: rest → x.receiver.isSome = true →
      leaves s (.noticeDelivery ch) (fun h => h.channel ch = { x with
          flight := rest, rptr := Tbl.set 0 x.rptr d ptr, rword := Tbl.set 0 x.rword d w, db := x.db ||| (1 <<< d.val)
          stale := if Tbl.get 0 x.sstate d = 1 then x.stale &&& ~~~((1 : Word) <<< d.val) else x.stale } ∧
        (∀ m, m ≠ ch.val → h.channel m = s.hw.channel m) ∧ h.mem = s.hw.mem))

/-- R10, R11, R12, R20, R522, R640, R645 to R648: in READY the PF's write of a plain register in range sets its kept bits and one out of
range sets SYS_REGERR with KIND VALUE; a read of a counter returns and clears it; the low half of a 64-bit register leaves its high
half for the next read; anything but one aligned word is discarded with KIND WIDTH; SYS_REGERR is cleared by writing it; WEB_POSSETe
sets the position with its high half. -/
def Obligations.RegisterAccesses : Prop :=
  ∀ (s : State) (v : Word), calm s.hw = true → sysOpen s.hw = true → s.hw.sys.state = .ready →
    (∀ r ∈ plainRegisters, r.2.2.1 ≤ (v &&& r.2.1).toNat → (v &&& r.2.1).toNat ≤ r.2.2.2 →
      exec (.registerWrite ⟨.pf, r.1, true⟩ v) s = hwNext s (s.hw.setReg r.1 (v &&& r.2.1))) ∧
    (∀ r ∈ plainRegisters, bit (s.hw.reg 8) 0 = false → ((v &&& r.2.1).toNat < r.2.2.1 ∨ r.2.2.2 < (v &&& r.2.1).toNat) →
      leaves s (.registerWrite ⟨.pf, r.1, true⟩ v) (fun h => bit (h.reg 8) 0 = true ∧ bits (h.reg 0xC) 4 3 = 2 ∧ bits (h.reg 0xC) 0 1 = 1 ∧
        h.reg64 0x10 = BitVec.ofNat 64 (0x20000000000 + r.1) ∧ h.reg r.1 = s.hw.reg r.1 ∧ h.act = s.hw.act)) ∧
    (∀ r ∈ readClears, leaves s (.registerRead ⟨.pf, r, true⟩) (fun h => h.pci.answer = some (s.hw.reg r) ∧ h.reg r = 0 ∧
      ∀ q, q ≠ r → h.reg q = s.hw.reg q)) ∧
    (exec (.registerRead ⟨.pf, 0x1020, true⟩) s = hwNext s { s.hw with
      snaps := Tbl.put s.hw.snaps 0x4001020 (highHalf (BitVec.ofNat 64 s.hw.frm.fnum.toNat))
      pci.answer := some (lowHalf (BitVec.ofNat 64 s.hw.frm.fnum.toNat)) }) ∧
    (∀ w, Tbl.find s.hw.snaps 0x4001020 = some w → exec (.registerRead ⟨.pf, 0x1024, true⟩) s =
      hwNext s { s.hw with snaps := Tbl.del s.hw.snaps 0x4001020, pci.answer := some w }) ∧
    (∀ off : Nat, off < 0x4000000 → (s.hw.reg 8).getLsbD 0 = false →
      leaves s (.registerWrite ⟨.pf, off, false⟩ v) (fun h => bit (h.reg 8) 0 = true ∧ bits (h.reg 0xC) 4 3 = 1 ∧ h.act = s.hw.act ∧
        ∀ q, q ∉ [8, 0xC, 0x10, 0x14] → h.reg q = s.hw.reg q) ∧
      leaves s (.registerRead ⟨.pf, off, false⟩) (fun h => h.pci.answer = some 0 ∧ bits (h.reg 0xC) 4 3 = 1)) ∧
    exec .sysRegerr s = hwNext s (s.hw.setReg 8 0) ∧
    (∀ (e : Fin 2) (lo : Word), Tbl.find s.hw.helds (0x401F010 + 0x20 * e.val) = some lo →
      leaves s (.webPosset e v) (fun h => (h.encoder e).pos = (dword lo v).setWidth 48 ∧ h.encoder (1 - e) = s.hw.encoder (1 - e) ∧
        h.frm = s.hw.frm ∧ h.ctxs = s.hw.ctxs))

/-! ### Packets (03 R68 to R80, 04) -/

namespace Sys2Proof.Claims

/-- Word `n` of a packet of one slot, from w4 on; a field of it; and the 64 bits of two words (04 R91). -/
def word (p : Packet) (n : Nat) : Word := nth 0 p.body (n - 4)
def field (p : Packet) (n lo len : Nat) : Nat := bits (word p n) lo len
def quad (p : Packet) (n : Nat) : Nat := (word p n).toNat + (word p (n + 1)).toNat * 2 ^ 32

/-- The steward takes this packet from the ring now: the ring is served, the packet is published whole, and no other command about
its context executes (03 R63, R64, R68, R71, 04 R93). -/
def taken (h : Hw) (rid : RingId) (p : Packet) : Bool :=
  calm h && h.fetches rid && decide (slotsTaken p ≤ (h.ring rid).published) && decide (h.drainLeft rid = 0) && !h.heldBack rid p

/-- It is taken, its header passes the checks common to all opcodes (R75 steps 1 to 3), and it has this opcode and `n` slots. -/
def headed (h : Hw) (rid : RingId) (p : Packet) (code n : Nat) : Bool :=
  taken h rid p && decide (p.opcode.toNat = code) && decide (p.slots.toNat = n) && decide (bits p.flags 1 3 = 0) &&
    decide (p.rsv0 = 0) && decide (p.word3 = 0) && decide (p.seq = (h.ring rid).seq)

/-- Only the bits that the opcode names are set in the body of a packet of one slot (04 R91). -/
def onlyBits (p : Packet) (masks : List (Nat × Word)) : Bool :=
  (List.range 16).all (fun n => n < 4 || decide (word p n &&& ~~~((masks.find? (fun m => m.1 = n)).map (·.2)).getD 0 = 0))

/-- A packet of one slot on a function ring, with HANDLE 0 and nothing but the named bits. -/
def fnPacket (h : Hw) (f : Fin 32) (p : Packet) (code : Nat) (masks : List (Nat × Word)) : Bool :=
  headed h (.fn f) p code 1 && decide (p.handle = 0) && stateAccepts h.sys.state code && onlyBits p masks

/-- A packet of a context's own ring: its current handle, and a context that is IDLE or LIVE. -/
def ctxHeaded (h : Hw) (n : Fin 256) (p : Packet) (code slots : Nat) : Bool :=
  headed h (.ctx n) p code slots && decide (p.handle = h.handleOf n) && decide (p.handle ≠ 0) && decide (bits p.handle 0 16 = n.val) &&
    stateAccepts h.sys.state code &&
    (decide ((h.ctx n).state = .idle) || decide ((h.ctx n).state = .live))

def ctxPacket (h : Hw) (n : Fin 256) (p : Packet) (code : Nat) (masks : List (Nat × Word)) : Bool :=
  ctxHeaded h n p code 1 && onlyBits p masks

/-- The packet is consumed, has its effect, and is answered with a status and result fields (offset, length, value) (R88). -/
def answers (s : State) (i : Instr) (rid : RingId) (p : Packet) (effect : Hw → Hw) (status : Nat) (fields : List (Nat × Nat × Nat)) : Prop :=
  exec i s = hwNext s ((effect (s.hw.consume rid p)).reply rid p status (resultOf fields))

/-- The packet is consumed and refused with nothing changed; the offset stands in result bytes 0 to 3 (R77). -/
def refused (s : State) (i : Instr) (rid : RingId) (p : Packet) (status off : Nat) : Prop :=
  answers s i rid p id status [(0, 4, off)]

/-- The packet is consumed, has its effect, and executes on (R79). -/
def waits (s : State) (i : Instr) (rid : RingId) (p : Packet) (effect : Hw → Hw) (w : Waiting) : Prop :=
  exec i s = hwNext s ((effect (s.hw.consume rid p)).modRing rid (fun r => { r with exec := some ⟨p, w⟩ }))

end Sys2Proof.Claims

/-- R66, R70, R75, R88: a NOP consumes its slots, moves the ring's sequence number and completion tail on, writes the 32 bytes of its reply
at the completion tail, and changes no context, core, counter or memory of the module. -/
def Obligations.NopReplies : Prop :=
  ∀ (s : State) (rid : RingId) (p : Packet), 
    headed s.hw rid p 1 1 = true → onlyBits p [] = true → stateAccepts s.hw.sys.state 1 = true →
    (match rid with
      | .fn _ => p.handle = 0
      | .ctx n => p.handle = s.hw.handleOf n ∧ p.handle ≠ 0 ∧ bits p.handle 0 16 = n.val ∧ (s.hw.ctx n).state ≠ .resetting) →
    let r := s.hw.ring rid
    let addr := (r.cqBase + BitVec.ofNat 64 (32 * r.cqTail)).toNat
    let head := (r.sqHead + 1) % r.sqSize
    let entry := bytesOf 4 p.seq.toNat ++ bytesOf 4 (0x10000 : Nat) ++ bytesOf 4 p.handle.toNat ++
      bytesOf 4 (head % 65536 + if r.phase then 2 ^ 31 else 0) ++ List.replicate 16 0
    leaves s (.nop rid p) (fun h => h.ring rid = { r with
        sqHead := head, seq := p.seq + 1, cqTail := (r.cqTail + 1) % r.cqSize
        phase := if r.cqTail + 1 = r.cqSize then !r.phase else r.phase, exec := none } ∧
      (∀ i < 32, h.hostByte (addr + i) = nth 0 entry i) ∧
      (∀ a, (a < addr ∨ addr + 32 ≤ a) → h.hostByte a = s.hw.hostByte a) ∧
      h.ctxs = s.hw.ctxs ∧ h.cores = s.hw.cores ∧ h.counters = s.hw.counters ∧ h.mem = s.hw.mem ∧ h.regs = s.hw.regs ∧ h.frm = s.hw.frm)

/-- R75 to R77, R89, R95, R153: what is wrong with a packet is answered by the first check that fails, with its offset, and
nothing changes: SLOTS, the reserved bits, word 3, the sequence number, the opcode, the ring, the handle, the state. -/
def Obligations.PacketRefusalsInOrder : Prop :=
  ∀ (s : State) (f : Fin 32) (p : Packet), taken s.hw (.fn f) p = true →
    let rid : RingId := .fn f
    let i : Instr := .queryModule rid p
    let one : Bool := decide (1 ≤ p.slots.toNat) && decide (p.slots.toNat ≤ 8)
    let clear : Bool := decide (bits p.flags 1 3 = 0) && decide (p.rsv0 = 0)
    let inSeq : Bool := decide (p.seq = (s.hw.ring rid).seq)
    (p.opcode = 2 ∨ opRow p.opcode.toNat = none) →
      (one = false → answers s i rid p id 0x102 [(0, 4, 0), (4, 4, 0)]) ∧
      (one = true → clear = false → answers s i rid p id 0x101 [(0, 4, 0), (4, 4, 0)]) ∧
      (one = true → clear = true → p.word3 ≠ 0 → answers s i rid p id 0x101 [(0, 4, 12), (4, 4, 0)]) ∧
      (one = true → clear = true → p.word3 = 0 → inSeq = false →
        answers s i rid p id 0x106 [(0, 4, 4), (4, 4, (s.hw.ring rid).seq.toNat)]) ∧
      (one = true → clear = true → p.word3 = 0 → inSeq = true → p.opcode ≠ 2 → refused s i rid p 0x100 0) ∧
      (one = true → clear = true → p.word3 = 0 → inSeq = true → p.opcode = 2 → p.slots.toNat ≠ 1 → refused s i rid p 0x102 0) ∧
      (clear = true → p.word3 = 0 → inSeq = true → p.opcode = 2 → p.slots.toNat = 1 → bits p.handle 8 8 ≠ 0 → refused s i rid p 0x103 8) ∧
      (clear = true → p.word3 = 0 → inSeq = true → p.opcode = 2 → p.slots.toNat = 1 → bits p.handle 8 8 = 0 → p.handle ≠ 0 →
        refused s i rid p 0x101 8) ∧
      (clear = true → p.word3 = 0 → inSeq = true → p.opcode = 2 → p.slots.toNat = 1 → p.handle = 0 →
        stateAccepts s.hw.sys.state 2 = true → onlyBits p [] = false → ∃ n, 4 ≤ n ∧ n < 16 ∧ word p n ≠ 0 ∧ refused s i rid p 0x101 (4 * n))

/-- R98 to R103, R121, R138, R139, R141 to R143, R145, R147, R148: the packets of the module, each with its effect and reply. -/
def Obligations.ModulePackets : Prop :=
  ∀ (s : State) (f : Fin 32) (p : Packet),
    let rid : RingId := .fn f
    let h := s.hw
    (fnPacket h f p 2 [] = true → answers s (.queryModule rid p) rid p id 0
      [(0, 4, 0x0880B100), (4, 4, h.cpc.sysUnits.toNat), (8, 1, h.sys.state.code), (10, 4, h.sys.fwVersion.toNat), (14, 2, h.inUseCount)]) ∧
    (f = 0 →
      (fnPacket h f p 3 [(4, 7)] = true →
        (field p 4 0 3 = 0 → h.ticksRun = true → answers s (.moduleState rid p) rid p (fun h => { h with frm.pendingState := some .run }) 0 []) ∧
        (field p 4 0 3 = 1 → h.ticksRun = true → answers s (.moduleState rid p) rid p (fun h => { h with frm.pendingState := some .hold }) 0 []) ∧
        (field p 4 0 3 = 2 → h.sys.state = .ready → waits s (.moduleState rid p) rid p id .emberEntry) ∧
        (field p 4 0 3 = 3 → h.sys.state = .ember → waits s (.moduleState rid p) rid p id .emberExit) ∧
        (3 < field p 4 0 3 → refused s (.moduleState rid p) rid p 0x106 16)) ∧
      (fnPacket h f p 0x10 [(4, 0xF07), (5, 0xFFFF), (6, 0x3FFFFFFF), (7, 0x3FFFFFFF), (8, 0x3FFFFFFF)] = true →
        field p 4 0 3 ≠ 7 → (field p 4 0 3 ≠ 3 ∨ h.ptp.fault = false) → field p 5 0 16 ≠ 0 → 1500 ≤ field p 6 0 30 → field p 6 0 30 ≤ 1000000000 → 1500 ≤ field p 8 0 30 →
        field p 8 0 30 ≤ 1000000000 →
        answers s (.frameConfig rid p) rid p (fun h => ((((h.setReg 0x1004 (word p 4)).setReg 0x1008 (word p 5)).setReg 0x100C
          (word p 6)).setReg 0x1010 (word p 7)).setReg 0x1014 (word p 8)) 0 []) ∧
      (fnPacket h f p 0x11 [(4, 3)] = true →
        (field p 4 0 2 = 1 → h.canStart = true → answers s (.frameControl rid p) rid p Hw.startTick 0 []) ∧
        (field p 4 0 2 = 2 → h.frm.running = true → h.frm.waiting = false →
          answers s (.frameControl rid p) rid p (fun h => { h with frm.stopPending := true }) 0 []) ∧
        (field p 4 0 2 = 0 ∨ field p 4 0 2 = 3 → refused s (.frameControl rid p) rid p 0x106 16)) ∧
      (fnPacket h f p 0x20 [(4, 0x111), (5, 0xFFFFFFFF), (6, 0xFFFF)] = true →
        answers s (.netConfig rid p) rid p (fun h => h.modEthPort (field p 4 0 1) (fun x => { x with
          rate := bit (word p 4) 4, enabled := bit (word p 4) 8, destIp := word p 5, destUdp := field p 6 0 16 })) 0 []) ∧
      (fnPacket h f p 0x21 [(4, 0x3FF13)] = true → field p 4 0 2 = 1 → (field p 4 16 2 = 1 ∨ field p 4 16 2 = 2) → h.ptp.fault = true →
        answers s (.ptpConfig rid p) rid p (fun h => { h with ptp := { h.ptp with
          role := 1, peerDelay := bit (word p 4) 4, domain := field p 4 8 8, mask := field p 4 16 2, hasMaster := false, measured := false
          holdover := none, states := ptpStates 1 (field p 4 16 2), good := 0 } }) 0 []) ∧
      (fnPacket h f p 0x403 [(4, 0xFFFFFFFF)] = true → 20000 ≤ (word p 4).toNat → (word p 4).toNat ≤ 150000 →
        answers s (.colSetCap rid p) rid p (fun h => h.setReg 0x9004 (word p 4)) 0 []) ∧
      (fnPacket h f p 0x804 [(4, 0xF), (5, 0xFF)] = true → field p 4 1 2 ≠ 3 →
        answers s (.webEncConfig rid p) rid p (fun h => h.setReg (0x1F000 + 0x20 * field p 4 0 1)
          (BitVec.ofNat 32 (field p 4 1 2 + field p 4 3 1 * 4 + field p 5 0 8 * 256))) 0 []) ∧
      (fnPacket h f p 0x805 [(4, 0xF), (5, 0xFFFFFFFF)] = true → field p 4 0 4 < 12 → (word p 5 = 0 ∨ h.isHandle (word p 5) = true) →
        answers s (.webOutBind rid p) rid p (fun h => h.modOutput (field p 4 0 4) (fun o => { o with
          pending := some (if word p 5 = 0 then none else some (field p 5 0 8)) })) 0 []) ∧
      (fnPacket h f p 0x807 [(4, 0x10F), (5, 0xFFFFFFFF)] = true → field p 4 0 4 < 12 → 0 < (word p 5).toNat →
        (word p 5).toNat ≤ 1000000000 → h.sys.state = .ready →
        answers s (.webOutForce rid p) rid p (fun h => h.modOutput (field p 4 0 4) (fun o => { o with
          forced := some (bit (word p 4) 8, h.now + (word p 5).toNat) })) 0 []) ∧
      (fnPacket h f p 0x902 [(4, 0xFF01)] = true → field p 4 8 8 ≤ 100 →
        answers s (.cpcPolicy rid p) rid p (fun h => { h with cpc.autoRemap := bit (word p 4) 0, cpc.testShare := field p 4 8 8 }) 0 []) ∧
      (fnPacket h f p 0xA02 [] = true → h.wml.joined = true → sourceSel h ≠ 6 → h.wml.swap = none →
        answers s (.domainLeave rid p) rid p (fun h => { h with wml.leaving := true }) 0 []) ∧
      (fnPacket h f p 0xA04 [] = true → answers s (.domainStatus rid p) rid p id 0
        [(0, 2, h.wml.id), (2, 2, h.wml.leader), (4, 2, h.memberCount),
         (6, 1, h.wml.joined.toNat + 2 * h.wml.unsync.toNat + 4 * h.ptp.fault.toNat + 8 * h.wml.swap.isSome.toNat), (8, 6, h.wml.lastSwap)]) ∧
      (fnPacket h f p 0xB01 [(4, 3)] = true →
        (field p 4 0 2 = 0 → exec (.logRead rid p) s = hwNext s ({ h.consume rid p with mem.log := h.mem.log.drop 1 }.reply rid p 0
          ((h.mem.log.head?.map MemLogEntry.bytes).getD []))) ∧
        (field p 4 0 2 = 1 → exec (.logRead rid p) s = hwNext s ({ h.consume rid p with atu.log := h.atu.log.drop 1 }.reply rid p 0
          ((h.atu.log.head?.map XlatLogEntry.bytes).getD []))) ∧
        (field p 4 0 2 = 2 → exec (.logRead rid p) s = hwNext s ({ h.consume rid p with cpc.log := h.cpc.log.drop 1 }.reply rid p 0
          ((h.cpc.log.head?.map CpcLogEntry.bytes).getD []))) ∧
        (field p 4 0 2 = 3 → exec (.logRead rid p) s = hwNext s ({ h.consume rid p with sys.log := h.sys.log.drop 1 }.reply rid p 0
          ((h.sys.log.head?.map StewardEntry.bytes).getD []))))) ∧
    (fnPacket h f p 0x901 [] = true → answers s (.cpcReport rid p) rid p id 0
      [(0, 4, h.cpc.sysUnits.toNat), (4, 1, h.cpc.usedColumns), (5, 1, h.cpc.usedLanes), (6, 1, h.cpc.usedCores),
       (7, 1, h.cpc.usedBanks), (8, 2, h.cpc.suspects.length), (10, 2, h.cpc.hbmRepairs), (12, 4, h.cpc.remaps.toNat)])

/-! ### Packets about contexts and their mappings (04 R104 to R112, 05 R151 to R169) -/

namespace Sys2Proof.Claims

/-- A packet of one slot about a context that is not RESETTING, by its current handle: from its own ring or from its owner's. -/
def aboutCtx (h : Hw) (rid : RingId) (n : Fin 256) (p : Packet) (code : Nat) (masks : List (Nat × Word)) : Bool :=
  headed h rid p code 1 && onlyBits p masks && stateAccepts h.sys.state code &&
    decide (p.handle = h.handleOf n) && decide (p.handle ≠ 0) && decide (bits p.handle 0 8 = n.val) && decide (bits p.handle 8 8 = 0) &&
    (decide ((h.ctx n).state = .idle) || decide ((h.ctx n).state = .live) || decide ((h.ctx n).state = .faulted)) &&
    (match rid with | .fn f => decide ((h.ctx n).owner = f.val) | .ctx m => decide (m = n))

/-- The generation after `g` (05 R152). -/
def genAfter (g : Nat) : Nat := if g = 65535 then 1 else g + 1

/-- The body of a CTX_CREATE passes its checks (R104). -/
def createOk (f : Fin 32) (p : Packet) : Bool :=
  decide (4 ≤ field p 8 0 5) && decide (field p 8 0 5 ≤ 16) && decide (4 ≤ field p 8 8 5) && decide (field p 8 8 5 ≤ 16) &&
    decide (field p 8 16 11 < 64) && decide (field p 10 0 2 ≠ 3) && decide (field p 11 0 7 ≤ 64) && decide (field p 11 8 8 ≤ 128) &&
    decide (field p 11 16 8 ≤ 64) && decide (field p 12 0 15 ≤ 16384) && (!bit (word p 10) 8 || decide (f = 0))

/-- Slot `n` is the lowest-numbered FREE one, and the function has a share left (R104, 05 R171). -/
def slotFor (h : Hw) (f : Fin 32) (n : Fin 256) : Bool :=
  decide ((h.ctx n).state = .free) && (List.range n.val).all (fun m => decide ((h.ctx m).state ≠ .free)) &&
    decide ((h.slotsOf f).length < h.slotLimit f)

/-- The context that CTX_CREATE leaves, and its ring (R104). -/
def created (f : Fin 32) (p : Packet) (gen : Nat) : Ctx :=
  let set : Objects := { ({} : Objects) with policy := field p 10 0 2 }
  { ({} : Ctx) with
    state := .idle, gen := genAfter gen, owner := f, secure := bit (word p 10) 8, maxJobs := field p 11 0 7
    maxDma := field p 11 8 8, maxMbx := field p 11 16 8, maxSyn := field p 12 0 15, staged := set, active := set }
def createdRing (p : Packet) : Ring :=
  { ({} : Ring) with
    live := true, sqLog := field p 8 0 5, cqLog := field p 8 8 5, sqBase := BitVec.ofNat 64 (quad p 4)
    cqBase := BitVec.ofNat 64 (quad p 6), vec := field p 8 16 11, seq := word p 9, startSeq := word p 9 }

end Sys2Proof.Claims

/-- R104, R152, R154: CTX_CREATE gives the lowest-numbered FREE slot its next generation, positions 0 with PHASE 1 and an empty
table, and answers the new handle; CTX_QUERY, CTX_RUN and CTX_SET_POLICY have the effects and replies of R107 to R109. -/
def Sys2Proof.Claims.contextPackets : Prop :=
  ∀ (s : State) (n : Fin 256) (p : Packet),
    let h := s.hw
    let x := h.ctx n
    (∀ f : Fin 32, fnPacket h f p 0x101 [(4, 0xFFFFF000), (5, 0xFFFFFFFF), (6, 0xFFFFF000), (7, 0xFFFFFFFF), (8, 0x07FF1F1F), (9, 0xFFFFFFFF),
        (10, 0x103), (11, 0xFFFF7F), (12, 0x7FFF)] = true → createOk f p = true → slotFor h f n = true →
      answers s (.ctxCreate (.fn f) p) (.fn f) p (fun h =>
          ((h.setCtx n (created f p x.gen)).setRing (.ctx n) (createdRing p)).memZero (0x5E0000000 + n * 0x200000) 0x200000) 0
        [(0, 4, genAfter x.gen * 65536 + n)]) ∧
    (∀ rid : RingId, aboutCtx h rid n p 0x104 [] = true →
      answers s (.ctxQuery rid p) rid p id 0
        [(0, 1, x.state.code), (1, 1, if x.state = .faulted then x.cause else 0), (2, 2, x.gen), (4, 1, x.active.jobs.length),
          (5, 1, (h.ownedChans n).length), (6, 2, (h.ownedCounters n).length), (8, 1, h.endpointsOf n),
          (9, 1, x.swap.isSome.toNat + 2 * (h.inDomainSwap n).toNat), (10, 6, x.lastSwap)]) ∧
    (ctxPacket h n p 0x105 [(4, 1)] = true →
      answers s (.ctxRun (.ctx n) p) (.ctx n) p (fun h => h.setCtx n { x with
        pendingLive := if x.state = .live ↔ bit (word p 4) 0 = true then none else some (bit (word p 4) 0) }) 0 []) ∧
    (ctxPacket h n p 0x106 [(4, 3)] = true →
      (field p 4 0 2 = 3 → refused s (.ctxSetPolicy (.ctx n) p) (.ctx n) p 0x106 16) ∧
      (field p 4 0 2 ≠ 3 → x.swap.isSome = true → refused s (.ctxSetPolicy (.ctx n) p) (.ctx n) p 0x108 0) ∧
      (field p 4 0 2 ≠ 3 → x.swap = none → h.inDomainSwap n = false →
        answers s (.ctxSetPolicy (.ctx n) p) (.ctx n) p (fun h => h.setCtx n { x with staged := { x.staged with policy := field p 4 0 2 } }) 0 []))

/-- R105, R106, R162 to R169, R80: CTX_RESET and CTX_DESTROY leave the context RESETTING with nothing armed, and their packet
executes on; when the reset completes the generation advances, the fault is cleared, and the reply carries the counts; a destroyed slot is
FREE. -/
def Sys2Proof.Claims.contextReset : Prop :=
  ∀ (s : State) (rid : RingId) (n : Fin 256) (p : Packet),
    let h := s.hw
    let starts (kind : ResetKind) (g : Hw) : Prop :=
      (g.ctx n).state = .resetting ∧ (g.ctx n).swap = none ∧ (g.ctx n).pendingLive = none ∧ (g.ring rid).exec = some ⟨p, .ctxReset n⟩ ∧
        ∃ r : ResetInfo, (g.ctx n).reset = some r ∧ r.kind = kind
    (aboutCtx h rid n p 0x103 [] = true → leaves s (.ctxReset rid p) (starts .reset)) ∧
    (∀ f, rid = .fn f → aboutCtx h rid n p 0x102 [] = true → leaves s (.ctxDestroy rid p) (starts .destroy)) ∧
    (∀ r : ResetInfo, calm h = true → (h.ctx n).state = .resetting → (h.ctx n).reset = some r →
      (r.boundaries = 0 ∨ h.ticksRun = false) → r.drain = 0 → h.drains n = false →
      (r.kind = .reset → h.findExec (.ctxReset n) = some (rid, p) →
        let gen := genAfter (h.ctx n).gen
        let hd : Word := BitVec.ofNat 32 (gen * 65536 + n)
        let g := (h.setCtx n { h.ctx n with
          state := .idle, gen := gen, cause := 0, detail := 0, unit := 0, multi := false, fva := 0, fframe := 0, reset := none })
        exec (.ctxResetComplete n) s = hwNext s (({ g with cxp := { g.cxp with ports := List.map (fun (e : Nat × CamPort) =>
            (e.1, if e.2.ownerSlot = some n.val then { e.2 with owner := hd } else e.2)) g.cxp.ports } }).reply rid p 0
          (resultOf [(0, 4, hd.toNat), (4, 2, r.jobs), (6, 2, r.dma), (8, 2, r.bst), (10, 2, r.waiters), (12, 2, r.notices), (14, 2, r.passes)]))) ∧
      (r.kind = .destroy → leaves s (.ctxResetComplete n) (fun g => (g.ctx n).state = .free ∧ (g.ctx n).gen = genAfter (h.ctx n).gen)))

/-- R110 to R112, R178, R188, R190: ATU_MAP of one page of 1 GiB of host memory writes its leaf into the root table; a SIZE of
0 maps nothing; a range past 2^48 or a page code of 3 is refused; ATU_UNMAP removes the entry and what is cached of it; ATU_INVALIDATE
removes what is cached of a range, or of the whole context. -/
def Obligations.MappingPackets : Prop :=
  ∀ (s : State) (n : Fin 256) (p : Packet),
    let h := s.hw
    let rid : RingId := .ctx n
    let va := quad p 4
    let size := quad p 6
    let drop (h : Hw) (va size : Nat) : Hw := { h with atu := { h.atu with
      leaves := h.atu.leaves.filter (fun e => !(e.slot = n.val && e.page < va + size && va < e.page + e.size))
      walks := h.atu.walks.filter (fun e => e.slot ≠ n.val) } }
    (ctxPacket h n p 0x201 [(4, 0xFFFFFFFF), (5, 0xFFFFFFFF), (6, 0xFFFFFFFF), (7, 0xFFFFFFFF), (8, 0x333), (9, 0xFFFFFFFF), (10, 0xFFFFFFFF)] = true →
      (field p 8 0 2 = 3 → refused s (.atuMap rid p) rid p 0x106 32) ∧
      (field p 8 0 2 = 2 → field p 8 4 2 = 2 → va % 2 ^ 30 = 0 → quad p 9 % 2 ^ 30 = 0 →
        (size = 0 → va ≤ 2 ^ 48 → answers s (.atuMap rid p) rid p id 0 []) ∧
        (size = 2 ^ 30 → 2 ^ 48 ≤ va → refused s (.atuMap rid p) rid p 0x106 20) ∧
        (size = 2 ^ 30 → va + size ≤ 2 ^ 48 → meetsAperture va size = false → h.pagesIn n va size = [] →
          answers s (.atuMap rid p) rid p (fun h => h.memWrite 0 n (0x5E0000000 + n * 0x200000 + 8 * (va / 2 ^ 30))
            (bytesOf 8 (quad p 9 + 1 + 4 * field p 8 8 2 + 32))) 0 []))) ∧
    (ctxPacket h n p 0x202 [(4, 0xFFFFFFFF), (5, 0xFFFFFFFF), (6, 0xFFFFFFFF), (7, 0xFFFFFFFF)] = true →
      (2 ^ 48 < va + size → refused s (.atuUnmap rid p) rid p 0x106 (if 2 ^ 48 ≤ va then 20 else 16)) ∧
      (va + size ≤ 2 ^ 48 → size ≠ 0 → h.pagesIn n va size = [] → answers s (.atuUnmap rid p) rid p (drop · va size) 0 []) ∧
      (∀ l : TableLeaf, va + size ≤ 2 ^ 48 → size ≠ 0 → h.pagesIn n va size = [l] →
        (l.va < va ∨ va + size < l.va + l.size → refused s (.atuUnmap rid p) rid p 0x106 16) ∧
        (va ≤ l.va → l.va + l.size ≤ va + size → 2 ≤ l.tgt →
          answers s (.atuUnmap rid p) rid p (fun h => drop (h.memWrite 0 n l.entry (bytesOf 8 0)) va size) 0 []))) ∧
    (ctxPacket h n p 0x203 [(4, 0xFFFFFFFF), (5, 0xFFFFFFFF), (6, 0xFFFFFFFF), (7, 0xFFFFFFFF), (8, 1)] = true →
      (bit (word p 8) 0 = true → va = 0 → size = 0 → answers s (.atuInvalidate rid p) rid p (drop · 0 (2 ^ 48)) 0 []) ∧
      (bit (word p 8) 0 = true → va ≠ 0 → refused s (.atuInvalidate rid p) rid p 0x106 16) ∧
      (bit (word p 8) 0 = false → va + size ≤ 2 ^ 48 → size ≠ 0 → answers s (.atuInvalidate rid p) rid p (drop · va size) 0 []))

/-! ### Packets about counters, mailbox endpoints and DMA channels (04 R113 to R118, R130 to R134) -/

namespace Sys2Proof.Claims

/-- The lowest `n` FREE channels (R130, 15 R410). -/
def freeChans (h : Hw) (n : Nat) : List Nat := ((List.range 128).filter (fun k => (h.dmaChan k).state = .free)).take n

/-- What a context's quota and its function's limit leave room for (05 R156, R171). -/
def room (held quota used limit n : Nat) : Bool := decide (held + n ≤ quota) && decide (used + n ≤ limit)

/-- The channels that a DMA_FREE names. -/
def maskedChans (p : Packet) : List Nat := (List.range 128).filter (fun k => bit (word p (4 + k / 32)) (k % 32))

end Sys2Proof.Claims

/-- R113 to R116, R434 to R438: SYN_ALLOC takes a contiguous block that is free, SYN_FREE returns one, SYN_SIGNAL adds to a counter
(and changes nothing else when nobody waits for it), is refused when the sum would pass 2^64 - 1, and changes nothing with an INCREMENT of 0; SYN_WAIT answers at once when
the target is met or TIMEOUT is 0, else it waits, and answers when its ticks have passed. -/
def Obligations.CounterPackets : Prop :=
  ∀ (s : State) (n : Fin 256) (p : Packet),
    let h := s.hw
    let rid : RingId := .ctx n
    let k := field p 4 0 14
    let x := h.counter k
    (ctxPacket h n p 0x301 [(4, 0x7FFF), (5, 0xFFFFFFFF), (6, 0xFFFFFFFF)] = true →
      let count := field p 4 0 15
      (16384 < count → refused s (.synAlloc rid p) rid p 0x106 16) ∧
      (count = 0 → answers s (.synAlloc rid p) rid p id 0 []) ∧
      let left : Bool := room (h.ownedCounters n).length (h.ctx n).maxSyn (h.synUsed (h.ctx n).owner) (h.synLimit (h.ctx n).owner) count
      (0 < count → count ≤ 16384 → (left = false ∨ ∀ a, h.allFree a count = false) → refused s (.synAlloc rid p) rid p 0x104 16) ∧
      (0 < count → left = true → (∃ a, h.allFree a count = true) → ∃ a, h.allFree a count = true ∧
        answers s (.synAlloc rid p) rid p (fun h => (List.range count).foldl (fun (h : Hw) i =>
          h.setCounter (a + i) ⟨BitVec.ofNat 64 (quad p 5), .owned, n, false⟩) h) 0 [(0, 4, a)])) ∧
    (ctxPacket h n p 0x302 [(4, 0x3FFF), (5, 0x7FFF)] = true →
      let count := field p 5 0 15
      (16384 < k + count → refused s (.synFree rid p) rid p 0x106 20) ∧
      (count = 0 → answers s (.synFree rid p) rid p id 0 []) ∧
      (count = 1 → (x.state ≠ .owned ∨ x.slot ≠ n.val) → refused s (.synFree rid p) rid p 0x105 16) ∧
      (count = 1 → x.state = .owned → x.slot = n.val → h.cores = [] → h.execs = [] → h.wml.held = [] →
        answers s (.synFree rid p) rid p (fun h => h.setCounter k { x with state := .free, slot := 0 }) 0 [])) ∧
    (ctxPacket h n p 0x303 [(4, 0x3FFF), (5, 0xFFFFFFFF), (6, 0xFFFFFFFF)] = true →
      (h.mayUse n k = false → refused s (.synSignal rid p) rid p 0x105 16) ∧
      (h.mayUse n k = true → 2 ^ 64 ≤ x.value.toNat + quad p 5 → refused s (.synSignal rid p) rid p 0x106 20) ∧
      (h.mayUse n k = true → quad p 5 = 0 → answers s (.synSignal rid p) rid p id 0 []) ∧
      (h.mayUse n k = true → quad p 5 ≠ 0 → x.value.toNat + quad p 5 < 2 ^ 64 → leaves s (.synSignal rid p) (fun g =>
        g.counter k = { x with value := BitVec.ofNat 64 (x.value.toNat + quad p 5) })) ∧
      (h.mayUse n k = true → quad p 5 ≠ 0 → x.value.toNat + quad p 5 < 2 ^ 64 → h.cores = [] → h.execs = [] → h.wml.held = [] →
        answers s (.synSignal rid p) rid p (fun h => h.setCounter k { x with value := BitVec.ofNat 64 (x.value.toNat + quad p 5) }) 0 [])) ∧
    (ctxPacket h n p 0x304 [(4, 0x3FFF), (5, 0xFFFFFFFF), (6, 0xFFFFFFFF), (7, 0xFF)] = true →
      (h.mayUse n k = false → refused s (.synWait rid p) rid p 0x105 16) ∧
      (h.mayUse n k = true → field p 7 0 8 ≠ 0 → h.ticksRun = false → refused s (.synWait rid p) rid p 0x107 28) ∧
      (h.mayUse n k = true → (field p 7 0 8 = 0 ∨ h.ticksRun = true) →
        (quad p 5 ≤ x.value.toNat → answers s (.synWait rid p) rid p id 0 [(0, 8, x.value.toNat), (8, 1, 1)]) ∧
        (x.value.toNat < quad p 5 → field p 7 0 8 = 0 → answers s (.synWait rid p) rid p id 0 [(0, 8, x.value.toNat)]) ∧
        (x.value.toNat < quad p 5 → field p 7 0 8 ≠ 0 →
          waits s (.synWait rid p) rid p id (.synWait k (BitVec.ofNat 64 (quad p 5)) (field p 7 0 8))))) ∧
    (∀ (r : RingId) (q : Packet) (i : Nat) (t : Dword), calm h = true → (h.ring r).exec = some ⟨q, .synWait i t 0⟩ →
      exec (.synWaitTimeout r) s = hwNext s (h.reply r q 0 (resultOf [(0, 8, (h.counter i).value.toNat)])))

/-- R117, R118, R130 to R134, R446, R452, R454, R410, R424, R427: MBX_OPEN and MBX_CLOSE of an endpoint; DMA_ALLOC takes the lowest free
channels, DMA_FREE returns them, DMA_START sets an idle channel to its first descriptor, DMA_KICK marks a running one, and DMA_STOP leaves
the channel IDLE and answers where it stood. -/
def Obligations.EndpointAndChannelPackets : Prop :=
  ∀ (s : State) (n : Fin 256) (p : Packet),
    let h := s.hw
    let rid : RingId := .ctx n
    let x := h.ctx n
    let ch := h.channel (field p 4 0 6)
    let k := field p 4 0 7
    let d := h.dmaChan k
    let owns : Prop := d.state ≠ .free ∧ d.slot = n.val
    let spare : Bool := room (h.endpointsOf n) x.maxMbx (h.mbxUsed x.owner) (h.mbxLimit x.owner) 1
    (ctxPacket h n p 0x310 [(4, 0x113F)] = true → (field p 4 0 6 < 32 ∨ x.secure = true) → spare = true →
      (bit (word p 4) 8 = true → ch.receiver = none →
        answers s (.mbxOpen rid p) rid p (fun h => h.setChannel (field p 4 0 6) { ch with
          receiver := some n.val, poll := bit (word p 4) 12, db := 0, rptr := [], rword := [], mask := 0, route := 0, rsig := 0 }) 0
          [(0, 8, 0x21000000000 + 0x1000 * field p 4 0 6 + 0x800)]) ∧
      (bit (word p 4) 8 = false → bit (word p 4) 12 = true → refused s (.mbxOpen rid p) rid p 0x106 16) ∧
      (bit (word p 4) 8 = false → bit (word p 4) 12 = false → ch.sender ≠ none → refused s (.mbxOpen rid p) rid p 0x104 16) ∧
      (bit (word p 4) 8 = false → bit (word p 4) 12 = false → ch.sender = none →
        answers s (.mbxOpen rid p) rid p (fun h => h.setChannel (field p 4 0 6) { ch with
          sender := some n.val, sstate := [], srefused := 0, ssig := 0 }) 0 [(0, 8, 0x21000000000 + 0x1000 * field p 4 0 6)])) ∧
    (ctxPacket h n p 0x311 [(4, 0x13F)] = true →
      (bit (word p 4) 8 = false → ch.sender ≠ some n.val → refused s (.mbxClose rid p) rid p 0x107 0) ∧
      (bit (word p 4) 8 = false → ch.sender = some n.val →
        answers s (.mbxClose rid p) rid p (fun h => h.setChannel (field p 4 0 6) { ch with
          sender := none, stale := ch.flight.foldl (fun (m : Word) x => m ||| (1 <<< x.1)) ch.db }) 0 []) ∧
      (bit (word p 4) 8 = true → ch.receiver = some n.val → (∀ i < 32, Tbl.get 0 ch.sstate i ≠ 1) →
        answers s (.mbxClose rid p) rid p (fun h => h.setChannel (field p 4 0 6) { ch with
          receiver := none, db := 0, flight := [], stale := 0, poll := false }) 0 [])) ∧
    (ctxPacket h n p 0x701 [(4, 0x7FF)] = true →
      let count := field p 4 0 8
      (128 < count → refused s (.dmaAlloc rid p) rid p 0x106 16) ∧
      (count ≤ 128 → (room (h.ownedChans n).length x.maxDma (h.dmaUsed x.owner) (h.dmaLimit x.owner) count = false ∨
        (freeChans h count).length < count) → refused s (.dmaAlloc rid p) rid p 0x104 16) ∧
      (count ≤ 128 → room (h.ownedChans n).length x.maxDma (h.dmaUsed x.owner) (h.dmaLimit x.owner) count = true →
        (freeChans h count).length = count →
        exec (.dmaAlloc rid p) s = hwNext s (((freeChans h count).foldl (fun (h : Hw) k =>
            h.setDmaChan k { h.dmaChan k with state := .idle, slot := n, prio := field p 4 8 3 }) (h.consume rid p)).reply rid p 0
          (bytesOf 16 ((freeChans h count).map (fun k => 2 ^ k)).sum)))) ∧
    (ctxPacket h n p 0x702 [(4, 0xFFFFFFFF), (5, 0xFFFFFFFF), (6, 0xFFFFFFFF), (7, 0xFFFFFFFF)] = true →
      (∀ j ∈ maskedChans p, (h.dmaChan j).state ≠ .free ∧ (h.dmaChan j).slot = n.val) →
      answers s (.dmaFree rid p) rid p (fun h => (maskedChans p).foldl (fun (h : Hw) j =>
        h.setDmaChan j { ({} : DmaChan) with done := (h.dmaChan j).done }) h) 0 []) ∧
    (ctxPacket h n p 0x703 [(4, 0x7F), (5, 0xFFFFFFFF), (6, 0xFFFFFFFF)] = true →
      (¬ owns → refused s (.dmaStart rid p) rid p 0x105 16) ∧
      (owns → quad p 5 < 2 ^ 48 → quad p 5 % 64 ≠ 0 → refused s (.dmaStart rid p) rid p 0x106 20) ∧
      (owns → quad p 5 < 2 ^ 48 → quad p 5 % 64 = 0 → d.state ≠ .idle → refused s (.dmaStart rid p) rid p 0x107 0) ∧
      (owns → quad p 5 < 2 ^ 48 → quad p 5 % 64 = 0 → d.state = .idle →
        answers s (.dmaStart rid p) rid p (fun h => h.setDmaChan k { d with
          state := .running, desc := BitVec.ofNat 64 (quad p 5), words := [], rd := 0, wr := 0, armed := false, recheck := false, err := 0
          stage := [], granted := 0, rdLeft := 0, wrLeft := 0, entry := none, pend := none }) 0 [])) ∧
    (ctxPacket h n p 0x704 [(4, 0x7F)] = true → owns →
      (d.state = .idle ∨ d.state = .error → answers s (.dmaKick rid p) rid p id 0 []) ∧
      (d.state = .running → answers s (.dmaKick rid p) rid p (fun h => h.setDmaChan k { d with recheck := true }) 0 [])) ∧
    (ctxPacket h n p 0x705 [(4, 0x7F)] = true → owns →
      (d.state = .idle → answers s (.dmaStop rid p) rid p id 0 []) ∧
      (d.state ≠ .idle → answers s (.dmaStop rid p) rid p (fun h => h.setDmaChan k { d with
          state := .idle, recheck := false, armed := false, seenLow := false, err := 0, stage := [], granted := 0, rdLeft := 0, wrLeft := 0
          entry := none, pend := none }) 0 [(0, 8, d.desc.toNat), (8, 4, min d.left 0xFFFFFFFF)]))

/-! ### Packets about jobs, swaps, bindings and staged registers, and what a core posts (04 R119 to R129, R140, 07 R213) -/

namespace Sys2Proof.Claims

/-- A job descriptor in w8 to w23 is in range (R213). -/
def jobOk (p : Packet) : Bool :=
  let cls := field p 8 0 2
  let cores := field p 8 16 5
  let arrays := field p 8 21 3
  (decide (field p 8 2 3 = 0) || decide (cls = 2)) &&
    (decide (field p 8 5 1 = 0) || (decide (cls = 0) && decide (cores ≤ 8) && decide (arrays ≤ 2))) &&
    (decide (field p 8 8 8 = 0) || decide (cls = 1)) && decide (1 ≤ cores) && decide (cores ≤ 16) && decide (arrays ≤ 4) &&
    decide (field p 10 0 30 ≤ 1000000000) && (decide (field p 11 8 1 = 0) || decide (field p 11 4 4 = 0)) &&
    (decide (field p 15 0 8 = 0) || decide (cls = 0))

/-- The quota, the function's limit and the module have room for one more job, or the index is defined already (R119). -/
def jobRoom (h : Hw) (n : Fin 256) (i : Nat) : Bool :=
  let x := h.ctx n
  (Tbl.find x.staged.jobs i).isSome || (Tbl.find x.active.jobs i).isSome ||
    (decide (x.jobEntries + 1 ≤ x.maxJobs) && decide (h.jobsUsed x.owner + 1 ≤ h.jobLimit x.owner) && decide (h.jobsInModule < 4096))

/-- No swap, its own or the domain's, is armed for the context (02 R50). -/
def swapFree (h : Hw) (n : Fin 256) : Bool := (h.ctx n).swap.isNone && !h.inDomainSwap n

/-- A number in a 32-bit result saturates. -/
def capped (n : Nat) : Nat := min n 0xFFFFFFFF

/-- The frame that an accepted SWAP_ARM targets: the next boundary's for NEXT, frame 0 while no ticks run; one whose tail has begun
slides to the boundary after it (02 R33, R50). -/
def armTarget (h : Hw) (p : Packet) : Nat :=
  let t := if bit (word p 4) 0 then (if h.ticksRun then (h.frm.fnum + 1).toNat else 0) else quad p 5
  if h.ticksRun && h.frm.tailBegun && decide (t = (h.frm.fnum + 1).toNat) then (h.frm.fnum + 2).toNat else t

/-- A frame number is in the future (02 R40). -/
def ahead (h : Hw) (t : Nat) : Bool :=
  let d := (BitVec.ofNat 48 t - h.frm.fnum).toNat
  decide (1 ≤ d) && decide (d < 2 ^ 47)

/-- The words of PROG_LOAD and of MODEL_LOAD. -/
def progMasks : List (Nat × Word) := [(4, 0xF), (5, 0xFFFFFFFF), (6, 0xFFFFFFFF), (7, 0xFFFFFFFF)]
def modelMasks : List (Nat × Word) := progMasks ++ [(8, 0xFFFFFFFF)]

/-- The low half that a core holds for a 64-bit register (00 R11). -/
def heldLow (h : Hw) (c : Fin 18) (off : Nat) : Option Word := Tbl.find h.helds ((33 + c) * 0x4000000 + off)

end Sys2Proof.Claims

/-- R119, R120, R122, R213, R50: JOB_DEFINE puts the 16 descriptor words into the staged job table, JOB_REMOVE empties the entry, both
refused while a swap is armed; COL_QUERY answers what Collier knows of a job. -/
def Sys2Proof.Claims.jobPackets : Prop :=
  ∀ (s : State) (n : Fin 256) (p : Packet),
    let h := s.hw
    let rid : RingId := .ctx n
    let x := h.ctx n
    let i := field p 4 0 6
    let j := field p 4 0 7
    (ctxHeaded h n p 0x401 2 = true → (∀ k, 16 ≤ k → k < 32 → word p k = 0) →
      onlyBits p [(4, 0x3F), (8, 0xFFFF3F), (9, 0xFFFFFFFF), (10, 0x3FFFFFFF), (11, 0x1FF), (12, 0xFFFFFFFF), (13, 0xFFFF),
        (14, 0x80003FFF), (15, 0xFF)] = true →
      (jobOk p = false → ∃ off, answers s (.jobDefine rid p) rid p id 0x106 [(0, 4, off)]) ∧
      (jobOk p = true → swapFree h n = false → refused s (.jobDefine rid p) rid p 0x108 0) ∧
      (jobOk p = true → swapFree h n = true → jobRoom h n i = false → refused s (.jobDefine rid p) rid p 0x104 16) ∧
      (jobOk p = true → swapFree h n = true → jobRoom h n i = true →
        answers s (.jobDefine rid p) rid p (fun h => h.setCtx n { x with staged := { x.staged with
          jobs := Tbl.put x.staged.jobs i ((List.range 16).map (fun k => word p (8 + k))) } }) 0 [])) ∧
    (ctxPacket h n p 0x402 [(4, 0x3F)] = true →
      (swapFree h n = false → refused s (.jobRemove rid p) rid p 0x108 0) ∧
      (swapFree h n = true → answers s (.jobRemove rid p) rid p (fun h => h.setCtx n { x with staged := { x.staged with
        jobs := Tbl.del x.staged.jobs i } }) 0 [])) ∧
    (ctxPacket h n p 0x404 [(4, 0x7F)] = true →
      (64 < j → refused s (.colQuery rid p) rid p 0x106 16) ∧
      (j < 64 → Tbl.find x.active.jobs j = none → answers s (.colQuery rid p) rid p id 0 [(0, 4, capped h.col.plan.budget)]) ∧
      (∀ d, j < 64 → Tbl.find x.active.jobs j = some d →
        answers s (.colQuery rid p) rid p id 0 [(0, 4, capped h.col.plan.budget), (4, 4, (nth 0 d 1).toNat),
          (8, 4, capped (Tbl.get {} x.stats j).measured), (12, 2, (Tbl.get {} x.stats j).age), (14, 1, bits (nth 0 d 0) 0 2),
          (15, 1, (h.col.plan.jobs.any (fun a => a.slot = n.val && a.job = j)).toNat)]) ∧
      (j = 64 → answers s (.colQuery rid p) rid p id 0 [(0, 4, capped h.col.plan.budget),
        (4, 4, capped (x.active.jobs.map (fun e => (nth 0 e.2 1).toNat)).sum),
        (8, 4, capped (x.active.jobs.map (fun e => (Tbl.get {} x.stats e.1).measured)).sum),
        (12, 4, (Config.queryTotals n.val h.now).toNat)]))

/-- R123 to R125, R50, R51: SWAP_ARM arms a swap for its target and answers the frame, SWAP_CANCEL disarms one that is not committed,
SWAP_STATUS answers where things stand. -/
def Sys2Proof.Claims.swapPackets : Prop :=
  ∀ (s : State) (n : Fin 256) (p : Packet),
    let h := s.hw
    let rid : RingId := .ctx n
    let x := h.ctx n
    let next := bit (word p 4) 0
    (ctxPacket h n p 0x501 [(4, 3), (5, 0xFFFFFFFF), (6, 0xFFFF), (7, 0x3FFF)] = true →
      (next = true → word p 5 ≠ 0 → refused s (.swapArm rid p) rid p 0x101 20) ∧
      (next = true → word p 5 = 0 → word p 6 ≠ 0 → refused s (.swapArm rid p) rid p 0x101 24) ∧
      (next = false → ahead h (quad p 5) = false → refused s (.swapArm rid p) rid p 0x106 20) ∧
      ((next = true ∧ quad p 5 = 0) ∨ (next = false ∧ ahead h (quad p 5) = true) →
        (swapFree h n = false → refused s (.swapArm rid p) rid p 0x108 0) ∧
        (swapFree h n = true → h.mayUse n (field p 7 0 14) = false → refused s (.swapArm rid p) rid p 0x105 28) ∧
        (swapFree h n = true → h.mayUse n (field p 7 0 14) = true →
          answers s (.swapArm rid p) rid p (fun h => h.setCtx n { x with
            swap := some ⟨armTarget h p, bit (word p 4) 1, field p 7 0 14, false⟩ }) 0 [(0, 8, armTarget h p)]))) ∧
    (ctxPacket h n p 0x502 [] = true →
      (x.swap = none → refused s (.swapCancel rid p) rid p 0x107 0) ∧
      (∀ w, x.swap = some w →
        (w.committed = true → refused s (.swapCancel rid p) rid p 0x108 0) ∧
        (w.committed = false → answers s (.swapCancel rid p) rid p (fun h => h.setCtx n { x with swap := none }) 0 []))) ∧
    (ctxPacket h n p 0x503 [] = true →
      answers s (.swapStatus rid p) rid p id 0 [(0, 6, ((x.swap.map (·.target)).getD 0)), (8, 6, x.lastSwap),
        (14, 1, x.swap.isSome.toNat + 2 * (h.inDomainSwap n).toNat + 4 * (x.swap.any (·.committed)).toNat + 8 * x.swapped.toNat)])

/-- R126 to R129, R140, R267, R639: a program or model image that passes its checks is bound in the staged set, LENGTH 0 and MODEL_UNBIND
empty the binding, a failed check answers its offset; REG_STAGE writes a context's copy of a register that it owns; WEB_OUT_RULE
stages the rule of an output that is bound to the context. -/
def Obligations.BindingPackets : Prop :=
  ∀ (s : State) (n : Fin 256) (p : Packet),
    let h := s.hw
    let rid : RingId := .ctx n
    let x := h.ctx n
    let g0 := h.consume rid p
    let b := field p 4 0 4
    (ctxPacket h n p 0x601 progMasks = true → quad p 5 < 2 ^ 48 → (word p 7).toNat ≤ 114688 → swapFree h n = true →
      let len := (word p 7).toNat
      (len = 0 → leaves s (.progLoad rid p) (fun g => g.ctx n = { x with staged := { x.staged with progs := Tbl.del x.staged.progs b } } ∧
        g.mem = h.mem)) ∧
      (∀ g bs, len ≠ 0 → g0.vaRead stewardCache 0 n (quad p 5) len = (g, bs, none) →
        (progFails bs = none → g.imageBytes + len ≤ Config.imageMemory → leaves s (.progLoad rid p) (fun k =>
          (k.ctx n).staged.progs = Tbl.put x.staged.progs b g.nextImage ∧ Tbl.find k.images g.nextImage = some bs)) ∧
        (∀ o, progFails bs = some o →
          exec (.progLoad rid p) s = hwNext s (g.reply rid p 0x106 (resultOf [(8, 4, o)]))))) ∧
    (ctxPacket h n p 0x602 modelMasks = true → quad p 5 < 2 ^ 48 → quad p 7 ≤ 2 ^ 32 → swapFree h n = true →
      (quad p 7 = 0 → leaves s (.modelLoad rid p) (fun g => g.ctx n = { x with staged := { x.staged with
        models := Tbl.del x.staged.models b } } ∧ g.mem = h.mem)) ∧
      (∀ g bs, quad p 7 ≠ 0 → g0.vaRead stewardCache 0 n (quad p 5) (quad p 7) = (g, bs, none) → Config.modelCheck bs = none →
        g.imageBytes + quad p 7 ≤ Config.imageMemory → leaves s (.modelLoad rid p) (fun k =>
          (k.ctx n).staged.models = Tbl.put x.staged.models b g.nextImage ∧ Tbl.find k.images g.nextImage = some bs))) ∧
    (ctxPacket h n p 0x603 [(4, 0xF)] = true →
      (swapFree h n = false → refused s (.modelUnbind rid p) rid p 0x108 0) ∧
      (swapFree h n = true → leaves s (.modelUnbind rid p) (fun g => g.ctx n = { x with staged := { x.staged with
        models := Tbl.del x.staged.models b } } ∧ g.mem = h.mem))) ∧
    (ctxPacket h n p 0x504 [(4, 0x3F)] = true → field p 4 0 6 = 0 → answers s (.regStage rid p) rid p id 0 []) ∧
    (∀ m : Fin 8, ctxPacket h n p 0x504 [(4, 0x3F), (6, 0x3FFFFFF), (7, 0xFFFFFFFF)] = true → field p 4 0 6 = 1 →
      (word p 6).toNat = 0x2000010 + 0x40 * m →
      (((h.port m).master = false ∨ (h.port m).ownerSlot ≠ some n.val) → refused s (.regStage rid p) rid p 0x105 24) ∧
      ((h.port m).master = true → (h.port m).ownerSlot = some n.val → field p 7 16 16 = 0 → refused s (.regStage rid p) rid p 0x106 28) ∧
      ((h.port m).master = true → (h.port m).ownerSlot = some n.val → field p 7 16 16 ≠ 0 →
        answers s (.regStage rid p) rid p (fun h => h.setReg ((n + 1) * 0x4000000 + (word p 6).toNat) (word p 7 &&& 0xFFFF007F)) 0 [])) ∧
    (ctxPacket h n p 0x806 [(4, 0x110F), (5, 0xFFFFFFFF), (6, if bit (word p 4) 8 then 0xFFFFFFFF else 0xFFFF), (7, 0xFFFFFFFF)] = true →
      let o := field p 4 0 4
      let w := (word p 7).toNat
      (12 ≤ o ∨ (h.output o).orphan = true ∨ (h.output o).bound ≠ some n.val → refused s (.webOutRule rid p) rid p 0x105 16) ∧
      (o < 12 → (h.output o).orphan = false → (h.output o).bound = some n.val →
        ((w % 4 ≠ 0 ∨ w < (if o < 8 then 4 else 40000) ∨ 1000000000 < w) → refused s (.webOutRule rid p) rid p 0x106 28) ∧
        (w % 4 = 0 → (if o < 8 then 4 else 40000) ≤ w → w ≤ 1000000000 → swapFree h n = true →
          answers s (.webOutRule rid p) rid p (fun h => h.setCtx n { x with staged := { x.staged with
            rules := Tbl.put x.staged.rules o (OutRule.mk (bit (word p 4) 8) (bit (word p 4) 12) (BitVec.ofNat 64 (quad p 5)) (word p 7)) } }) 0 [])))

/-- R375, R427, R524: a core's write of the high half of HDG_SUBMIT or PRV_SUBMIT puts a pass at the end of those that wait, in its
program order, and one that is not aligned to 64 bytes faults the context; a verdict post replaces an earlier one of its index; a write to
DMA_KICK marks a running channel of the context, and one to another context's channel is discarded. -/
def Obligations.CoreSubmissions : Prop :=
  ∀ (s : State) (c : Fin 18) (v : Word), calm s.hw = true → jobCore s.hw c = true →
    let h := s.hw
    let k := h.core c
    let job := Tbl.get [] (h.ctx k.slot).active.jobs k.job
    let live : Prop := (h.ctx k.slot).state = .idle ∨ (h.ctx k.slot).state = .live
    let pass (w : WinEngine) (lo : Word) : WinEngine := { w with
      waiting := w.waiting ++ [⟨k.slot, k.job, k.half, c, bits (nth 0 job 0) 0 2, (dword lo v).toNat, Tbl.get 0 w.orders c, [], []⟩]
      orders := Tbl.set 0 w.orders c (Tbl.get 0 w.orders c + 1) }
    (∀ lo, heldLow h c 0x13000 = some lo →
      ((dword lo v).toNat % 64 = 0 → exec (.hdgSubmit (.core c) v) s = hwNext s (h.setEngine .hdg (pass (h.engine .hdg) lo))) ∧
      ((dword lo v).toNat % 64 ≠ 0 → live → leaves s (.hdgSubmit (.core c) v) (fun g =>
        (g.ctx k.slot).state = .faulted ∧ (g.ctx k.slot).cause = 6))) ∧
    (∀ lo, heldLow h c 0x14000 = some lo →
      ((dword lo v).toNat % 64 = 0 → exec (.prvSubmit (.core c) v) s = hwNext s (h.setEngine .prv (pass (h.engine .prv) lo))) ∧
      ((dword lo v).toNat % 64 ≠ 0 → live → leaves s (.prvSubmit (.core c) v) (fun g =>
        (g.ctx k.slot).state = .faulted ∧ (g.ctx k.slot).cause = 6))) ∧
    (∀ lo, heldLow h c 0x1F080 = some lo →
      let i := bits v 16 8
      let legal : Bool := decide (bits (nth 0 job 0) 0 2 = 0) && decide (i < bits (nth 0 job 7) 0 8) && decide (bits v 24 4 < 12) &&
        decide (bits v 29 3 = 0)
      (legal = true → exec (.webVpost (.core c) v) s = hwNext s { h with web := { h.web with
        posts := h.web.posts.filter (fun x => !(x.slot = k.slot && x.job = k.job && x.half = k.half && x.index = i)) ++
          [⟨k.slot, k.job, k.half, i, bit v 28, bits v 24 4, (dword lo v).setWidth 48⟩] } }) ∧
      (legal = false → leaves s (.webVpost (.core c) v) (fun g => g.web = h.web ∧ bit (g.reg 8) 0 = true ∧ g.ctxs = h.ctxs))) ∧
    (∀ n : Fin 128,
      let d := h.dmaChan n
      (d.slot = k.slot → d.state = .running →
        exec (.dmaKickWrite (.core c) n) s = hwNext s (h.setDmaChan n { d with recheck := true })) ∧
      (d.slot = k.slot → d.state = .idle → idles s (.dmaKickWrite (.core c) n)) ∧
      (d.state = .free ∨ d.slot ≠ k.slot → leaves s (.dmaKickWrite (.core c) n) (fun g => g.dma = h.dma ∧ bit (g.reg 8) 0 = true)))

/-! ### Bastaef commands (12 R326 to R338, 13 R362 to R366) -/

namespace Sys2Proof.Claims

/-- CTL of a command has a reserved bit set (R329 step 1). -/
def badCtl (ctl : Word) : Bool :=
  decide (bits ctl 7 10 ≠ 0) || (bit ctl 2 && decide (bits ctl 3 2 ≠ 0)) || (!bit ctl 17 && decide (bits ctl 18 14 ≠ 0))

/-- The tag of a command shows that it has completed, with this status (R332). -/
def tagDone (h : Hw) (c tag : Nat) (ctl status : Word) : Prop := Tbl.get TagState.free (h.core c).tags tag = .done status (bit ctl 6)

/-- The arrays of the run that a core belongs to, in its half, ascending (R329). -/
def coreArrays (h : Hw) (c : Fin 18) : List Nat := h.halfArrays (h.core c)

end Sys2Proof.Claims

/-- R329 to R331, R338: the feed takes the oldest command of a core; one with reserved CTL bits or an array index beyond the run's
completes at once with its reason; one that passes its checks waits on its array; a free array starts the next bound command, and a busy
one none; a drain ends. -/
def Sys2Proof.Claims.arrayCommands : Prop :=
  ∀ (s : State), calm s.hw = true →
    let h := s.hw
    (∀ (c : Fin 18) (q : QueuedCmd) (rest : List QueuedCmd), (h.core c).queue = q :: rest →
      let k := h.core c
      let g0 := h.setCore c { k with queue := rest }
      (badCtl q.ctl = true → leaves s (.bstCommandEntry c) (fun g => (g.core c).queue = rest ∧ tagDone g c q.tag q.ctl 0xC1000000)) ∧
      (badCtl q.ctl = false → bit q.ctl 2 = false → (coreArrays h c).length ≤ bits q.ctl 3 2 →
        leaves s (.bstCommandEntry c) (fun g => (g.core c).queue = rest ∧ tagDone g c q.tag q.ctl 0xC7000000)) ∧
      (∀ a, badCtl q.ctl = false → bit q.ctl 2 = false → (coreArrays h c)[bits q.ctl 3 2]? = some a →
        (bit q.ctl 17 = true → h.mayUse k.slot (bits q.ctl 18 14) = false →
          leaves s (.bstCommandEntry c) (fun g => (g.core c).queue = rest ∧ tagDone g c q.tag q.ctl 0xC8000000)) ∧
        (∀ g1 g2 words x, (bit q.ctl 17 = false ∨ h.mayUse k.slot (bits q.ctl 18 14) = true) →
          g0.fetchDesc k.slot q.va = (g1, .ok words) → g1.feedPrep k.slot words false = (g2, .ok x) →
          (bstDesc words).m ≠ 0 → (bstDesc words).n ≠ 0 →
          exec (.bstCommandEntry c) s = hwNext s (g2.setArray a { g2.array a with bound := (g2.array a).bound ++
            [⟨c, k.rank, q.tag, q.ctl, q.order, q.nth, k.slot, k.job, k.half, words, x.head, x.pages⟩] })))) ∧
    (∀ c : Fin 18, (h.core c).queue = [] → idles s (.bstCommandEntry c)) ∧
    (∀ a : Fin 4,
      let x := h.array a
      (x.run.isSome = true ∨ x.drain.isSome = true ∨ x.bound = [] → idles s (.bstCommandStart a)) ∧
      (∀ cmd g out, x.run = none → x.drain = none → nextRank x.lastRank (h.startable x) = some cmd →
        (h.setArray a { x with bound := x.bound.filter (fun c => c ≠ cmd), lastRank := cmd.rank }).compute a cmd.slot cmd.desc cmd.head cmd.pages =
          (g, .ok out) →
        leaves s (.bstCommandStart a) (fun g => (g.array a).bound = x.bound.filter (fun c => c ≠ cmd) ∧ (g.array a).lastRank = cmd.rank ∧
          ∃ r, (g.array a).run = some r ∧ r.cmd = cmd ∧ r.phase = .narrow ∧ r.startAt = h.now ∧ r.out = out)) ∧
      exec (.bstDrainEnd a) s = hwNext s (h.setArray a { x with drain := none }))

/-- R332, R360, R362, R364, R366, R368, R372: a narrow run ends with its tiles counted and, without a fit miss, is finished; with one
WPOL decides: 0 nothing more, 2 the run is degraded; Collier denies a request for want of energy or else of time, else takes its cost from the
pool and the wide run starts; a finished command frees its array and its tag. -/
def Sys2Proof.Claims.arrayCompletion : Prop :=
  ∀ (s : State) (a : Fin 4) (r : BstRun), calm s.hw = true → (s.hw.array a).run = some r →
    let h := s.hw
    let x := h.array a
    let wpol := (qHead r.cmd.head).wpol
    (∀ stall, r.phase = .narrow → h.pairedRun r.cmd.slot r.cmd.job = false →
      let ends (P : BstRun → Prop) (D : Hw → Prop) : Prop := leaves s (.narrowRunEnd a stall) (fun g =>
        (g.array a).busy = x.busy + BitVec.ofNat 64 r.out.tiles ∧ (g.array a).stall = x.stall + BitVec.ofNat 64 stall ∧ D g ∧
          ∃ t, (g.array a).run = some t ∧ t.cmd = r.cmd ∧ t.phase = .finished ∧ t.status = r.out.status ∧ t.crc = r.out.crc ∧ P t)
      (r.out.fit = false → ends (fun t => t.outcome = r.outcome) (fun g => g.degraded = h.degraded)) ∧
      (r.out.fit = true → wpol = 0 → ends (fun t => t.outcome = some 0) (fun g => g.degraded = h.degraded)) ∧
      (r.out.fit = true → wpol = 2 → ends (fun t => t.outcome = some 5)
        (fun g => g.degraded.contains (r.cmd.slot, r.cmd.job, r.cmd.half) = true))) ∧
    (r.phase = .request → h.earlierAsk a r = false → h.pairArray a r = none →
      let g0 := h.advanceTo (r.askedAt + 16)
      let paid : Bool := bit (h.actReg 0x11000) 0 && decide (r.cost ≤ h.wpool)
      (paid = false → leaves s (.widenDecision a) (fun g => g.wpool = h.wpool ∧
        ∃ t, (g.array a).run = some t ∧ t.phase = .finished ∧ t.outcome = some 2)) ∧
      (paid = true → g0.wideInTime a r = false → leaves s (.widenDecision a) (fun g => g.wpool = h.wpool ∧
        ∃ t, (g.array a).run = some t ∧ t.phase = .finished ∧ t.outcome = some 3)) ∧
      (∀ w g1 out, g0.wideInTime a r = true → paid = true → r.wide = some w →
        ((({ g0 with wpool := h.wpool - r.cost }).bump 0x1101C 1).compute a r.cmd.slot w.desc w.head w.pages = (g1, .ok out)) →
        leaves s (.widenDecision a) (fun g => g.wpool = h.wpool - r.cost ∧
          ∃ t, (g.array a).run = some t ∧ t.phase = .wide ∧ t.outcome = some 1 ∧ t.out = out))) ∧
    (r.phase = .finished → leaves s (.bstCommandComplete a) (fun g => (g.array a).run = none ∧ (g.array a).bound = x.bound ∧
      tagDone g r.cmd.core r.cmd.tag r.cmd.ctl r.status ∧ (g.core r.cmd.core).doneOrders = (h.core r.cmd.core).doneOrders ++ [r.cmd.order])) ∧
    (r.phase = .narrow → idles s (.bstCommandComplete a) ∧ idles s (.widenDecision a))

/-! ### Window passes and line-rate channels (14 R376 to R381, R390, R394, R395, R399) -/

namespace Sys2Proof.Claims

/-- A context whose activity can fault it: it is IDLE or LIVE (05 R159). -/
def active (h : Hw) (slot : Nat) : Prop := (h.ctx slot).state = .idle ∨ (h.ctx slot).state = .live

/-- The context has faulted with this cause. -/
def faultedBy (h : Hw) (slot cause : Nat) : Prop := (h.ctx slot).state = .faulted ∧ (h.ctx slot).cause = cause

/-- The caches, log agents and limits of the engines (R376, R378): submissions queued in the module and for one context. -/
def passCache : Engine → Nat | .hdg => hdgCache | .prv => prvCache
def passAgent : Engine → Nat | .hdg => 4 | .prv => 5
def passLimits : Engine → Nat × Nat | .hdg => (64, 16) | .prv => (16, 8)

/-- The one waiting submission has room (R376). -/
def passRoom (h : Hw) (e : Engine) (p : Pass) : Bool :=
  decide ((h.engine e).queue.length < (passLimits e).1) &&
    decide (((h.engine e).queue.filter (fun q => q.slot = p.slot)).length < (passLimits e).2)

/-- The hardware with the submissions of an engine that wait, and the passes it queues. -/
def withPasses (h : Hw) (e : Engine) (waiting queue : List Pass) : Hw :=
  h.setEngine e { h.engine e with waiting := waiting, queue := queue }

end Sys2Proof.Claims

/-- R376 to R381, R390: an engine accepts the first submission that has room when its descriptor passes every step, and one that
fails a step faults its context; the first unfenced pass starts on the lowest free pipe, one of a C0 job before the others; a pass that
completes leaves its pipe, with its cycles counted as busy; a drain ends. -/
def Obligations.WindowPasses : Prop :=
  ∀ (s : State) (e : Engine), calm s.hw = true →
    let h := s.hw
    let w := h.engine e
    (w.waiting = [] → idles s (.passAccept e)) ∧
    (∀ p rest g bs, w.waiting = p :: rest → passRoom h e p = true →
      (withPasses h e rest w.queue).vaRead (passCache e) (passAgent e) p.slot p.va 128 = (g, bs, none) →
      let d := passDesc (e = .prv) (wordsOf bs 32)
      (d.early ≠ 0 → active g p.slot → leaves s (.passAccept e) (fun k => (k.ctx p.slot).state = .faulted)) ∧
      (∀ g2 x, d.early = 0 → d.empty = false → d.middle = 0 → (d.doneEn = false ∨ g.mayUse p.slot d.done = true) →
        g.passPages e p.slot d = (g2, .ok x) → d.overlapBad = false →
        exec (.passAccept e) s = hwNext s (withPasses g2 e (g2.engine e).waiting ((g2.engine e).queue ++
          [{ p with words := wordsOf bs 32 ++ x.head, pages := x.pages }])))) ∧
    (∀ p rest, w.waiting = p :: rest → (passLimits e).1 ≤ w.queue.length → idles s (.passAccept e)) ∧
    (w.queue = [] → idles s (.passStart e)) ∧
    ((∀ y ∈ w.pipes, y.pass.isSome = true ∨ y.drain.isSome = true) → idles s (.passStart e)) ∧
    (∀ i k p y g x, w.freePipe = some i → w.pipes[i]? = some y → w.nextPass (e = .prv) = some k → w.queue[k]? = some p →
      (withPasses h e w.waiting (w.queue.eraseIdx k)).passData e p (passDesc (e = .prv) p.words) = (g, .ok x) →
      leaves s (.passStart e) (fun g => (g.engine e).queue = w.queue.eraseIdx k ∧
        ∃ z, (g.engine e).pipes[i]? = some z ∧ z.pass = some p ∧ z.startAt = h.now ∧ z.busy = y.busy)) ∧
    (∀ (i : Fin 4) stall y p, w.pipes[i.val]? = some y → y.pass = some p →
      leaves s (.passComplete e i stall) (fun g => (g.engine e).pipes[i.val]? = some { y with
          pass := none, rows := [], busy := y.busy + BitVec.ofNat 64 (y.cycles + stall), stall := y.stall + BitVec.ofNat 64 stall })) ∧
    (∀ (i : Fin 4) stall, (∀ y, w.pipes[i.val]? = some y → y.pass = none) → idles s (.passComplete e i stall)) ∧
    (∀ (i : Fin 4) y, w.pipes[i.val]? = some y →
      leaves s (.passDrainEnd e i) (fun g => (g.engine e).pipes[i.val]? = some { y with drain := none } ∧
        (∀ j, j ≠ i.val → (g.engine e).pipes[j]? = w.pipes[j]?) ∧ g.mem = h.mem ∧ g.ctxs = h.ctxs))

/-- R394, R395, R398, R399: a reload that fails a check stops the channel with its reason and faults the context, and one that
passes starts it with an empty window; a line of another form is counted and not processed, one of the right form is counted as
processed; the frame's entry closes the frame. -/
def Obligations.LineRateChannels : Prop :=
  ∀ (s : State) (n : Fin 4), calm s.hw = true →
    let h := s.hw
    let c := h.lineChan n
    let d := lineDesc c.words
    (c.reload = false ∨ c.closing.isSome = true ∨ h.ticksRun = false → idles s (.lineRateReload n)) ∧
    (∀ slot g bs, h.lineFor n = some slot → c.reload = true → c.closing = none → h.ticksRun = true → active h slot →
      (h.setLineChan n { c with owner := some slot }).vaRead prvCache 5 slot c.desc.toNat 128 = (g, bs, none) →
      let new := lineDesc (wordsOf bs 32)
      let reason := g.lineCheck slot n (wordsOf bs 32)
      (reason ≠ 0 → leaves s (.lineRateReload n) (fun k => faultedBy k slot 6 ∧ (k.lineChan n).running = false ∧
        (k.lineChan n).err = true ∧ (k.lineChan n).reason = reason)) ∧
      (∀ g1 g2 pages wblk qblk cblk, reason = 0 →
        g.feedRanges lineFeed slot [] [(new.w, new.wBytes, false), (new.q, new.qBytes, false), (new.cblk, new.cBytes, false),
          (new.out, new.outBytes, true), (new.lab, new.labBytes, true), (new.ftab, 256, true)] = (g1, .ok pages) →
        new.overlapBad = false → g1.lineBlocks slot pages new = (g2, .ok (wblk, qblk, cblk)) →
        leaves s (.lineRateReload n) (fun k => k.lineChan n = { c with
          running := true, reload := false, err := false, reason := 0, owner := some slot, words := wordsOf bs 32, wblk := wblk
          qblk := qblk, cblk := cblk, pages := pages, window := [], rows := 0, lines := 0, frameRows := 0, frameLines := 0
          flags := c.flags ||| 4, stopping := false }))) ∧
    (c.fifo = [] ∨ c.running = false → idles s (.lineRateLine n)) ∧
    (∀ l rest, c.fifo = l :: rest → c.running = true → (c.closing = some l.frame ∨ (c.closing = none ∧ c.reload = false)) →
      let right : Bool := decide (l.width = d.iw) && decide (l.wide = decide (d.pix = 1)) && decide (l.cin = d.cin)
      (right = false → exec (.lineRateLine n) s = hwNext s
        ((h.setLineChan n { c with fifo := rest, flags := c.flags ||| 2 }).setReg (0x1412C + 0x40 * n) (h.reg (0x1412C + 0x40 * n) + 1))) ∧
      (right = true → d.colour = false → d.layer = false → exec (.lineRateLine n) s = hwNext s (h.setLineChan n { c with fifo := rest })) ∧
      (right = true → (d.colour = true ∨ d.layer = true) → leaves s (.lineRateLine n) (fun k =>
        (k.lineChan n).fifo = rest ∧ (k.lineChan n).lines = c.lines + 1 ∧ (k.lineChan n).frameLines = c.frameLines + 1))) ∧
    (∀ k, c.closing = some k → c.running = true → (∀ l ∈ c.fifo, l.frame ≠ k) →
      leaves s (.frameEntry n) (fun g => g.lineChan n = { c with
        frameRows := 0, frameLines := 0, flags := c.nextFlags, nextFlags := 0, closing := none, running := !c.stopping, stopping := false
        fifo := if c.stopping then [] else c.fifo })) ∧
    (c.closing = none → idles s (.frameEntry n))

/-! ### DMA transfers (15 R413 to R427) -/

namespace Sys2Proof.Claims

/-- The exact address of stream byte `j` of a linear side in core memory, counted modulo 2^18 (R414, R416). -/
def lineAt (x : Side) (j : Nat) : Int := ((x.addr % 2 ^ 18 : Nat) : Int) + ((j / x.llen : Nat) : Int) * x.stride + ((j % x.llen : Nat) : Int)

/-- The bytes of a beat there: to the end of the line, and of the 64 aligned bytes (R411). -/
def beatAt (x : Side) (j : Nat) : Nat := min (x.llen - j % x.llen) (64 - (lineAt x j % 64).toNat)

/-- Where in a core's memories that address lies. -/
def coreAt (x : Side) (j : Nat) : Nat := (lineAt x j % (2 ^ 18 : Nat)).toNat

/-- Channel `n` is the one channel of its engine in use, and moves the bytes of an unpaced descriptor with no error waiting. -/
def soleChan (h : Hw) (e : Fin 4) (n : Nat) (c : DmaChan) : Bool :=
  decide (h.dma.chans = [(n, c)]) && decide (n / 32 = e.val) && decide (c.state = .running) && decide (c.words ≠ []) &&
    decide (dmaField c.words 0 14 1 = 0) && c.pend.isNone

/-- Byte `j` of a FILL source: PATTERN repeats every 8 bytes (R415). -/
def fillAt (d : List Word) (j : Nat) : Byte := BitVec.ofNat 8 (dmaPair d 4 / 256 ^ (j % 8))

end Sys2Proof.Claims

/-- R413, R419, R420, R422, R425, R426: a channel takes its descriptor when it passes its checks, and stops with the error code and a
context fault when it does not; a granted burst arms the next one's bytes and takes the request; a descriptor whose last byte is written
counts as done, signals DONE, and goes on to LINK or parks. -/
def Sys2Proof.Claims.descriptorSteps : Prop :=
  ∀ (s : State) (n : Fin 128), calm s.hw = true →
    let h := s.hw
    let c := h.dmaChan n
    let d := c.words
    (c.state ≠ .running ∨ d ≠ [] → idles s (.descriptorFetch n)) ∧
    (∀ g bs, c.state = .running → d = [] → h.vaRead (18 + n / 32) 1 c.slot c.desc.toNat 64 = (g, bs, none) →
      let w := wordsOf bs 16
      (g.dmaCheck n c.slot w = 0 → exec (.descriptorFetch n) s = hwNext s (g.setDmaChan n { c with
        words := w, rd := 0, wr := 0, stage := [], granted := 0, rdLeft := 0, wrLeft := 0, entry := none, pend := none
        armed := dmaPaced w, seenLow := false })) ∧
      (g.dmaCheck n c.slot w ≠ 0 → active h c.slot → leaves s (.descriptorFetch n) (fun k =>
        (k.dmaChan n).state = .error ∧ (k.dmaChan n).err = g.dmaCheck n c.slot w ∧ faultedBy k c.slot 4))) ∧
    (h.eligible c = false → idles s (.dmaBurstGrant n)) ∧
    (∀ k, h.dma.chans = [(n.val, c)] → h.eligible c = true → c.line = some k → c.stage = [] →
      let pos := if (srcSide d).spc = 2 then c.wr else c.rd
      leaves s (.dmaBurstGrant n) (fun g => (g.dmaChan n).granted = min (srcSide d).total (pos + dmaBurst d) ∧ (g.dmaChan n).armed = false ∧
        (k < 16 → Tbl.get 0 g.dma.held k = Tbl.get 0 h.dma.held k - 1) ∧ g.cores = h.cores ∧ g.mem = h.mem)) ∧
    (c.state ≠ .running ∨ d = [] ∨ c.wr ≠ (srcSide d).total → idles s (.descriptorComplete n)) ∧
    (c.state = .running → d ≠ [] → c.wr = (srcSide d).total → c.pend = none →
      leaves s (.descriptorComplete n) (fun g => (g.dmaChan n).done = c.done + 1) ∧
      (dmaField d 0 15 1 = 1 → h.mayUse c.slot (dmaField d 1 16 14) = true →
        (h.counter (dmaField d 1 16 14)).value.toNat + 1 < 2 ^ 64 → leaves s (.descriptorComplete n) (fun g =>
          (g.counter (dmaField d 1 16 14)).value = (h.counter (dmaField d 1 16 14)).value + 1)) ∧
      (dmaField d 0 15 1 = 0 → dmaField d 0 16 1 = 0 →
        (dmaField d 14 0 1 = 0 → exec (.descriptorComplete n) s = hwNext s (h.setDmaChan n { c with
          done := c.done + 1, rdLeft := 0, wrLeft := 0, entry := none, words := [], rd := 0, wr := 0, armed := false
          desc := BitVec.ofNat 64 (dmaPair d 14 % 2 ^ 48 / 64 * 64) })) ∧
        (dmaField d 14 0 1 = 1 → c.recheck = false → exec (.descriptorComplete n) s = hwNext s (h.setDmaChan n { c with
          done := c.done + 1, rdLeft := 0, wrLeft := 0, entry := none, state := .parked, armed := false }))))

/-- R411, R414 to R416, R421: in one fabric cycle an engine reads one beat into a channel's staging buffer, or writes one from it
or from a fill pattern, here in core memory; what is read is not changed, and an engine with no channel in use does nothing. -/
def Sys2Proof.Claims.dmaBeats : Prop :=
  ∀ (s : State) (e : Fin 4), calm s.hw = true →
    let h := s.hw
    (h.dma.chans = [] → idles s (.dmaBeat e)) ∧
    (∀ n c, soleChan h e n c = true →
      let src := srcSide c.words
      let dst := dstSide c.words
      (∀ k, src.spc = 1 → src.pat ≠ 1 → c.rd < src.total → c.stage = [] → h.sideCore c.slot src = some k →
        let len := min (beatAt src c.rd) (src.total - c.rd)
        clean h k (coreAt src c.rd) len = true →
        leaves s (.dmaBeat e) (fun g => (g.dmaChan n).rd = c.rd + len ∧ (g.dmaChan n).wr = c.wr ∧
          (g.dmaChan n).stage = [((h.core k).bytesAt (coreAt src c.rd) len).map (·, false)] ∧
          (g.dmaEngine e).busy = (h.dmaEngine e).busy + 1 ∧ g.cores = h.cores ∧ g.mem = h.mem ∧ g.ctxs = h.ctxs)) ∧
      (∀ k, src.spc = 2 → dst.spc = 1 → dst.pat ≠ 1 → c.wr < src.total → h.sideCore c.slot dst = some k →
        let len := min (beatAt dst c.wr) (src.total - c.wr)
        clean h k (coreAt dst c.wr) len = true →
        leaves s (.dmaBeat e) (fun g => (g.dmaChan n).wr = c.wr + len ∧ (g.dmaEngine e).busy = (h.dmaEngine e).busy + 1 ∧
          (g.core k).bytesAt (coreAt dst c.wr) len = (List.range len).map (fun i => fillAt c.words (c.wr + i)) ∧
          (∀ j, j ≠ k → g.core j = h.core j) ∧ g.mem.cells = h.mem.cells ∧ g.ctxs = h.ctxs)) ∧
      (∀ k, src.spc = 1 → dst.spc = 1 → dst.pat ≠ 1 → c.rd = src.total → c.wr < src.total → 0 < c.stage.flatten.length →
        (∀ b ∈ c.stage.flatten, b.2 = false) → h.sideCore c.slot dst = some k →
        let len := min (beatAt dst c.wr) c.stage.flatten.length
        clean h k (coreAt dst c.wr) len = true →
        leaves s (.dmaBeat e) (fun g => (g.dmaChan n).wr = c.wr + len ∧ (g.dmaChan n).rd = c.rd ∧
          (g.dmaChan n).stage.flatten = c.stage.flatten.drop len ∧
          (g.core k).bytesAt (coreAt dst c.wr) len = (c.stage.flatten.take len).map (·.1) ∧
          (∀ j, j ≠ k → g.core j = h.core j) ∧ g.mem.cells = h.mem.cells ∧ g.ctxs = h.ctxs)))

/-! ### Cameras and output pulses (19 R509 to R518, R527 to R530, 04 R135 to R137) -/

namespace Sys2Proof.Claims

/-- Port `i` lies in a group of `n` connections with master `m`. -/
def inGroup (m n i : Nat) : Prop := m ≤ i ∧ i < m + n ∧ i < 8

/-- CXP_CONFIG's group and speed are legal (R135). -/
def groupOk (p : Packet) : Bool :=
  [1, 2, 4].contains (field p 4 8 4) && [1, 2, 3, 5, 6, 10, 12].contains (field p 4 16 4) && decide (field p 4 0 3 % field p 4 8 4 = 0)

/-- The ports that a CXP_POWER leaves on, and its requests for a port. -/
def asksOn (p : Packet) (n : Nat) : Bool := bit (word p 4) n
def asksOff (p : Packet) (n : Nat) : Bool := bit (word p 4) (8 + n)
def leftOn (h : Hw) (p : Packet) : List Nat := (List.range 8).filter (fun n => (asksOn p n || (h.port n).powered) && !asksOff p n)

/-- The budget of a port in mW (R513). -/
def budgetOf (h : Hw) (n : Nat) : Nat := bits (h.reg (0x2000008 + 0x40 * n)) 0 14

/-- A pixel format of 8 bits: its channels (R516). -/
def eightBit : PixFmt → Option Nat
  | .mono8 => some 1
  | .rgb8 => some 3
  | .rgba8 => some 4
  | _ => none

end Sys2Proof.Claims

/-- R135, R136, R137, R510, R512 to R514: CXP_CONFIG forms a group that waits for discovery; CXP_POWER switches ports within the budget;
CXP_CTRL waits on a group with a link; the camera's answers and a timeout end them with their replies. -/
def Sys2Proof.Claims.cameraPackets : Prop :=
  ∀ (s : State) (p : Packet),
    let h := s.hw
    let rid : RingId := .fn 0
    let m := field p 4 0 3
    let n := field p 4 8 4
    (fnPacket h 0 p 0x801 [(4, 0xF0F07), (5, 0xFFFFFFFF)] = true →
      (groupOk p = false → refused s (.cxpConfig rid p) rid p 0x106 16) ∧
      (groupOk p = true → word p 5 ≠ 0 → h.isHandle (word p 5) = false → refused s (.cxpConfig rid p) rid p 0x103 20) ∧
      (groupOk p = true → (word p 5 = 0 ∨ h.isHandle (word p 5) = true) → leaves s (.cxpConfig rid p) (fun g =>
        (g.ring rid).exec = some ⟨p, .discovery m⟩ ∧ (g.port m).master = true ∧ (g.port m).links = n ∧
        ∀ i, inGroup m n i → (g.port i).link = false ∧ (g.port i).masterPort = m ∧ (g.port i).speed = field p 4 16 4 ∧
          (g.port i).powered = (h.port i).powered))) ∧
    (∀ det : BitVec 8, fnPacket h 0 p 0x802 [(4, 0xFFFF)] = true →
      ((∃ i < 8, asksOn p i = true ∧ asksOff p i = true) → refused s (.cxpPower rid p det) rid p 0x106 16) ∧
      ((∀ i < 8, asksOn p i = false ∨ asksOff p i = false) →
        (52000 < ((leftOn h p).map (budgetOf h)).sum → refused s (.cxpPower rid p det) rid p 0x104 16) ∧
        (((leftOn h p).map (budgetOf h)).sum ≤ 52000 → (∀ i < 8, asksOn p i = true → 0 < budgetOf h i) →
          leaves s (.cxpPower rid p det) (fun g => ∀ i < 8, g.port i =
            if asksOff p i then { h.port i with powered := false }
            else if asksOn p i ∧ (h.port i).powered = false then { h.port i with powered := bit det i, noDev := !bit det i }
            else h.port i)))) ∧
    (fnPacket h 0 p 0x803 [(4, 0x107), (5, 0xFFFFFFFF), (6, 0xFFFFFFFF)] = true →
      let k := h.groupOf m
      ((h.port k).link = false → refused s (.cxpCtrl rid p) rid p 0x107 0) ∧
      ((h.port k).link = true → waits s (.cxpCtrl rid p) rid p (fun g => g.setPort k { h.port k with
        deadline := h.now + 200000000, bound := h.now + 400000000 }) (.camCtrl k))) ∧
    (∀ (k : Fin 8) (r : RingId), calm h = true → h.findExec (.discovery k) = some (r, p) →
      exec (.cxpCameraAnswer k .noCamera) s = hwNext s ((h.setPort k { h.port k with disc := 1 }).reply r p 0 (resultOf [])) ∧
      exec (.cxpCameraAnswer k (.discovered false)) s = hwNext s ((h.setPort k { h.port k with disc := 2 }).reply r p 0 (resultOf [])) ∧
      leaves s (.cxpCameraAnswer k (.discovered true)) (fun g => (g.port k).disc = 0 ∧ (g.ring r).exec = none ∧
        (g.port k).owner = (if h.isHandle (word p 5) then word p 5 else 0) ∧
        ∀ i, inGroup k (h.port k).links i → (g.port i).link = true)) ∧
    (∀ (k : Fin 8) (r : RingId), calm h = true → h.findExec (.discovery k) = none → h.findExec (.camCtrl k) = some (r, p) →
      (∀ v, h.now ≤ (h.port k).deadline → exec (.cxpCameraAnswer k (.ack 0 v)) s = hwNext s (h.reply r p 0
        (resultOf [(0, 4, if bit (word p 4) 8 then 0 else v.toNat)]))) ∧
      (h.now ≤ (h.port k).deadline → exec (.cxpCameraAnswer k .wait) s = hwNext s (h.setPort k { h.port k with
        deadline := min ((h.port k).deadline + 200000000) (h.port k).bound })) ∧
      exec (.cxpCtrlTimeout k) s = hwNext s ((atTime h (h.port k).deadline).reply r p 0x300 (resultOf [(4, 1, 0xFF)])))

/-- R509, R511, R513, R516 to R518: a group that loses its link receives nothing more and keeps its owner; an overload switches a port
off; packets of other kinds are counted; a line of 8-bit samples is stored in its slot with its record, and a line of an unknown format
is discarded and counted. -/
def Sys2Proof.Claims.cameraLines : Prop :=
  ∀ (s : State) (m : Fin 8), calm s.hw = true →
    let h := s.hw
    let x := h.port m
    let on : Prop := x.master = true ∧ x.link = true
    let evt (g : Hw) (i : Nat) : Prop := bit (g.reg (0x2000004 + 0x40 * m)) i = true
    (on → leaves s (.cxpLinkLost m) (fun g => (g.port m).line = none ∧ (g.port m).owner = x.owner ∧ evt g 0 ∧
      ∀ i, inGroup m x.links i → (g.port i).link = false)) ∧
    (¬ on → idles s (.cxpLinkLost m)) ∧
    (∀ short, (x.powered = true → leaves s (.pocxpOverload m short) (fun g => (g.port m).powered = false ∧ evt g 1)) ∧
      (x.powered = false → idles s (.pocxpOverload m short))) ∧
    (∀ k, ¬ on → idles s (.cxpPacketReceive m k)) ∧
    (on → idles s (.cxpPacketReceive m .heartbeat) ∧
      (∀ k, (k = .otherStream ∨ k = .event) → exec (.cxpPacketReceive m k) s =
        hwNext s (h.setReg (0x2000024 + 0x40 * m) (h.reg (0x2000024 + 0x40 * m) + 1))) ∧
      leaves s (.cxpPacketReceive m .lineStart) (fun g => (g.port m).line.isSome = true ∧
        (x.line.isSome = true → (g.port m).line = x.line) ∧ g.reg = h.reg)) ∧
    (∀ l : CamLine, on → l.samples ≠ [] →
      (l.fmt = .other → leaves s (.lineDelivery m l) (fun g => (g.port m).line = none ∧ (g.port m).lseq = x.lseq ∧ evt g 2 ∧
        g.reg (0x2000020 + 0x40 * m) = h.reg (0x2000020 + 0x40 * m) + 1 ∧ g.cxp.bytes = h.cxp.bytes)) ∧
      (∀ cin, eightBit l.fmt = some cin → leaves s (.lineDelivery m l) (fun g =>
        let slot := x.lseq.toNat % 8
        let kept := min (l.samples.length / cin) 16384
        (g.port m).lseq = x.lseq + 1 ∧ (g.port m).line = none ∧
        (∀ i < kept * cin, Tbl.get 0 g.cxp.bytes (0x1000000 + 0x200000 * m + 0x40000 * slot + i) =
          (nth 0 l.samples i).setWidth 8) ∧
        (∀ i < 8, Tbl.get 0 g.cxp.bytes (0x800 + 0x100 * m + 0x20 * slot + i) = nth 0 (bytesOf 8 x.lseq.toNat) i) ∧
        (∀ i < 2, Tbl.get 0 g.cxp.bytes (0x800 + 0x100 * m + 0x20 * slot + 28 + i) = nth 0 (bytesOf 2 kept) i))))

/-- R528 to R530, R141: a due pulse of a bound output is driven in RUN for its width and counted, and in a hold it is suppressed; its
end, and the end of a forced level, come at their times. -/
def Obligations.OutputPulses : Prop :=
  ∀ (s : State) (o : Fin 12), calm s.hw = true →
    let h := s.hw
    let x := h.output o
    (x.queue = [] → idles s (.outputPulseStart o)) ∧
    (∀ e pos w rest, x.queue = ⟨.position e pos, w, true⟩ :: rest →
      let safe : Bool := !decide (h.sys.state = .run) || x.bound.isNone || x.orphan
      (safe = true → leaves s (.outputPulseStart o) (fun g => g.output o = { x with queue := rest } ∧
        bit (g.reg (0x1F108 + 0x20 * o)) 2 = true ∧ ∀ i, i ≠ o.val → g.output i = h.output i)) ∧
      (safe = false → leaves s (.outputPulseStart o) (fun g =>
        let start := if o.val < 8 then (h.now / 4 + 1) * 4 else h.now
        g.output o = { x with queue := rest, activeUntil := some (match x.activeUntil with
          | some e => max e (start + w) | none => start + w) } ∧ g.now = start ∧
        g.reg (0x1F10C + 0x20 * o) = h.reg (0x1F10C + 0x20 * o) + 1 ∧ ∀ i, i ≠ o.val → g.output i = h.output i))) ∧
    (x.activeUntil = none → idles s (.outputPulseEnd o)) ∧
    (∀ e, x.activeUntil = some e → exec (.outputPulseEnd o) s = hwNext s ((atTime h e).setOutput o { x with activeUntil := none })) ∧
    (x.forced = none → idles s (.forceDurationEnd o)) ∧
    (∀ f, x.forced = some f → exec (.forceDurationEnd o) s = hwNext s ((atTime h f.2).setOutput o { x with forced := none }))

/-! ### Memory care and Coppice (17 R466, R474 to R478, 18 R487 to R490, R497, R503) -/

namespace Sys2Proof.Claims

/-- Where a scrub item of `size` bytes from `pos` ends: cut short at the end of its memory (R474). -/
def scrubStop (pos size : Nat) : Nat := pos + min size (if pos < 0x600000000 then 0x600000000 - pos else 0x10003000000 - pos)

/-- The position and pass count after an item that ends at `stop`: HBM3, then shared SRAM, then the next pass (R474). -/
def scrubNext (h : Hw) (stop : Nat) (g : Hw) : Prop :=
  if stop = 0x600000000 then g.mem.scrubPos = 0x10000000000 ∧ g.mem.scrubPass = h.mem.scrubPass
  else if 0x10003000000 ≤ stop then g.mem.scrubPos = 0 ∧ g.mem.scrubPass = h.mem.scrubPass + 1
  else g.mem.scrubPos = stop ∧ g.mem.scrubPass = h.mem.scrubPass

/-- What a scrub of `[pos, stop)` does to one granule that alone has an error: an uncorrectable one is poison after it, one outside
stays as it is; no memory byte changes. -/
def scrubs (h : Hw) (pos stop : Nat) (g : Hw) : Prop :=
  g.mem.cells = h.mem.cells ∧ ∀ a, h.mem.gran = [(a, .uncorrectable)] →
    g.gran a = if pos ≤ a ∧ a < stop then .poison else .uncorrectable

end Sys2Proof.Claims

/-- R466, R474 to R476: in READY an idle item scrubs 256 KiB at the next multiple of its period, a planned item its size; a granule that
cannot be corrected becomes poison, and the position moves on; the steward's count is stored. -/
def Sys2Proof.Claims.scrubbing : Prop :=
  ∀ (s : State), calm s.hw = true →
    let h := s.hw
    let pos := h.mem.scrubPos
    (h.sys.state ≠ .ready → idles s .scrubIdleItem) ∧
    (h.sys.state = .ready → leaves s .scrubIdleItem (fun g =>
      scrubs h pos (scrubStop pos 262144) g ∧ scrubNext h (scrubStop pos 262144) g ∧
      (bits (h.reg 0x1D028) 8 8 ≠ 0 → h.now < g.now ∧ g.now % (10000 * bits (h.reg 0x1D028) 8 8) = 0))) ∧
    (h.col.itemsLeft = [] → idles s .scrubItem) ∧
    (∀ n rest, h.col.itemsLeft = .scrub n :: rest → leaves s .scrubItem (fun g =>
      g.col.itemsLeft = rest ∧ scrubs h pos (scrubStop pos n) g ∧ scrubNext h (scrubStop pos n) g)) ∧
    (∀ n, (h.sys.stewardOn = true → exec (.odcntRead n) s = hwNext s (h.setReg 0x1D040 n)) ∧
      (h.sys.stewardOn = false → idles s (.odcntRead n)))

/-- R487 to R491, R335, R497, R503: a test step counts toward the 16 of its unit's test; the last one counts the test, and a failed one as
failed; a check that fails in an array with a command faults the context; a finished copy is noted; the oldest remap without an entry
is stored in the field map, up to 1,024 entries. -/
def Sys2Proof.Claims.testsAndMaps : Prop :=
  ∀ (s : State), calm s.hw = true →
    let h := s.hw
    (∀ u, h.col.itemsLeft = [] → idles s (.coppiceTest u [])) ∧
    (∀ (u : Word) k, h.col.itemsLeft = [.test u.toNat (k + 1)] → (unitKind u.toNat = 3 ∨ unitKind u.toNat = 4) →
      let r := h.unitRec u.toNat
      (r.left ≠ 1 → leaves s (.coppiceTest u []) (fun g => (g.unitRec u.toNat).left = (if r.left = 0 then 16 else r.left) - 1 ∧
        (g.unitRec u.toNat).count = r.count ∧ g.reg 0x1E008 = h.reg 0x1E008 ∧
        g.col.itemsLeft = if k = 0 then [] else [.test u.toNat k])) ∧
      (r.left = 1 → (∀ e ∈ h.cpc.units, e.2.bad = false) →
        leaves s (.coppiceTest u []) (fun g => g.reg 0x1E008 = h.reg 0x1E008 + 1 ∧ g.reg 0x1E00C = h.reg 0x1E00C ∧
          (r.confirmed = false → (g.unitRec u.toNat).count = 0 ∧ (g.unitRec u.toNat).passed = true))) ∧
      (r.left = 1 → r.confirmed = false → leaves s (.coppiceTest u [u]) (fun g =>
        g.reg 0x1E008 = h.reg 0x1E008 + 1 ∧ g.reg 0x1E00C = h.reg 0x1E00C + 1 ∧ (g.unitRec u.toNat).count = r.count + 1 ∧
          ((g.unitRec u.toNat).confirmed = true ↔ r.count = 2)))) ∧
    (∀ (c : Fin 18),
      ((h.core c).run ≠ .job → idles s (.datapathCheckFail (BitVec.ofNat 32 (0x30000000 + c)))) ∧
      ((h.core c).run = .job → (h.unitRec (0x30000000 + c)).confirmed = false →
        leaves s (.datapathCheckFail (BitVec.ofNat 32 (0x30000000 + c))) (fun g =>
          (g.unitRec (0x30000000 + c)).count = (h.unitRec (0x30000000 + c)).count + 1 ∧
          ∀ a, h.planOf (h.core c).slot (h.core c).job = some a → a.slot = (h.core c).slot → a.job = (h.core c).job →
            h.unfinished a.slot a.job = true → (g.core c).run = .none))) ∧
    (∀ (a : Fin 4),
      ((h.array a).run = none → idles s (.datapathCheckFail (BitVec.ofNat 32 (0x40000000 + a)))) ∧
      (∀ r, (h.array a).run = some r → active h r.cmd.slot → leaves s (.datapathCheckFail (BitVec.ofNat 32 (0x40000000 + a))) (fun g =>
        faultedBy g r.cmd.slot 5 ∧ (g.ctx r.cmd.slot).detail = 0 ∧ (g.ctx r.cmd.slot).unit = a))) ∧
    (∀ b : Fin 32, leaves s (.sramBankCopyDone b) (fun g => g.cpc.copy.length = h.cpc.copy.length ∧
      (∀ c ∈ g.cpc.copy, c.logical = b.val → c.copied = true) ∧ g.mem = h.mem ∧ g.cpc.banks = h.cpc.banks)) ∧
    (h.sys.stewardOn = true →
      (h.cpc.unstored = [] → idles s .fieldMapWrite) ∧
      (∀ u rest, h.cpc.unstored = u :: rest →
        (h.cpc.field.length < 1024 → exec .fieldMapWrite s = hwNext s { h with cpc := { h.cpc with
          unstored := rest, field := h.cpc.field ++ [u] } }) ∧
        (1024 ≤ h.cpc.field.length → leaves s .fieldMapWrite (fun g => g.cpc.field = h.cpc.field ∧ g.cpc.unstored = rest ∧
          bit (g.reg 0x1E000) 1 = true))))

/-! ### Ethernet, the PTP clock and the cages (20 R535 to R541, R560, R566, 23 R617) -/

namespace Sys2Proof.Claims

/-- The answer to a management datagram goes back to its sender: address, port, then the reply (R538). -/
def mgmtReply (ip : Word) (udp : BitVec 16) (p : Packet) (status : Nat) (result : List Byte) : List Byte :=
  bytesOf 4 ip.toNat ++ bytesOf 2 udp.toNat ++ bytesOf 4 p.seq.toNat ++ bytesOf 4 (status + p.opcode.toNat * 65536) ++
    bytesOf 4 p.handle.toNat ++ bytesOf 4 0 ++ result

/-- A port answers management datagrams. -/
def mgmtOpen (h : Hw) (port : Fin 2) : Bool :=
  (h.ethPort port).link && (h.ethPort port).enabled && bit (h.reg (0x20004 + 0x100 * port)) 1 && h.sys.stewardOn && h.sys.everReady

/-- The sender's address passes the port's access list. -/
def listed (h : Hw) (port : Fin 2) (ip : Word) : Bool :=
  decide ((ip ^^^ h.reg (0x20020 + 0x100 * port)) &&& h.reg (0x20024 + 0x100 * port) = 0)

/-- What a port sends, newest first, grows by these bytes. -/
def sends (h : Hw) (port : Fin 2) (bytes : List Byte) : Hw :=
  h.setEthPort port { h.ethPort port with sent := bytes :: (h.ethPort port).sent }

/-- The 40 header bytes of a result-stream datagram and its records (R560). -/
def streamBytes (h : Hw) (d : Datagram) : List Byte :=
  bytesOf 2 1 ++ bytesOf 2 (if h.wml.joined then h.wml.id else 0xFFFF) ++ bytesOf 6 d.fnum.toNat ++ bytesOf 2 d.records.length ++
    bytesOf 4 d.dseq.toNat ++ bytesOf 8 d.tickTime.toNat ++ [d.flags] ++ bytesOf 1 d.part ++ bytesOf 6 0 ++ d.records.flatten

/-- The rate that a servo update sets lies within ±500 ppm (R540). -/
def heldRate (ppb : Int) : Int := max (-500000) (min ppb 500000)

end Sys2Proof.Claims

/-- R535 to R538, R560, R566, R617: management datagrams are answered to listed senders only and only for the opcodes allowed there;
frames received; the oldest datagram of the result stream leaves; a cage supplies a transceiver that it accepts, and an overpower or
removal drops its links. -/
def Obligations.NetworkPorts : Prop :=
  ∀ (s : State) (port : Fin 2), calm s.hw = true →
    let h := s.hw
    let x := h.ethPort port
    (∀ (ip : Word) (udp : BitVec 16) (p : Packet),
      (mgmtOpen h port = false → idles s (.managementDatagram port ip udp p)) ∧
      (mgmtOpen h port = true → listed h port ip = false → exec (.managementDatagram port ip udp p) s =
        hwNext s (h.setReg (0x2003C + 0x100 * port) (h.reg (0x2003C + 0x100 * port) + 1))) ∧
      (mgmtOpen h port = true → listed h port ip = true → p.slots.toNat = 1 → bits p.flags 1 3 = 0 → p.rsv0 = 0 → p.word3 = 0 →
        (p.opcode = 1 → p.handle = 0 → onlyBits p [] = true → exec (.managementDatagram port ip udp p) s =
          hwNext s (sends h port (mgmtReply ip udp p 0 (List.replicate 16 0)))) ∧
        (p.opcode = 0x10 → exec (.managementDatagram port ip udp p) s =
          hwNext s (sends h port (mgmtReply ip udp p 0x105 (List.replicate 16 0)))))) ∧
    (x.link = false → ∀ f, idles s (.ethFrameReceive port f)) ∧
    (x.link = true →
      exec (.ethFrameReceive port .unsupported) s =
        hwNext s (h.setReg (0x20030 + 0x100 * port) (h.reg (0x20030 + 0x100 * port) + 1)) ∧
      idles s (.ethFrameReceive port .otherUdp) ∧
      (∀ t a, (x.enabled = false ∨ t ≠ h.reg (0x20010 + 0x100 * port)) → idles s (.ethFrameReceive port (.arpRequest t a)) ∧
        idles s (.ethFrameReceive port (.icmpEcho t a))) ∧
      (∀ t a, x.enabled = true → t = h.reg (0x20010 + 0x100 * port) →
        exec (.ethFrameReceive port (.arpRequest t a)) s = hwNext s (sends h port
          (bytesOf 6 (Config.mac port).toNat ++ bytesOf 4 t.toNat ++ bytesOf 4 a.toNat)) ∧
        exec (.ethFrameReceive port (.icmpEcho t a)) s = hwNext s (sends h port (bytesOf 4 t.toNat ++ bytesOf 4 a.toNat)))) ∧
    (h.cageOn port = true → exec (.ethLinkState port true) s = hwNext s (h.setEthPort port { x with link := true })) ∧
    (h.cageOn port = false → idles s (.ethLinkState port true)) ∧
    exec (.ethLinkState port false) s = hwNext s (h.setEthPort port { x with link := false }) ∧
    (∀ d rest, x.link = true → x.enabled = true → x.queue = d :: rest →
      leaves s (.datagramTransmit port) (fun g => g.ethPort port = { x with queue := rest, sent := streamBytes h d :: x.sent } ∧
        g.reg (0x20038 + 0x100 * port) = h.reg (0x20038 + 0x100 * port) + 1)) ∧
    (x.link = false ∨ x.enabled = false ∨ x.queue = [] → idles s (.datagramTransmit port)) ∧
    (∀ (c : Fin 4) (t : Transceiver),
      ((h.cage c).plugged = none → exec (.transceiverInsert c t) s = hwNext s (h.setCage c { plugged := some t })) ∧
      ((h.cage c).plugged.isSome = true → idles s (.transceiverInsert c t)) ∧
      ((h.cage c).plugged = none → idles s (.transceiverRemove c)) ∧
      ((h.cage c).plugged.isSome = true → leaves s (.transceiverRemove c) (fun g => g.cage c = {} ∧ g.cageOn c = false ∧
        (c.val < 2 → (g.ethPort c).link = false))) ∧
      (h.cageOn c = false → idles s (.transceiverOverpower c)) ∧
      (h.cageOn c = true → leaves s (.transceiverOverpower c) (fun g => g.cage c = { h.cage c with off := true } ∧ g.cageOn c = false ∧
        (c.val < 2 → (g.ethPort c).link = false))))

/-- R539 to R541: a better master is taken and its port becomes UNCALIBRATED; a servo update sets the rate, or steps the time from 1 ms
on; TIME_FAULT is set beyond 1,000 ns, and cleared by the fourth offset in a row within 800 ns; a lost master starts holdover,
whose end sets TIME_FAULT; a master port sends Syncs. -/
def Obligations.ClockServo : Prop :=
  ∀ (s : State) (port : Fin 2), calm s.hw = true →
    let h := s.hw
    let q := h.ptp
    let live : Prop := (h.ethPort port).link = true ∧ (h.ethPort port).enabled = true ∧ q.role ≠ 0 ∧ q.mask.testBit port = true ∧
      nth 0 q.states port = 6
    (∀ clock : Dword, (h.ethPort port).link = true → q.role ≠ 0 → q.mask.testBit port = true →
      (q.hasMaster = false ∨ q.master ≠ clock ∨ q.slavePort ≠ port.val) →
      leaves s (.ethFrameReceive port (.ptpAnnounce clock true)) (fun g => g.ptp.hasMaster = true ∧ g.ptp.master = clock ∧
        g.ptp.slavePort = port.val ∧ g.ptp.measured = false ∧ nth 0 g.ptp.states port = 8 ∧ g.ptp.time = q.time)) ∧
    (∀ (offset : Int) (mpd : Word) (ppb : Int),
      (q.hasMaster = false ∨ q.slavePort ≠ port.val ∨ q.role = 0 → idles s (.ptpSync port offset mpd ppb)) ∧
      (q.hasMaster = true → q.slavePort = port.val → q.role ≠ 0 → leaves s (.ptpSync port offset mpd ppb) (fun g =>
        g.ptp.offset = offset ∧ g.ptp.mpd = mpd ∧ g.ptp.measured = true ∧
        (offset.natAbs < 1000000 → g.ptp.freq = heldRate ppb ∧ g.ptp.time = q.time) ∧
        (1000000 ≤ offset.natAbs → g.ptp.freq = q.freq ∧ g.ptp.time = q.time - BitVec.ofInt 64 offset) ∧
        (1000 < offset.natAbs → g.ptp.fault = true ∧ g.ptp.good = 0) ∧
        (offset.natAbs ≤ 800 → g.ptp.good = min (q.good + 1) 4 ∧ (g.ptp.fault = true ↔ q.fault = true ∧ q.good + 1 < 4)) ∧
        (800 < offset.natAbs → offset.natAbs ≤ 1000 → g.ptp.good = 0 ∧ g.ptp.fault = q.fault)))) ∧
    ((live → exec (.ptpSyncTransmit port) s = hwNext s { h with ptp := { q with syncsSent := q.syncsSent + 1 } }) ∧
      (¬ live → idles s (.ptpSyncTransmit port))) ∧
    (q.hasMaster = false → idles s .masterlost) ∧
    (q.hasMaster = true → leaves s .masterlost (fun g => g.ptp.hasMaster = false ∧ g.ptp.holdover = some h.now ∧ g.ptp.good = 0 ∧
      g.ptp.fault = q.fault ∧ g.ptp.freq = q.freq ∧ bit (g.reg 0x21008) 2 = true)) ∧
    (q.holdover = none → idles s .holdoverExpiry) ∧
    (∀ t, q.holdover = some t → leaves s .holdoverExpiry (fun g => g.ptp.fault = true ∧
      g.now = max h.now (t + 1000000 * bits (h.reg 0x21028) 0 16)))

/-! ### Waimaco links and the domain (20 R543 to R559, 04 R144, R146) -/

namespace Sys2Proof.Claims

/-- The first frame of a kind that waits in a link's inbox, with what waits before and after it. -/
def holds (h : Hw) (k : Fin 8) (kind : LinkPayload → Bool) (p : LinkPayload) (rest : List LinkPayload) : Prop :=
  ∃ pre post, (h.link k).inbox = pre ++ p :: post ∧ kind p = true ∧ (∀ x ∈ pre, kind x = false) ∧ rest = pre ++ post

def isJoin : LinkPayload → Bool | .join _ => true | _ => false
def isRoute : LinkPayload → Bool | .route _ => true | _ => false
def isTick : LinkPayload → Bool | .tick _ => true | _ => false
def isBeacon : LinkPayload → Bool | .beacon _ => true | _ => false
def isSync : LinkPayload → Bool | .syncOp _ => true | _ => false

/-- No frame of a kind waits. -/
def lacks (h : Hw) (k : Fin 8) (kind : LinkPayload → Bool) : Prop := ∀ x ∈ (h.link k).inbox, kind x = false

/-- How far a received frame's SEQ lies after the one expected (R545). -/
def seqAhead (h : Hw) (k : Fin 8) (f : LinkFrame) : Nat := (f.seq.toNat + 4096 - (h.link k).rxSeq) % 4096

/-- Frames that occupy the replay buffer and are known (R562, R563). -/
def sequenced (p : LinkPayload) : Bool :=
  isJoin p || isRoute p || isTick p || isBeacon p ||
    (match p with | .syncOp o => decide (1 ≤ o.op.toNat) && decide (o.op.toNat ≤ 6) | _ => false)

/-- A ROUTE frame about this module (R553, R563). -/
def routeNow (h : Hw) : RoutePayload :=
  ⟨BitVec.ofNat 14 h.wml.id, BitVec.ofNat 8 h.wml.depth, h.wml.joined, h.wml.leaving, BitVec.ofNat 32 h.wml.plat,
   BitVec.ofNat 14 h.wml.leader⟩

/-- The contexts that a domain swap arms (R146). -/
def armedSlots (p : Packet) : List Nat := (List.range 256).filter (fun n => bit (word p (8 + n / 32)) (n % 32))

/-- The frame number of this module's next tick. -/
def tickNumber (h : Hw) : BitVec 48 := if h.frm.running && !h.frm.waiting then h.frm.fnum + 1 else 0

/-- A domain tick is used: the frame logic is RUNNING on SEL 6 (R29). -/
def usesDomain (h : Hw) : Bool := h.frm.running && decide (bits (h.actReg 0x1004) 0 3 = 6)

/-- A request that the leader accepts: its own firmware major version and digest, and an ID that no member has (R549). -/
def joinable (h : Hw) (j : JoinPayload) : Bool :=
  decide (j.fwMajor.toNat = h.wml.major) && decide (j.digest = h.wml.digest) && decide (j.joiner.toNat ≠ h.wml.id) &&
    !h.wml.members.contains j.joiner.toNat

/-- Without its leader's beacons for 16 frames, where ticks run (R552). -/
def leaderSilent (h : Hw) : Bool :=
  h.wml.joined && !h.wml.isLeader && (decide (16 ≤ h.wml.beaconFrames) || !(h.frm.running && !h.frm.waiting))

end Sys2Proof.Claims

/-- R543 to R547, R554: a link trains no sooner than 400 ms after power good; a frame in order is accepted, a duplicate discarded, and a
damaged frame or a gap counted and answered by NAK; a NAK replays what is not acknowledged and the sixteenth in a row takes the link
DOWN, which discards and counts what is held; IDLE frames carry link time, and one from the parent sets it. -/
def Obligations.LinkFrames : Prop :=
  ∀ (s : State) (k : Fin 8), calm s.hw = true →
    let h := s.hw
    let l := h.link k
    (∀ t : TrainInfo,
      (h.mayTrain k = false → idles s (.linkTrain k t) ∧ idles s (.linkTrainRetry k)) ∧
      (h.mayTrain k = true →
        leaves s (.linkTrain k t) (fun g => (g.link k).state = .up ∧ (g.link k).partner = t.partner.toNat ∧ (g.link k).delay = t.delay ∧
          (g.link k).rxSeq = 0 ∧ (g.link k).inbox = l.inbox ∧ g.now = max h.now (h.sys.powerGoodAt + 400000000) ∧
          (h.wml.joined = false → (g.link k).replay = [] ∧ (g.link k).sent = l.sent) ∧
          (h.wml.joined = true → (g.link k).replay = [(0, .route (routeNow h))])) ∧
        leaves s (.linkTrainRetry k) (fun g => g.link k = { l with state := .train } ∧
          g.now = max h.now (h.sys.powerGoodAt + 400000000)))) ∧
    (l.state = .down → idles s (.linkDown k)) ∧
    (l.state ≠ .down → leaves s (.linkDown k) (fun g => g.link k = { ({} : Link) with inbox := l.inbox, sent := l.sent } ∧
      (∀ i : Nat, i ≠ k.val → g.link i = h.link i) ∧
      g.reg 0x22034 = h.reg 0x22034 + BitVec.ofNat 32 (l.replay.length + l.waiting.length))) ∧
    (∀ d : Word, (l.state ≠ .up → idles s (.linkDelayMeasure k d)) ∧
      (l.state = .up → leaves s (.linkDelayMeasure k d) (fun g => g.link k = { l with delay := d }))) ∧
    (∀ f : LinkFrame,
      (l.state = .down ∨ l.state = .train → idles s (.linkFrameReceive k f)) ∧
      (l.state = .up ∨ l.state = .foreign → f.crcOk = false ∨ f.rsvOk = false →
        leaves s (.linkFrameReceive k f) (fun g => (g.link k).rxSeq = l.rxSeq ∧ (g.link k).inbox = l.inbox ∧
          g.reg (0x2210C + 0x20 * k) = h.reg (0x2210C + 0x20 * k) + 1 ∧
          ∃ out, (g.link k).sent = out :: l.sent ∧ out.nak = true ∧ out.ack = BitVec.ofNat 12 (l.rxSeq + 4095))) ∧
      (l.state = .up → f.crcOk = true → f.rsvOk = true → f.nak = false → sequenced f.payload = true →
        (seqAhead h k f = 0 → leaves s (.linkFrameReceive k f) (fun g =>
          (g.link k).rxSeq = (l.rxSeq + 1) % 4096 ∧ (g.link k).inbox = l.inbox ++ [f.payload])) ∧
        (1 ≤ seqAhead h k f → leaves s (.linkFrameReceive k f) (fun g => (g.link k).rxSeq = l.rxSeq ∧ (g.link k).inbox = l.inbox ∧
          (2048 ≤ seqAhead h k f → g.reg (0x2210C + 0x20 * k) = h.reg (0x2210C + 0x20 * k)) ∧
          (seqAhead h k f < 2048 → g.reg (0x2210C + 0x20 * k) = h.reg (0x2210C + 0x20 * k) + 1))))) ∧
    (∀ q : BitVec 12,
      (l.state ≠ .up → idles s (.nak k q)) ∧
      (∀ pre p post, l.state = .up → l.replay = pre ++ (q.toNat, p) :: post → (∀ e ∈ pre, e.1 ≠ q.toNat) → post = [] →
        exec (.nak k q) s = hwNext s (h.setLink k { l with replay := [], fails := 0 })) ∧
      (l.state = .up → l.replay ≠ [] → (∀ e ∈ l.replay, e.1 ≠ q.toNat) →
        leaves s (.nak k q) (fun g => g.reg (0x22108 + 0x20 * k) = h.reg (0x22108 + 0x20 * k) + 1 ∧
          (l.fails < 15 → (g.link k).state = .up ∧ (g.link k).replay = l.replay ∧ (g.link k).fails = l.fails + 1 ∧
            (g.link k).sent.length = l.sent.length + l.replay.length) ∧
          (15 ≤ l.fails → (g.link k).state = .down)))) ∧
    (l.state = .up ∨ l.state = .foreign → leaves s (.idle k false) (fun g =>
      ∃ out, (g.link k).sent = out :: l.sent ∧ out.payload = .idle h.wml.ltime ∧ out.nak = false ∧ g.wml.ltime = h.wml.ltime)) ∧
    (l.state = .down ∨ l.state = .train → idles s (.idle k false)) ∧
    (l.idleTime = none → idles s (.idle k true)) ∧
    (∀ t, l.idleTime = some t → leaves s (.idle k true) (fun g => g.link k = { l with idleTime := none } ∧
      (h.wml.parent = some k.val → g.wml.ltime = t + l.delay.setWidth 64) ∧
      (h.wml.parent ≠ some k.val → g.wml.ltime = h.wml.ltime)))

/-- R144, R549, R552, R553: a module asks on its UP links to join, and forms a domain alone where no partner answers; the leader accepts
an agreeing request, and the first answer decides; ROUTE frames tell a neighbour's place in the tree; 16 frames and 10 ms without the
leader's beacons give a new one. -/
def Obligations.DomainMembership : Prop :=
  ∀ (s : State), calm s.hw = true →
    let h := s.hw
    (∀ (f : Fin 32) (p : Packet), fnPacket h f p 0xA01 ((4, 0x33FFF) :: (List.range 8).map (fun i => (8 + i, 0xFFFFFFFF))) = true →
      let i : Instr := .domainJoin (.fn f) p
      (h.wml.joined = true → refused s i (.fn f) p 0x107 0) ∧
      (h.wml.joined = false → field p 4 16 2 = 0 → refused s i (.fn f) p 0x106 16) ∧
      (h.wml.joined = false → field p 4 16 2 ≠ 0 → leaves s i (fun g =>
        g.wml.joining = some ⟨field p 4 0 14,
          (List.range 8).filter (fun k => (field p 4 16 2).testBit (k / 4) && decide ((h.link k).state = .up)),
          (List.range 8).map (fun j => word p (8 + j)), h.now + 400000000⟩ ∧
        g.wml.joined = false ∧ (g.ring (.fn f)).exec = some ⟨p, .join⟩))) ∧
    (h.wml.joining = none → idles s .domainAlone) ∧
    (∀ j, h.wml.joining = some j → leaves s .domainAlone (fun g => g.wml.joined = true ∧ g.wml.joining = none ∧ g.wml.id = j.id ∧
      g.wml.leader = j.id ∧ g.wml.isLeader = true ∧ g.wml.members = [j.id] ∧ g.wml.digest = j.digest ∧ g.now = max h.now j.deadline)) ∧
    (∀ k : Fin 8, (lacks h k isJoin → idles s (.join k)) ∧
      (∀ j rest, holds h k isJoin (.join j) rest →
        (j.op = 1 → h.wml.joined = true → h.wml.isLeader = true → leaves s (.join k) (fun g =>
          g.wml.members = (if joinable h j then h.wml.members ++ [j.joiner.toNat] else h.wml.members) ∧ (g.link k).inbox = rest)) ∧
        (j.op = 1 → h.wml.joined = false → leaves s (.join k) (fun g => g.wml = { h.wml with links := g.wml.links } ∧
          (g.link k).inbox = rest)) ∧
        (∀ w, h.wml.joining = some w → w.id = j.joiner.toNat → w.links.contains k.val = true →
          (∀ e ∈ h.wml.relays, e.1 ≠ j.joiner.toNat) →
          (j.op = 2 → leaves s (.join k) (fun g => g.wml.joined = true ∧ g.wml.joining = none ∧ g.wml.id = w.id ∧
            g.wml.leader = j.leader.toNat ∧ g.wml.parent = some k.val ∧ g.wml.depth = 1 ∧ g.wml.heardAt = h.now)) ∧
          (j.op = 3 → leaves s (.join k) (fun g => g.wml.joining = none ∧ g.wml.joined = h.wml.joined ∧
            g.wml.members = h.wml.members))))) ∧
    (∀ k : Fin 8, (h.wml.joined = false → idles s (.route k false)) ∧
      (h.wml.joined = true → (h.link k).state = .up → (h.link k).waiting = [] → 1 ≤ nth 0 (h.link k).credits 3 →
        (h.link k).replay.length < 2048 → leaves s (.route k false) (fun g =>
          (g.link k).replay = (h.link k).replay ++ [((h.link k).txSeq, .route (routeNow h))] ∧
          (g.link k).txSeq = ((h.link k).txSeq + 1) % 4096)) ∧
      (lacks h k isRoute → idles s (.route k true)) ∧
      (∀ r rest, holds h k isRoute (.route r) rest → h.wml.joined = false → leaves s (.route k true) (fun g =>
        (g.link k).neighbour = (if r.origin.toNat = (h.link k).partner then some r else (h.link k).neighbour) ∧
        (g.link k).inbox = rest)) ∧
      (∀ r rest, holds h k isRoute (.route r) rest → h.wml.joined = true → r.origin.toNat ≠ h.wml.id →
        r.origin.toNat ≠ (h.link k).partner → r.leaving = true → leaves s (.route k true) (fun g =>
          g.wml.members = h.wml.members.filter (· ≠ r.origin.toNat)))) ∧
    (leaderSilent h = false → idles s .leaderLost) ∧
    (leaderSilent h = true → leaves s .leaderLost (fun g => g.now = max h.now (h.wml.heardAt + 10000000) ∧ bit (g.reg 0x22020) 4 = true ∧
      ((∀ k : Fin 8, (h.link k).state ≠ .up) → g.wml.leader = h.wml.id ∧ g.wml.isLeader = true)))

/-- R146, R555 to R559: TICK frames wait for their FIRE, and one with the module's next number makes its tick due, at once; others mark
it UNSYNC; the leader numbers its ticks and delays them by the domain's latency; beacons go up and down the tree; a domain swap
arms; remote signals and waits act on the counters opened to them, and waits end at their limit. -/
def Obligations.DomainTicks : Prop :=
  ∀ (s : State), calm s.hw = true →
    let h := s.hw
    (∀ k : Fin 8, (lacks h k isTick → idles s (.tickFrame k)) ∧
      (∀ t rest, holds h k isTick (.tick t) rest → leaves s (.tickFrame k) (fun g => (g.link k).inbox = rest ∧
        g.wml.ticks = (if h.wml.joined && !h.wml.isLeader && decide (h.wml.parent = some k.val) then h.wml.ticks ++ [t]
          else h.wml.ticks)))) ∧
    (h.wml.ticks = [] → idles s .domainTickFire) ∧
    (∀ t rest, h.wml.ticks = t :: rest → t.fire ≤ h.wml.ltime →
      (usesDomain h = false → h.wml.swap = none → exec .domainTickFire s = hwNext s { h with wml.ticks := rest }) ∧
      (usesDomain h = true → h.frm.due = none → t.fnum = tickNumber h → leaves s .domainTickFire (fun g => g.wml.ticks = rest ∧
        g.frm = { h.frm with due := some (.domain, heldTo h h.now) } ∧ g.wml.commit = t.commit ∧ g.wml.abort = t.abort ∧
        g.wml.realign = t.realign ∧ g.wml.matched = true ∧ g.wml.unsync = h.wml.unsync)) ∧
      (usesDomain h = true → h.frm.due = none → t.fnum ≠ tickNumber h → h.wml.catchup = none → h.wml.holding = false →
        h.wml.unsync = false ∨ t.realign = false → leaves s .domainTickFire (fun g => g.wml.ticks = rest ∧ g.wml.unsync = true ∧
          g.frm = { h.frm with due := some (.domain, heldTo h h.now) } ∧ g.wml.matched = false ∧ g.wml.commit = false))) ∧
    (h.wml.sourceEvent = none → idles s .leaderTickEmit) ∧
    (∀ t, h.wml.sourceEvent = some t → h.wml.joined = true → h.wml.isLeader = true → leaves s .leaderTickEmit (fun g =>
      g.wml.sourceEvent = none ∧ ∃ p : TickPayload, g.wml.ticks = h.wml.ticks ++ [p] ∧
        p.fnum = tickNumber h + BitVec.ofNat 48 h.wml.ticks.length ∧ p.fire = t + BitVec.ofNat 64 h.wml.dlat ∧
        (p.realign = true ↔ p.fnum.toNat % 64 = 0) ∧ (h.wml.latch = false → p.commit = false))) ∧
    (h.wml.catchup = none → idles s .catchUpTick) ∧
    (∀ f, h.wml.catchup = some f → h.frm.running = true → h.frm.waiting = false → h.frm.due = none → (h.frm.fnum + 1).toNat ≠ f →
      leaves s .catchUpTick (fun g => g.frm = { h.frm with due := some (.catchUp, h.frm.lastTick + 1500) } ∧
        g.now = max h.now (h.frm.lastTick + 1500))) ∧
    (h.wml.joined = false ∨ h.wml.sentBeacon = true ∨ h.sys.state = .tripped → idles s (.beacon none)) ∧
    (h.wml.joined = true → h.wml.sentBeacon = false → h.sys.state ≠ .tripped → leaves s (.beacon none) (fun g =>
      g.wml.sentBeacon = true ∧ (h.wml.isLeader = true → ∃ b, g.wml.down = some b ∧ b.member = BitVec.ofNat 14 h.wml.id ∧
        b.fnum = h.frm.fnum ∧ b.down = true ∧ b.unsync = h.wml.unsync ∧ b.timef = h.ptp.fault))) ∧
    (∀ k : Fin 8, (lacks h k isBeacon → idles s (.beacon (some k))) ∧
      (∀ b rest, holds h k isBeacon (.beacon b) rest → h.wml.joined = true →
        (b.down = false → h.wml.parent ≠ some k.val → leaves s (.beacon (some k)) (fun g => (g.link k).beacon = some b ∧
          (g.link k).child = true ∧ (g.link k).inbox = rest ∧ b.member.toNat ∈ g.wml.members)) ∧
        (b.down = true → h.wml.parent = some k.val → h.wml.isLeader = false → leaves s (.beacon (some k)) (fun g =>
          g.wml.down = some b ∧ g.wml.leader = b.member.toNat ∧ g.wml.minor = b.lowMinor.toNat ∧ g.wml.beaconFrames = 0 ∧
          g.wml.heardAt = h.now)))) ∧
    (∀ (f : Fin 32) (p : Packet), fnPacket h f p 0xA03
        ([(4, 3), (5, 0xFFFFFFFF), (6, 0xFFFF), (7, 0x3FFF)] ++ (List.range 8).map (fun i => (8 + i, 0xFFFFFFFF))) = true →
      (bit (word p 4) 0 = true ∧ word p 5 = 0 ∧ word p 6 = 0 ∨ bit (word p 4) 0 = false ∧ ahead h (quad p 5) = true) →
      let i : Instr := .domainSwapArm (.fn f) p
      let live : Bool := h.wml.joined && h.frm.running && !h.frm.waiting
      (live = false → refused s i (.fn f) p 0x107 0) ∧
      (live = true → (∀ n ∈ armedSlots p, (h.ctx n).state ≠ .free) →
        (h.wml.swap.isSome = true → refused s i (.fn f) p 0x108 0) ∧
        (h.wml.swap = none → (∀ n ∈ armedSlots p, (h.ctx n).swap = none) →
          (∀ n ∈ armedSlots p, h.mayUse n (field p 7 0 14) = true) →
          waits s i (.fn f) p (fun g => { g with wml.swap := some ⟨if bit (word p 4) 0 then (h.frm.fnum + 1).toNat else quad p 5,
            bit (word p 4) 1, field p 7 0 14, armedSlots p⟩ }) .domainSwap))) ∧
    (∀ k : Fin 8, (lacks h k isSync → idles s (.syncOp k)) ∧
      (∀ o rest, holds h k isSync (.syncOp o) rest → h.wml.joined = true → o.target.toNat = h.wml.id →
        let n := o.index.toNat
        let c := h.counter n
        let opened : Prop := c.state = .owned ∧ c.remote = true
        (o.op = 1 → leaves s (.syncOp k) (fun g => (g.link k).inbox = rest ∧
          (g.counter n).value = if c.state = .owned ∧ c.remote = true ∧ c.value.toNat + o.value.toNat < 2 ^ 64 then c.value + o.value else c.value)) ∧
        (o.op = 2 → opened → c.value < o.value → h.wml.held.length < 1024 → leaves s (.syncOp k) (fun g =>
          g.wml.held = h.wml.held ++ [⟨o.origin.toNat, o.waitId.toNat, n, o.value, 0⟩] ∧ g.counter n = c)) ∧
        (o.op = 2 → opened → o.value ≤ c.value → leaves s (.syncOp k) (fun g => g.wml.held = h.wml.held ∧ g.counter n = c)))) ∧
    (∀ i : Nat, (h.wml.held[i]? = none → idles s (.remoteWaitTimeout (.held i))) ∧
      (∀ w, h.wml.held[i]? = some w → (w.ticks < bits (h.reg 0x22024) 0 8 → idles s (.remoteWaitTimeout (.held i))) ∧
        (bits (h.reg 0x22024) 0 8 ≤ w.ticks →
          leaves s (.remoteWaitTimeout (.held i)) (fun g => g.wml.held = h.wml.held.eraseIdx i)))) ∧
    (∀ id : Nat, ((∀ w ∈ h.wml.outs, w.waitId ≠ id) → idles s (.remoteWaitTimeout (.outgoing id))) ∧
      (∀ w ∈ h.wml.outs, w.waitId = id → (∀ v ∈ h.wml.outs, v.waitId = id → v = w) →
        (w.ticks < bits (h.reg 0x22024) 0 8 + 4 → idles s (.remoteWaitTimeout (.outgoing id))) ∧
        (bits (h.reg 0x22024) 0 8 + 4 ≤ w.ticks → leaves s (.remoteWaitTimeout (.outgoing id)) (fun g =>
          g.wml.outs = h.wml.outs.filter (fun v => v.waitId ≠ id) ∧
          (w.armed = false → (g.core w.core).synWait = none ∧ (g.core w.core).synEnded = true)))))

/-! ### The host interface (21) -/

namespace Sys2Proof.Claims

/-- A function exists: the PF, or a VF that VF Enable gives (R572). -/
def exists_ (h : Hw) (f : Fin 32) : Bool := decide (f.val = 0) || (h.pci.vfEnable && decide (f.val ≤ h.pci.numVfs))

/-- A configuration request to a function is performed: the link is up, the function exists and its configuration space is in place,
and requests are no longer answered with CRS, but for the 350 ms of R583 in recovery. -/
def performed (h : Hw) (f : Fin 32) : Bool :=
  h.pci.up && exists_ h f && !(h.func f).cfgBusy &&
    (!h.pci.crs || (h.sys.recovery && decide (h.sys.powerGoodAt + 350000000 ≤ h.now)))

/-- A function with nothing held and nothing pending: a change of its enables sends nothing. -/
def nothingHeld (h : Hw) (f : Fin 32) : Bool := decide ((h.func f).held = []) && decide ((h.func f).pending = 0)

/-- The whole access lies in one of the two memories that BAR4 gives whole (R575): local address of its first byte. -/
def bar4Local (off n : Nat) : Option Nat :=
  if 0 < n ∧ off + n ≤ 0x600000000 then some off
  else if 0 < n ∧ 0x600000000 ≤ off ∧ off + n ≤ 0x603000000 then some (0x10000000000 + (off - 0x600000000))
  else none

/-- An access that lies in no region of BAR4, wholly or in part (R575). -/
def bar4Outside (off : Nat) : Bool :=
  (decide (0x603000000 ≤ off) && decide (off < 0x700000000)) || decide (0x701200000 ≤ off)

/-- BAR4 answers (R579, R583). -/
def bar4Open (h : Hw) : Bool := h.pci.up && (h.func 0).memSpace && h.sys.everReady

/-- The codes of a failed host read (R578). -/
def failCode : HostFail → Nat | .ur => 0 | .ca => 1 | .poisoned => 2 | .timeout => 3 | .notIssued => 4

/-- A failed host read is recorded (R578). -/
def readFailed (g h : Hw) (f addr kind : Nat) : Prop :=
  bit (g.reg 0x30004) 1 = true ∧ g.reg 0x30020 = h.reg 0x30020 + 1 ∧ g.reg 0x30018 = BitVec.ofNat 32 addr ∧
    g.reg 0x3001C = BitVec.ofNat 32 (addr / 2 ^ 32) ∧ g.reg 0x3002C = BitVec.ofNat 32 (f + 32 * kind)

end Sys2Proof.Claims

/-- R571, R572, R583, R585: configuration requests are performed only where R583 and R585 let them; reads return the words that the
manual gives; the enables, D3hot, VF Enable and MSI-X control change what they name and nothing else, where nothing is held. -/
def Obligations.ConfigRequests : Prop :=
  ∀ (s : State) (f : Fin 32), calm s.hw = true →
    let h := s.hw
    let x := h.func f
    (performed h f = false → ∀ dw on m e, exec (.configRequest (.read f dw)) s = hwNext s { h with pci.answer := none } ∧
      exec (.configRequest (.busMaster f on)) s = hwNext s { h with pci.answer := none } ∧
      exec (.configRequest (.memSpace f on)) s = hwNext s { h with pci.answer := none } ∧
      exec (.configRequest (.d3hot f on)) s = hwNext s { h with pci.answer := none } ∧
      exec (.configRequest (.msixControl f e m)) s = hwNext s { h with pci.answer := none } ∧
      exec (.configRequest (.initiateFlr f)) s = hwNext s { h with pci.answer := none }) ∧
    (performed h f = true →
      (∀ dw, ∃ w, exec (.configRequest (.read f dw)) s = hwNext s { h with pci.answer := some w } ∧
        (dw = 0 → w = if f.val = 0 then 0x08801F3C else 0x08811F3C) ∧ (dw = 2 → w = 0x120000B1) ∧
        (dw = 1 → bit w 1 = x.memSpace ∧ bit w 2 = x.busMaster)) ∧
      (∀ on, exec (.configRequest (.memSpace f on)) s = hwNext s (h.setFunc f { x with memSpace := on })) ∧
      (nothingHeld h f = true →
        (∀ on, exec (.configRequest (.busMaster f on)) s = hwNext s (h.setFunc f { x with busMaster := on })) ∧
        (∀ on, exec (.configRequest (.d3hot f on)) s = hwNext s (h.setFunc f { x with d3hot := on })) ∧
        (∀ e m, exec (.configRequest (.msixControl f e m)) s = hwNext s (h.setFunc f { x with msixOn := e, funcMask := m })) ∧
        exec (.busMasterEnable f) s = hwNext s (h.setFunc f { x with busMaster := true, d3hot := false }) ∧
        exec (.msixUnmask f .enable) s = hwNext s (h.setFunc f { x with msixOn := true }) ∧
        exec (.msixUnmask f .funcMask) s = hwNext s (h.setFunc f { x with funcMask := false }))) ∧
    (performed h f = false → idles s (.busMasterEnable f) ∧ idles s (.msixUnmask f .enable) ∧ idles s (.msixUnmask f .funcMask)) ∧
    (∀ i : Fin 64, h.pci.up = true → exists_ h f = true → x.memSpace = true → h.sys.everReady = true → nothingHeld h f = true →
      exec (.msixUnmask f (.entry i)) s =
        hwNext s (h.setFunc f { x with table := Tbl.set {} x.table i { Tbl.get {} x.table i with masked := false } })) ∧
    (∀ v : Fin 64, performed h f = true → x.msixOn = false → x.busMaster = true → x.d3hot = false → x.held = [] → x.funcMask = false →
      x.pending = 1 <<< v.val → (Tbl.get {} x.table v).masked = false →
      let e := Tbl.get {} x.table v
      exec (.msixUnmask f .enable) s = hwNext s { h.setFunc f { x with msixOn := true, pending := 0 } with
        pci.out := ⟨f, e.addrHi ++ e.addrLo, e.data⟩ :: h.pci.out }) ∧
    (∀ n : BitVec 6, performed h 0 = true → h.pci.vfEnable = false → exec (.configRequest (.vfEnable true n)) s =
      hwNext s { h with pci.vfEnable := true, pci.numVfs := min n.toNat 31 }) ∧
    (performed h 0 = true → h.pci.vfEnable = false →
      exec (.configRequest (.vfEnable false 0)) s = hwNext s { h with pci.vfEnable := false, pci.numVfs := 0 })

/-- R575, R578, R579: a BAR4 access reaches local memory by its offset, or is refused and counted; completions of host reads deliver
bytes, or record a failed read; R569, R583 to R586: the link trains, and host resets and function-level resets put functions, their
rings and their contexts away, each with its entry in the steward log (22 R612). -/
def Obligations.HostAccesses : Prop :=
  ∀ (s : State) (f : Fin 32), calm s.hw = true →
    let h := s.hw
    (∀ off n a, bar4Open h = true → bar4Local off n = some a → (∀ g ∈ granules a n, h.gran g = .clean) →
      exec (.bar4Access (.read off n)) s =
        hwNext s { h with pci.bar4 := some ((List.range n).map (fun i => Mem.get h.mem.cells (a + i)), false) }) ∧
    (∀ off bs a, bar4Open h = true → bar4Local off bs.length = some a →
      leaves s (.bar4Access (.write off bs false)) (fun g => ∀ b, Mem.get g.mem.cells b =
        if a ≤ b ∧ b < a + bs.length then nth 0 bs (b - a) else Mem.get h.mem.cells b)) ∧
    (∀ off n, bar4Open h = true → bar4Outside off = true →
      leaves s (.bar4Access (.read off n)) (fun g => g.pci.bar4 = none ∧ g.mem = h.mem ∧ g.reg 0x30028 = h.reg 0x30028 + 1 ∧
        bit (g.reg 0x30004) 0 = true) ∧
      (∀ bs p, leaves s (.bar4Access (.write off bs p)) (fun g => g.mem = h.mem ∧ g.reg 0x30028 = h.reg 0x30028 + 1 ∧
        bit (g.reg 0x30004) 0 = true))) ∧
    (∀ off bs p, bar4Open h = false → idles s (.bar4Access (.write off bs p))) ∧
    (∀ addr : Dword, exists_ h f = true →
      (∀ bs, leaves s (.hostReadCompletion f addr (.data bs)) (fun g => ∀ i : Nat, i < bs.length →
        g.hostByte (addr.toNat + i) = nth 0 bs i ∧ Tbl.find g.pci.hostBad (addr.toNat + i) = none)) ∧
      (∀ x, x ≠ .notIssued → leaves s (.hostReadCompletion f addr (.fail x)) (fun g => readFailed g h f addr.toNat (failCode x))) ∧
      (∀ n, 0 < n → leaves s (.completionTimeout f addr n) (fun g => readFailed g h f addr.toNat 3))) ∧
    (∀ addr r n, exists_ h f = false → idles s (.hostReadCompletion f addr r) ∧ idles s (.completionTimeout f addr n)) ∧
    (∀ (speed : BitVec 3) (width : BitVec 4),
      let ok : Bool := decide (h.sys.state ≠ .off) && h.pci.trainOn && decide (1 ≤ speed.toNat) && decide (speed.toNat ≤ 5) &&
        (width.toNat == 1 || width.toNat == 2 || width.toNat == 4 || width.toNat == 8)
      (ok = true → exec (.pcieLinkUp speed width) s =
        hwNext s { h with pci.up := true, pci.speed := speed.toNat, pci.width := width.toNat }) ∧
      (ok = false → idles s (.pcieLinkUp speed width))) ∧
    leaves s .hostReset (fun g => g.pci.up = false ∧ g.pci.vfEnable = false ∧ (g.ring (.fn 0)).live = false ∧
      (g.func 0).busMaster = false ∧ (g.func 0).memSpace = false ∧ (g.func 0).msixOn = false ∧ (g.func 0).cfgBusy = false ∧
      (h.pci.crs = false → g.sys.log.getLast?.map (·.event) = some 7)) ∧
    (exists_ h f = true → leaves s (.flr f) (fun g => (g.ring (.fn f)).live = false ∧ (g.func f).busMaster = false ∧
      (g.func f).memSpace = false ∧ (g.func f).msixOn = false ∧ (g.func f).table = [] ∧ (g.func f).cfgBusy = true ∧
      (f.val = 0 → g.pci.vfEnable = false) ∧
      (f.val ≠ 0 → h.pci.crs = false → g.sys.log.getLast?.map (·.event) = some 6) ∧ ((g.func f).flr = true ↔ (h.slotsOf f).isEmpty = false))) ∧
    (exists_ h f = false → idles s (.flr f)) ∧
    exec (.flrConfigRestored f) s = hwNext s (h.setFunc f { h.func f with cfgBusy := false })


/-! ### Statements in two or three parts -/

/-- R272 to R274: the scalar and the predicate results of Fintoic instructions. -/
def Obligations.ScalarAndPredicateResults : Prop := scalarResultWritten ∧ predicateResultWritten

/-- Branches, and the loop rule at the last bundle of a loop. -/
def Obligations.BranchesAndLoopEnds : Prop := branchTaken ∧ loopEndRule

/-- Loop registers: what the loop instructions and the moves write. -/
def Obligations.LoopRegisters : Prop := loopRegistersSet ∧ loopRegisterMoves

/-- Moves to and from control registers and address registers. -/
def Obligations.RegisterMoves : Prop := controlRegisterMoves ∧ addressRegisterMoves

/-- Traps: with a handler, and without one. -/
def Obligations.TrapsTaken : Prop := trapEntersHandler ∧ unhandledTrapFaultsContext

/-- Interrupts: their entry, and the soft interrupt's request. -/
def Obligations.InterruptsTaken : Prop := interruptEntry ∧ softInterrupt

/-- What stops, steps and starts a core from outside, and the events of a run. -/
def Obligations.CoreControl : Prop := debugControlsCore ∧ coreEvents

/-- Bundles: guards and slots, and the bundles that trap. -/
def Obligations.BundlesIssue : Prop := guardsAndBundles ∧ malformedBundleTraps

/-- Loads from and stores to a core's own memories. -/
def Obligations.LoadsAndStores : Prop := loadReadsOwnMemory ∧ storeWritesOwnMemory

/-- The signal unit: accumulator results, saturation and rounding, and the dual fetch forms. -/
def Obligations.SignalInstructions : Prop := signalResultWritten ∧ saturateRounds ∧ dualFetchResult

/-- Vector results lane by lane, and whole registers. -/
def Obligations.VectorResults : Prop := vectorLanesWritten ∧ vectorRegistersWritten

/-- Vector loads and vector stores. -/
def Obligations.VectorMemory : Prop := vectorLoadsFillLanes ∧ vectorStoresWriteElements

/-- The instructions about Bastaef tags and about counters. -/
def Obligations.TagsAndCounters : Prop := bastaefTagInstructions ∧ counterInstructions

/-- The memory's canonical form, and that accesses keep it. -/
def Obligations.MemoryForm : Prop := memoryCanonicalForm ∧ memoryAccessesKeepForm

/-- Trips, and EMBER's entry and exit. -/
def Obligations.TripsAndEmber : Prop := tripsAndEmber ∧ emberEntryAndExit

/-- The frame logic's start and stop, and its ticks and tails. -/
def Obligations.TicksStartAndStop : Prop := startAndStop ∧ tickAndTail

/-- Contexts: their creation, their state, and their reset and destruction. -/
def Obligations.ContextLife : Prop := contextPackets ∧ contextReset

/-- Job registration and swaps. -/
def Obligations.JobsAndSwaps : Prop := jobPackets ∧ swapPackets

/-- Bastaef commands: their entry and their completion. -/
def Obligations.ArrayRuns : Prop := arrayCommands ∧ arrayCompletion

/-- DMA: the steps of a descriptor, and its beats. -/
def Obligations.DmaEngines : Prop := descriptorSteps ∧ dmaBeats

/-- Cameras: their packets, and their links and lines. -/
def Obligations.Cameras : Prop := cameraPackets ∧ cameraLines

/-- Scrubbing, field tests and the maps of failed units. -/
def Obligations.MemoryCare : Prop := scrubbing ∧ testsAndMaps
end

