-- ==== Sys2Proof/Laws/Tbl.lean ====
section
/-! SUPPORT. The laws of sparse tables: reading after writing, writing twice, and that every operation keeps the canonical
form. They hold without any assumption on the table, but for those about the form. -/

namespace Sys2Proof.Machine

variable {α : Type}

@[simp] theorem Tbl.find_nil (k : Nat) : Tbl.find ([] : Tbl α) k = none := rfl

theorem Tbl.find_del_same (t : Tbl α) (k : Nat) : Tbl.find (Tbl.del t k) k = none := by
  induction t with
  | nil => rfl
  | cons e t ih =>
    obtain ⟨k', v⟩ := e
    by_cases h : k' = k
    · simpa [Tbl.del, h] using ih
    · simpa [Tbl.del, h, Tbl.find, Ne.symm h] using ih

theorem Tbl.find_del_other (t : Tbl α) {k j : Nat} (h : j ≠ k) : Tbl.find (Tbl.del t k) j = Tbl.find t j := by
  induction t with
  | nil => rfl
  | cons e t ih =>
    obtain ⟨k', v⟩ := e
    by_cases hk : k' = k
    · subst hk
      simpa [Tbl.del, Tbl.find, h] using ih
    · by_cases hj : j = k'
      · simp [Tbl.del, hk, Tbl.find, hj]
      · simpa [Tbl.del, hk, Tbl.find, hj] using ih

theorem Tbl.find_insert_same (t : Tbl α) (k : Nat) (v : α) (h : Tbl.find t k = none) :
    Tbl.find (Tbl.insert t k v) k = some v := by
  induction t with
  | nil => simp [Tbl.insert, Tbl.find]
  | cons e t ih =>
    obtain ⟨k', v'⟩ := e
    by_cases hk : k = k'
    · simp [Tbl.find, hk] at h
    · rw [Tbl.find, if_neg hk] at h
      rw [Tbl.insert]
      split
      · simp [Tbl.find]
      · rw [Tbl.find, if_neg hk, ih h]

theorem Tbl.find_insert_other (t : Tbl α) {k j : Nat} (v : α) (h : j ≠ k) :
    Tbl.find (Tbl.insert t k v) j = Tbl.find t j := by
  induction t with
  | nil => simp [Tbl.insert, Tbl.find, h]
  | cons e t ih =>
    obtain ⟨k', v'⟩ := e
    rw [Tbl.insert]
    split
    · simp [Tbl.find, h]
    · simp [Tbl.find, ih]

theorem Tbl.find_put_same (t : Tbl α) (k : Nat) (v : α) : Tbl.find (Tbl.put t k v) k = some v :=
  Tbl.find_insert_same _ _ _ (Tbl.find_del_same t k)

theorem Tbl.find_put_other (t : Tbl α) {k j : Nat} (v : α) (h : j ≠ k) : Tbl.find (Tbl.put t k v) j = Tbl.find t j := by
  rw [Tbl.put, Tbl.find_insert_other _ _ h, Tbl.find_del_other _ h]

variable [DecidableEq α]

/-- Reading what was written. -/
@[simp] theorem Tbl.get_set_same (d : α) (t : Tbl α) (k : Nat) (v : α) : Tbl.get d (Tbl.set d t k v) k = v := by
  unfold Tbl.get Tbl.set
  split
  · simp [Tbl.find_del_same, *]
  · simp [Tbl.find_put_same]

/-- A write leaves every other key alone. -/
theorem Tbl.get_set_other (d : α) (t : Tbl α) {k j : Nat} (v : α) (h : j ≠ k) :
    Tbl.get d (Tbl.set d t k v) j = Tbl.get d t j := by
  unfold Tbl.get Tbl.set
  split
  · rw [Tbl.find_del_other _ h]
  · rw [Tbl.find_put_other _ _ h]

theorem Tbl.get_set (d : α) (t : Tbl α) (k j : Nat) (v : α) :
    Tbl.get d (Tbl.set d t k v) j = if j = k then v else Tbl.get d t j := by
  by_cases h : j = k
  · simp [h]
  · simp [h, Tbl.get_set_other _ _ _ h]

omit [DecidableEq α] in
theorem Tbl.del_del (t : Tbl α) (k : Nat) : Tbl.del (Tbl.del t k) k = Tbl.del t k := by
  simp [Tbl.del, List.filter_filter]

omit [DecidableEq α] in
theorem Tbl.del_insert (t : Tbl α) (k : Nat) (v : α) : Tbl.del (Tbl.insert t k v) k = Tbl.del t k := by
  induction t with
  | nil => simp [Tbl.insert, Tbl.del]
  | cons e t ih =>
    obtain ⟨k', v'⟩ := e
    rw [Tbl.insert]
    split
    · simp [Tbl.del]
    · by_cases h : k' = k
      · simpa [Tbl.del, h] using ih
      · simpa [Tbl.del, h] using ih

omit [DecidableEq α] in
theorem Tbl.del_put (t : Tbl α) (k : Nat) (v : α) : Tbl.del (Tbl.put t k v) k = Tbl.del t k := by
  rw [Tbl.put, Tbl.del_insert, Tbl.del_del]

/-- The second of two writes to one key stands. -/
@[simp] theorem Tbl.set_set (d : α) (t : Tbl α) (k : Nat) (v w : α) : Tbl.set d (Tbl.set d t k v) k w = Tbl.set d t k w := by
  unfold Tbl.set
  split <;> split <;> simp [Tbl.put, Tbl.del_insert, Tbl.del_del]

/-! ### The canonical form -/

theorem Tbl.okFrom_mono (d : α) {lo lo' : Nat} (h : lo' ≤ lo) (t : Tbl α) (ht : Tbl.okFrom d lo t = true) :
    Tbl.okFrom d lo' t = true := by
  cases t with
  | nil => rfl
  | cons e t =>
    obtain ⟨k, v⟩ := e
    simp only [Tbl.okFrom, Bool.and_eq_true, decide_eq_true_eq] at ht ⊢
    exact ⟨⟨by omega, ht.1.2⟩, ht.2⟩

theorem Tbl.okFrom_filter (d : α) (p : Nat × α → Bool) (lo : Nat) (t : Tbl α) (ht : Tbl.okFrom d lo t = true) :
    Tbl.okFrom d lo (t.filter p) = true := by
  induction t generalizing lo with
  | nil => rfl
  | cons e t ih =>
    obtain ⟨k, v⟩ := e
    simp only [Tbl.okFrom, Bool.and_eq_true, decide_eq_true_eq] at ht
    rw [List.filter_cons]
    split
    · simp only [Tbl.okFrom, Bool.and_eq_true, decide_eq_true_eq]
      exact ⟨ht.1, ih _ ht.2⟩
    · exact ih _ (Tbl.okFrom_mono d (by omega) t ht.2)

theorem Tbl.okFrom_insert (d : α) (lo k : Nat) (v : α) (t : Tbl α) (hv : v ≠ d) (hlo : lo ≤ k)
    (hk : Tbl.find t k = none) (ht : Tbl.okFrom d lo t = true) : Tbl.okFrom d lo (Tbl.insert t k v) = true := by
  induction t generalizing lo with
  | nil => simp [Tbl.insert, Tbl.okFrom, hv, hlo]
  | cons e t ih =>
    obtain ⟨k', v'⟩ := e
    have hne : k ≠ k' := by
      intro h
      simp [Tbl.find, h] at hk
    rw [Tbl.find, if_neg hne] at hk
    simp only [Tbl.okFrom, Bool.and_eq_true, decide_eq_true_eq] at ht
    rw [Tbl.insert]
    split
    · simp only [Tbl.okFrom, Bool.and_eq_true, decide_eq_true_eq]
      exact ⟨⟨hlo, hv⟩, ⟨by omega, ht.1.2⟩, ht.2⟩
    · simp only [Tbl.okFrom, Bool.and_eq_true, decide_eq_true_eq]
      exact ⟨ht.1, ih _ (by omega) hk ht.2⟩

/-- Every write keeps the canonical form. -/
theorem Tbl.wf_set (d : α) (t : Tbl α) (k : Nat) (v : α) (ht : Tbl.wf d t = true) : Tbl.wf d (Tbl.set d t k v) = true := by
  have hd : Tbl.okFrom d 0 (Tbl.del t k) = true := Tbl.okFrom_filter d _ 0 t ht
  unfold Tbl.set
  split
  · exact hd
  · exact Tbl.okFrom_insert d 0 k v _ ‹_› (Nat.zero_le _) (Tbl.find_del_same t k) hd

/-- Clearing a range keeps the canonical form. -/
theorem Tbl.wf_clearRange (d : α) (t : Tbl α) (lo hi : Nat) (ht : Tbl.wf d t = true) :
    Tbl.wf d (Tbl.clearRange t lo hi) = true := Tbl.okFrom_filter d _ 0 t ht

@[simp] theorem Tbl.wf_nil (d : α) : Tbl.wf d ([] : Tbl α) = true := rfl

end Sys2Proof.Machine
end

