-- ==== Sys2Proof/Laws/State.lean ====
section
/-! SUPPORT. What each update of the state leaves alone and what a reader finds after it: one lemma per field and update, true by
unfolding, so that no later proof opens a record update. -/

namespace Sys2Proof.Machine

/-! ### `setCtx` -/

@[simp] theorem Hw.setCtx_ctx_same (h : Hw) (n : Nat) (c : Ctx) : (h.setCtx n c).ctx n = c :=
  Tbl.get_set_same _ _ _ _

theorem Hw.setCtx_ctx (h : Hw) (n m : Nat) (c : Ctx) :
    (h.setCtx n c).ctx m = if m = n then c else h.ctx m :=
  Tbl.get_set _ _ _ _ _

@[simp] theorem Hw.setCtx_now (h : Hw) (n : Nat) (c : Ctx) : (h.setCtx n c).now = h.now := rfl
@[simp] theorem Hw.setCtx_sys (h : Hw) (n : Nat) (c : Ctx) : (h.setCtx n c).sys = h.sys := rfl
@[simp] theorem Hw.setCtx_regs (h : Hw) (n : Nat) (c : Ctx) : (h.setCtx n c).regs = h.regs := rfl
@[simp] theorem Hw.setCtx_act (h : Hw) (n : Nat) (c : Ctx) : (h.setCtx n c).act = h.act := rfl
@[simp] theorem Hw.setCtx_helds (h : Hw) (n : Nat) (c : Ctx) : (h.setCtx n c).helds = h.helds := rfl
@[simp] theorem Hw.setCtx_snaps (h : Hw) (n : Nat) (c : Ctx) : (h.setCtx n c).snaps = h.snaps := rfl
@[simp] theorem Hw.setCtx_mem (h : Hw) (n : Nat) (c : Ctx) : (h.setCtx n c).mem = h.mem := rfl
@[simp] theorem Hw.setCtx_atu (h : Hw) (n : Nat) (c : Ctx) : (h.setCtx n c).atu = h.atu := rfl
@[simp] theorem Hw.setCtx_fnRings (h : Hw) (n : Nat) (c : Ctx) : (h.setCtx n c).fnRings = h.fnRings := rfl
@[simp] theorem Hw.setCtx_ctxRings (h : Hw) (n : Nat) (c : Ctx) : (h.setCtx n c).ctxRings = h.ctxRings := rfl
@[simp] theorem Hw.setCtx_rotor (h : Hw) (n : Nat) (c : Ctx) : (h.setCtx n c).rotor = h.rotor := rfl
@[simp] theorem Hw.setCtx_images (h : Hw) (n : Nat) (c : Ctx) : (h.setCtx n c).images = h.images := rfl
@[simp] theorem Hw.setCtx_nextImage (h : Hw) (n : Nat) (c : Ctx) : (h.setCtx n c).nextImage = h.nextImage := rfl
@[simp] theorem Hw.setCtx_frm (h : Hw) (n : Nat) (c : Ctx) : (h.setCtx n c).frm = h.frm := rfl
@[simp] theorem Hw.setCtx_col (h : Hw) (n : Nat) (c : Ctx) : (h.setCtx n c).col = h.col := rfl
@[simp] theorem Hw.setCtx_counters (h : Hw) (n : Nat) (c : Ctx) : (h.setCtx n c).counters = h.counters := rfl
@[simp] theorem Hw.setCtx_channels (h : Hw) (n : Nat) (c : Ctx) : (h.setCtx n c).channels = h.channels := rfl
@[simp] theorem Hw.setCtx_cores (h : Hw) (n : Nat) (c : Ctx) : (h.setCtx n c).cores = h.cores := rfl
@[simp] theorem Hw.setCtx_arrays (h : Hw) (n : Nat) (c : Ctx) : (h.setCtx n c).arrays = h.arrays := rfl
@[simp] theorem Hw.setCtx_wpool (h : Hw) (n : Nat) (c : Ctx) : (h.setCtx n c).wpool = h.wpool := rfl
@[simp] theorem Hw.setCtx_wspent (h : Hw) (n : Nat) (c : Ctx) : (h.setCtx n c).wspent = h.wspent := rfl
@[simp] theorem Hw.setCtx_degraded (h : Hw) (n : Nat) (c : Ctx) : (h.setCtx n c).degraded = h.degraded := rfl
@[simp] theorem Hw.setCtx_fitDiff (h : Hw) (n : Nat) (c : Ctx) : (h.setCtx n c).fitDiff = h.fitDiff := rfl
@[simp] theorem Hw.setCtx_pairEnds (h : Hw) (n : Nat) (c : Ctx) : (h.setCtx n c).pairEnds = h.pairEnds := rfl
@[simp] theorem Hw.setCtx_win (h : Hw) (n : Nat) (c : Ctx) : (h.setCtx n c).win = h.win := rfl
@[simp] theorem Hw.setCtx_dma (h : Hw) (n : Nat) (c : Ctx) : (h.setCtx n c).dma = h.dma := rfl
@[simp] theorem Hw.setCtx_cpc (h : Hw) (n : Nat) (c : Ctx) : (h.setCtx n c).cpc = h.cpc := rfl
@[simp] theorem Hw.setCtx_cxp (h : Hw) (n : Nat) (c : Ctx) : (h.setCtx n c).cxp = h.cxp := rfl
@[simp] theorem Hw.setCtx_web (h : Hw) (n : Nat) (c : Ctx) : (h.setCtx n c).web = h.web := rfl
@[simp] theorem Hw.setCtx_eth (h : Hw) (n : Nat) (c : Ctx) : (h.setCtx n c).eth = h.eth := rfl
@[simp] theorem Hw.setCtx_ptp (h : Hw) (n : Nat) (c : Ctx) : (h.setCtx n c).ptp = h.ptp := rfl
@[simp] theorem Hw.setCtx_wml (h : Hw) (n : Nat) (c : Ctx) : (h.setCtx n c).wml = h.wml := rfl
@[simp] theorem Hw.setCtx_pci (h : Hw) (n : Nat) (c : Ctx) : (h.setCtx n c).pci = h.pci := rfl

/-! ### `setCore` -/

@[simp] theorem Hw.setCore_core_same (h : Hw) (n : Nat) (c : Core) : (h.setCore n c).core n = c :=
  Tbl.get_set_same _ _ _ _

theorem Hw.setCore_core (h : Hw) (n m : Nat) (c : Core) :
    (h.setCore n c).core m = if m = n then c else h.core m :=
  Tbl.get_set _ _ _ _ _

@[simp] theorem Hw.setCore_now (h : Hw) (n : Nat) (c : Core) : (h.setCore n c).now = h.now := rfl
@[simp] theorem Hw.setCore_sys (h : Hw) (n : Nat) (c : Core) : (h.setCore n c).sys = h.sys := rfl
@[simp] theorem Hw.setCore_regs (h : Hw) (n : Nat) (c : Core) : (h.setCore n c).regs = h.regs := rfl
@[simp] theorem Hw.setCore_act (h : Hw) (n : Nat) (c : Core) : (h.setCore n c).act = h.act := rfl
@[simp] theorem Hw.setCore_helds (h : Hw) (n : Nat) (c : Core) : (h.setCore n c).helds = h.helds := rfl
@[simp] theorem Hw.setCore_snaps (h : Hw) (n : Nat) (c : Core) : (h.setCore n c).snaps = h.snaps := rfl
@[simp] theorem Hw.setCore_mem (h : Hw) (n : Nat) (c : Core) : (h.setCore n c).mem = h.mem := rfl
@[simp] theorem Hw.setCore_atu (h : Hw) (n : Nat) (c : Core) : (h.setCore n c).atu = h.atu := rfl
@[simp] theorem Hw.setCore_fnRings (h : Hw) (n : Nat) (c : Core) : (h.setCore n c).fnRings = h.fnRings := rfl
@[simp] theorem Hw.setCore_ctxRings (h : Hw) (n : Nat) (c : Core) : (h.setCore n c).ctxRings = h.ctxRings := rfl
@[simp] theorem Hw.setCore_rotor (h : Hw) (n : Nat) (c : Core) : (h.setCore n c).rotor = h.rotor := rfl
@[simp] theorem Hw.setCore_ctxs (h : Hw) (n : Nat) (c : Core) : (h.setCore n c).ctxs = h.ctxs := rfl
@[simp] theorem Hw.setCore_images (h : Hw) (n : Nat) (c : Core) : (h.setCore n c).images = h.images := rfl
@[simp] theorem Hw.setCore_nextImage (h : Hw) (n : Nat) (c : Core) : (h.setCore n c).nextImage = h.nextImage := rfl
@[simp] theorem Hw.setCore_frm (h : Hw) (n : Nat) (c : Core) : (h.setCore n c).frm = h.frm := rfl
@[simp] theorem Hw.setCore_col (h : Hw) (n : Nat) (c : Core) : (h.setCore n c).col = h.col := rfl
@[simp] theorem Hw.setCore_counters (h : Hw) (n : Nat) (c : Core) : (h.setCore n c).counters = h.counters := rfl
@[simp] theorem Hw.setCore_channels (h : Hw) (n : Nat) (c : Core) : (h.setCore n c).channels = h.channels := rfl
@[simp] theorem Hw.setCore_arrays (h : Hw) (n : Nat) (c : Core) : (h.setCore n c).arrays = h.arrays := rfl
@[simp] theorem Hw.setCore_wpool (h : Hw) (n : Nat) (c : Core) : (h.setCore n c).wpool = h.wpool := rfl
@[simp] theorem Hw.setCore_wspent (h : Hw) (n : Nat) (c : Core) : (h.setCore n c).wspent = h.wspent := rfl
@[simp] theorem Hw.setCore_degraded (h : Hw) (n : Nat) (c : Core) : (h.setCore n c).degraded = h.degraded := rfl
@[simp] theorem Hw.setCore_fitDiff (h : Hw) (n : Nat) (c : Core) : (h.setCore n c).fitDiff = h.fitDiff := rfl
@[simp] theorem Hw.setCore_pairEnds (h : Hw) (n : Nat) (c : Core) : (h.setCore n c).pairEnds = h.pairEnds := rfl
@[simp] theorem Hw.setCore_win (h : Hw) (n : Nat) (c : Core) : (h.setCore n c).win = h.win := rfl
@[simp] theorem Hw.setCore_dma (h : Hw) (n : Nat) (c : Core) : (h.setCore n c).dma = h.dma := rfl
@[simp] theorem Hw.setCore_cpc (h : Hw) (n : Nat) (c : Core) : (h.setCore n c).cpc = h.cpc := rfl
@[simp] theorem Hw.setCore_cxp (h : Hw) (n : Nat) (c : Core) : (h.setCore n c).cxp = h.cxp := rfl
@[simp] theorem Hw.setCore_web (h : Hw) (n : Nat) (c : Core) : (h.setCore n c).web = h.web := rfl
@[simp] theorem Hw.setCore_eth (h : Hw) (n : Nat) (c : Core) : (h.setCore n c).eth = h.eth := rfl
@[simp] theorem Hw.setCore_ptp (h : Hw) (n : Nat) (c : Core) : (h.setCore n c).ptp = h.ptp := rfl
@[simp] theorem Hw.setCore_wml (h : Hw) (n : Nat) (c : Core) : (h.setCore n c).wml = h.wml := rfl
@[simp] theorem Hw.setCore_pci (h : Hw) (n : Nat) (c : Core) : (h.setCore n c).pci = h.pci := rfl

/-! ### `setArray` -/

@[simp] theorem Hw.setArray_array_same (h : Hw) (n : Nat) (c : BstArray) : (h.setArray n c).array n = c :=
  Tbl.get_set_same _ _ _ _

theorem Hw.setArray_array (h : Hw) (n m : Nat) (c : BstArray) :
    (h.setArray n c).array m = if m = n then c else h.array m :=
  Tbl.get_set _ _ _ _ _

@[simp] theorem Hw.setArray_now (h : Hw) (n : Nat) (c : BstArray) : (h.setArray n c).now = h.now := rfl
@[simp] theorem Hw.setArray_sys (h : Hw) (n : Nat) (c : BstArray) : (h.setArray n c).sys = h.sys := rfl
@[simp] theorem Hw.setArray_regs (h : Hw) (n : Nat) (c : BstArray) : (h.setArray n c).regs = h.regs := rfl
@[simp] theorem Hw.setArray_act (h : Hw) (n : Nat) (c : BstArray) : (h.setArray n c).act = h.act := rfl
@[simp] theorem Hw.setArray_helds (h : Hw) (n : Nat) (c : BstArray) : (h.setArray n c).helds = h.helds := rfl
@[simp] theorem Hw.setArray_snaps (h : Hw) (n : Nat) (c : BstArray) : (h.setArray n c).snaps = h.snaps := rfl
@[simp] theorem Hw.setArray_mem (h : Hw) (n : Nat) (c : BstArray) : (h.setArray n c).mem = h.mem := rfl
@[simp] theorem Hw.setArray_atu (h : Hw) (n : Nat) (c : BstArray) : (h.setArray n c).atu = h.atu := rfl
@[simp] theorem Hw.setArray_fnRings (h : Hw) (n : Nat) (c : BstArray) : (h.setArray n c).fnRings = h.fnRings := rfl
@[simp] theorem Hw.setArray_ctxRings (h : Hw) (n : Nat) (c : BstArray) : (h.setArray n c).ctxRings = h.ctxRings := rfl
@[simp] theorem Hw.setArray_rotor (h : Hw) (n : Nat) (c : BstArray) : (h.setArray n c).rotor = h.rotor := rfl
@[simp] theorem Hw.setArray_ctxs (h : Hw) (n : Nat) (c : BstArray) : (h.setArray n c).ctxs = h.ctxs := rfl
@[simp] theorem Hw.setArray_images (h : Hw) (n : Nat) (c : BstArray) : (h.setArray n c).images = h.images := rfl
@[simp] theorem Hw.setArray_nextImage (h : Hw) (n : Nat) (c : BstArray) : (h.setArray n c).nextImage = h.nextImage := rfl
@[simp] theorem Hw.setArray_frm (h : Hw) (n : Nat) (c : BstArray) : (h.setArray n c).frm = h.frm := rfl
@[simp] theorem Hw.setArray_col (h : Hw) (n : Nat) (c : BstArray) : (h.setArray n c).col = h.col := rfl
@[simp] theorem Hw.setArray_counters (h : Hw) (n : Nat) (c : BstArray) : (h.setArray n c).counters = h.counters := rfl
@[simp] theorem Hw.setArray_channels (h : Hw) (n : Nat) (c : BstArray) : (h.setArray n c).channels = h.channels := rfl
@[simp] theorem Hw.setArray_cores (h : Hw) (n : Nat) (c : BstArray) : (h.setArray n c).cores = h.cores := rfl
@[simp] theorem Hw.setArray_wpool (h : Hw) (n : Nat) (c : BstArray) : (h.setArray n c).wpool = h.wpool := rfl
@[simp] theorem Hw.setArray_wspent (h : Hw) (n : Nat) (c : BstArray) : (h.setArray n c).wspent = h.wspent := rfl
@[simp] theorem Hw.setArray_degraded (h : Hw) (n : Nat) (c : BstArray) : (h.setArray n c).degraded = h.degraded := rfl
@[simp] theorem Hw.setArray_fitDiff (h : Hw) (n : Nat) (c : BstArray) : (h.setArray n c).fitDiff = h.fitDiff := rfl
@[simp] theorem Hw.setArray_pairEnds (h : Hw) (n : Nat) (c : BstArray) : (h.setArray n c).pairEnds = h.pairEnds := rfl
@[simp] theorem Hw.setArray_win (h : Hw) (n : Nat) (c : BstArray) : (h.setArray n c).win = h.win := rfl
@[simp] theorem Hw.setArray_dma (h : Hw) (n : Nat) (c : BstArray) : (h.setArray n c).dma = h.dma := rfl
@[simp] theorem Hw.setArray_cpc (h : Hw) (n : Nat) (c : BstArray) : (h.setArray n c).cpc = h.cpc := rfl
@[simp] theorem Hw.setArray_cxp (h : Hw) (n : Nat) (c : BstArray) : (h.setArray n c).cxp = h.cxp := rfl
@[simp] theorem Hw.setArray_web (h : Hw) (n : Nat) (c : BstArray) : (h.setArray n c).web = h.web := rfl
@[simp] theorem Hw.setArray_eth (h : Hw) (n : Nat) (c : BstArray) : (h.setArray n c).eth = h.eth := rfl
@[simp] theorem Hw.setArray_ptp (h : Hw) (n : Nat) (c : BstArray) : (h.setArray n c).ptp = h.ptp := rfl
@[simp] theorem Hw.setArray_wml (h : Hw) (n : Nat) (c : BstArray) : (h.setArray n c).wml = h.wml := rfl
@[simp] theorem Hw.setArray_pci (h : Hw) (n : Nat) (c : BstArray) : (h.setArray n c).pci = h.pci := rfl

/-! ### `setCounter` -/

@[simp] theorem Hw.setCounter_counter_same (h : Hw) (n : Nat) (c : Counter) : (h.setCounter n c).counter n = c :=
  Tbl.get_set_same _ _ _ _

theorem Hw.setCounter_counter (h : Hw) (n m : Nat) (c : Counter) :
    (h.setCounter n c).counter m = if m = n then c else h.counter m :=
  Tbl.get_set _ _ _ _ _

@[simp] theorem Hw.setCounter_now (h : Hw) (n : Nat) (c : Counter) : (h.setCounter n c).now = h.now := rfl
@[simp] theorem Hw.setCounter_sys (h : Hw) (n : Nat) (c : Counter) : (h.setCounter n c).sys = h.sys := rfl
@[simp] theorem Hw.setCounter_regs (h : Hw) (n : Nat) (c : Counter) : (h.setCounter n c).regs = h.regs := rfl
@[simp] theorem Hw.setCounter_act (h : Hw) (n : Nat) (c : Counter) : (h.setCounter n c).act = h.act := rfl
@[simp] theorem Hw.setCounter_helds (h : Hw) (n : Nat) (c : Counter) : (h.setCounter n c).helds = h.helds := rfl
@[simp] theorem Hw.setCounter_snaps (h : Hw) (n : Nat) (c : Counter) : (h.setCounter n c).snaps = h.snaps := rfl
@[simp] theorem Hw.setCounter_mem (h : Hw) (n : Nat) (c : Counter) : (h.setCounter n c).mem = h.mem := rfl
@[simp] theorem Hw.setCounter_atu (h : Hw) (n : Nat) (c : Counter) : (h.setCounter n c).atu = h.atu := rfl
@[simp] theorem Hw.setCounter_fnRings (h : Hw) (n : Nat) (c : Counter) : (h.setCounter n c).fnRings = h.fnRings := rfl
@[simp] theorem Hw.setCounter_ctxRings (h : Hw) (n : Nat) (c : Counter) : (h.setCounter n c).ctxRings = h.ctxRings := rfl
@[simp] theorem Hw.setCounter_rotor (h : Hw) (n : Nat) (c : Counter) : (h.setCounter n c).rotor = h.rotor := rfl
@[simp] theorem Hw.setCounter_ctxs (h : Hw) (n : Nat) (c : Counter) : (h.setCounter n c).ctxs = h.ctxs := rfl
@[simp] theorem Hw.setCounter_images (h : Hw) (n : Nat) (c : Counter) : (h.setCounter n c).images = h.images := rfl
@[simp] theorem Hw.setCounter_nextImage (h : Hw) (n : Nat) (c : Counter) : (h.setCounter n c).nextImage = h.nextImage := rfl
@[simp] theorem Hw.setCounter_frm (h : Hw) (n : Nat) (c : Counter) : (h.setCounter n c).frm = h.frm := rfl
@[simp] theorem Hw.setCounter_col (h : Hw) (n : Nat) (c : Counter) : (h.setCounter n c).col = h.col := rfl
@[simp] theorem Hw.setCounter_channels (h : Hw) (n : Nat) (c : Counter) : (h.setCounter n c).channels = h.channels := rfl
@[simp] theorem Hw.setCounter_cores (h : Hw) (n : Nat) (c : Counter) : (h.setCounter n c).cores = h.cores := rfl
@[simp] theorem Hw.setCounter_arrays (h : Hw) (n : Nat) (c : Counter) : (h.setCounter n c).arrays = h.arrays := rfl
@[simp] theorem Hw.setCounter_wpool (h : Hw) (n : Nat) (c : Counter) : (h.setCounter n c).wpool = h.wpool := rfl
@[simp] theorem Hw.setCounter_wspent (h : Hw) (n : Nat) (c : Counter) : (h.setCounter n c).wspent = h.wspent := rfl
@[simp] theorem Hw.setCounter_degraded (h : Hw) (n : Nat) (c : Counter) : (h.setCounter n c).degraded = h.degraded := rfl
@[simp] theorem Hw.setCounter_fitDiff (h : Hw) (n : Nat) (c : Counter) : (h.setCounter n c).fitDiff = h.fitDiff := rfl
@[simp] theorem Hw.setCounter_pairEnds (h : Hw) (n : Nat) (c : Counter) : (h.setCounter n c).pairEnds = h.pairEnds := rfl
@[simp] theorem Hw.setCounter_win (h : Hw) (n : Nat) (c : Counter) : (h.setCounter n c).win = h.win := rfl
@[simp] theorem Hw.setCounter_dma (h : Hw) (n : Nat) (c : Counter) : (h.setCounter n c).dma = h.dma := rfl
@[simp] theorem Hw.setCounter_cpc (h : Hw) (n : Nat) (c : Counter) : (h.setCounter n c).cpc = h.cpc := rfl
@[simp] theorem Hw.setCounter_cxp (h : Hw) (n : Nat) (c : Counter) : (h.setCounter n c).cxp = h.cxp := rfl
@[simp] theorem Hw.setCounter_web (h : Hw) (n : Nat) (c : Counter) : (h.setCounter n c).web = h.web := rfl
@[simp] theorem Hw.setCounter_eth (h : Hw) (n : Nat) (c : Counter) : (h.setCounter n c).eth = h.eth := rfl
@[simp] theorem Hw.setCounter_ptp (h : Hw) (n : Nat) (c : Counter) : (h.setCounter n c).ptp = h.ptp := rfl
@[simp] theorem Hw.setCounter_wml (h : Hw) (n : Nat) (c : Counter) : (h.setCounter n c).wml = h.wml := rfl
@[simp] theorem Hw.setCounter_pci (h : Hw) (n : Nat) (c : Counter) : (h.setCounter n c).pci = h.pci := rfl

/-! ### `setChannel` -/

@[simp] theorem Hw.setChannel_channel_same (h : Hw) (n : Nat) (c : Channel) : (h.setChannel n c).channel n = c :=
  Tbl.get_set_same _ _ _ _

theorem Hw.setChannel_channel (h : Hw) (n m : Nat) (c : Channel) :
    (h.setChannel n c).channel m = if m = n then c else h.channel m :=
  Tbl.get_set _ _ _ _ _

@[simp] theorem Hw.setChannel_now (h : Hw) (n : Nat) (c : Channel) : (h.setChannel n c).now = h.now := rfl
@[simp] theorem Hw.setChannel_sys (h : Hw) (n : Nat) (c : Channel) : (h.setChannel n c).sys = h.sys := rfl
@[simp] theorem Hw.setChannel_regs (h : Hw) (n : Nat) (c : Channel) : (h.setChannel n c).regs = h.regs := rfl
@[simp] theorem Hw.setChannel_act (h : Hw) (n : Nat) (c : Channel) : (h.setChannel n c).act = h.act := rfl
@[simp] theorem Hw.setChannel_helds (h : Hw) (n : Nat) (c : Channel) : (h.setChannel n c).helds = h.helds := rfl
@[simp] theorem Hw.setChannel_snaps (h : Hw) (n : Nat) (c : Channel) : (h.setChannel n c).snaps = h.snaps := rfl
@[simp] theorem Hw.setChannel_mem (h : Hw) (n : Nat) (c : Channel) : (h.setChannel n c).mem = h.mem := rfl
@[simp] theorem Hw.setChannel_atu (h : Hw) (n : Nat) (c : Channel) : (h.setChannel n c).atu = h.atu := rfl
@[simp] theorem Hw.setChannel_fnRings (h : Hw) (n : Nat) (c : Channel) : (h.setChannel n c).fnRings = h.fnRings := rfl
@[simp] theorem Hw.setChannel_ctxRings (h : Hw) (n : Nat) (c : Channel) : (h.setChannel n c).ctxRings = h.ctxRings := rfl
@[simp] theorem Hw.setChannel_rotor (h : Hw) (n : Nat) (c : Channel) : (h.setChannel n c).rotor = h.rotor := rfl
@[simp] theorem Hw.setChannel_ctxs (h : Hw) (n : Nat) (c : Channel) : (h.setChannel n c).ctxs = h.ctxs := rfl
@[simp] theorem Hw.setChannel_images (h : Hw) (n : Nat) (c : Channel) : (h.setChannel n c).images = h.images := rfl
@[simp] theorem Hw.setChannel_nextImage (h : Hw) (n : Nat) (c : Channel) : (h.setChannel n c).nextImage = h.nextImage := rfl
@[simp] theorem Hw.setChannel_frm (h : Hw) (n : Nat) (c : Channel) : (h.setChannel n c).frm = h.frm := rfl
@[simp] theorem Hw.setChannel_col (h : Hw) (n : Nat) (c : Channel) : (h.setChannel n c).col = h.col := rfl
@[simp] theorem Hw.setChannel_counters (h : Hw) (n : Nat) (c : Channel) : (h.setChannel n c).counters = h.counters := rfl
@[simp] theorem Hw.setChannel_cores (h : Hw) (n : Nat) (c : Channel) : (h.setChannel n c).cores = h.cores := rfl
@[simp] theorem Hw.setChannel_arrays (h : Hw) (n : Nat) (c : Channel) : (h.setChannel n c).arrays = h.arrays := rfl
@[simp] theorem Hw.setChannel_wpool (h : Hw) (n : Nat) (c : Channel) : (h.setChannel n c).wpool = h.wpool := rfl
@[simp] theorem Hw.setChannel_wspent (h : Hw) (n : Nat) (c : Channel) : (h.setChannel n c).wspent = h.wspent := rfl
@[simp] theorem Hw.setChannel_degraded (h : Hw) (n : Nat) (c : Channel) : (h.setChannel n c).degraded = h.degraded := rfl
@[simp] theorem Hw.setChannel_fitDiff (h : Hw) (n : Nat) (c : Channel) : (h.setChannel n c).fitDiff = h.fitDiff := rfl
@[simp] theorem Hw.setChannel_pairEnds (h : Hw) (n : Nat) (c : Channel) : (h.setChannel n c).pairEnds = h.pairEnds := rfl
@[simp] theorem Hw.setChannel_win (h : Hw) (n : Nat) (c : Channel) : (h.setChannel n c).win = h.win := rfl
@[simp] theorem Hw.setChannel_dma (h : Hw) (n : Nat) (c : Channel) : (h.setChannel n c).dma = h.dma := rfl
@[simp] theorem Hw.setChannel_cpc (h : Hw) (n : Nat) (c : Channel) : (h.setChannel n c).cpc = h.cpc := rfl
@[simp] theorem Hw.setChannel_cxp (h : Hw) (n : Nat) (c : Channel) : (h.setChannel n c).cxp = h.cxp := rfl
@[simp] theorem Hw.setChannel_web (h : Hw) (n : Nat) (c : Channel) : (h.setChannel n c).web = h.web := rfl
@[simp] theorem Hw.setChannel_eth (h : Hw) (n : Nat) (c : Channel) : (h.setChannel n c).eth = h.eth := rfl
@[simp] theorem Hw.setChannel_ptp (h : Hw) (n : Nat) (c : Channel) : (h.setChannel n c).ptp = h.ptp := rfl
@[simp] theorem Hw.setChannel_wml (h : Hw) (n : Nat) (c : Channel) : (h.setChannel n c).wml = h.wml := rfl
@[simp] theorem Hw.setChannel_pci (h : Hw) (n : Nat) (c : Channel) : (h.setChannel n c).pci = h.pci := rfl

/-! ### `setDmaChan` -/

@[simp] theorem Hw.setDmaChan_dmaChan_same (h : Hw) (n : Nat) (c : DmaChan) : (h.setDmaChan n c).dmaChan n = c :=
  Tbl.get_set_same _ _ _ _

theorem Hw.setDmaChan_dmaChan (h : Hw) (n m : Nat) (c : DmaChan) :
    (h.setDmaChan n c).dmaChan m = if m = n then c else h.dmaChan m :=
  Tbl.get_set _ _ _ _ _

@[simp] theorem Hw.setDmaChan_now (h : Hw) (n : Nat) (c : DmaChan) : (h.setDmaChan n c).now = h.now := rfl
@[simp] theorem Hw.setDmaChan_sys (h : Hw) (n : Nat) (c : DmaChan) : (h.setDmaChan n c).sys = h.sys := rfl
@[simp] theorem Hw.setDmaChan_regs (h : Hw) (n : Nat) (c : DmaChan) : (h.setDmaChan n c).regs = h.regs := rfl
@[simp] theorem Hw.setDmaChan_act (h : Hw) (n : Nat) (c : DmaChan) : (h.setDmaChan n c).act = h.act := rfl
@[simp] theorem Hw.setDmaChan_helds (h : Hw) (n : Nat) (c : DmaChan) : (h.setDmaChan n c).helds = h.helds := rfl
@[simp] theorem Hw.setDmaChan_snaps (h : Hw) (n : Nat) (c : DmaChan) : (h.setDmaChan n c).snaps = h.snaps := rfl
@[simp] theorem Hw.setDmaChan_mem (h : Hw) (n : Nat) (c : DmaChan) : (h.setDmaChan n c).mem = h.mem := rfl
@[simp] theorem Hw.setDmaChan_atu (h : Hw) (n : Nat) (c : DmaChan) : (h.setDmaChan n c).atu = h.atu := rfl
@[simp] theorem Hw.setDmaChan_fnRings (h : Hw) (n : Nat) (c : DmaChan) : (h.setDmaChan n c).fnRings = h.fnRings := rfl
@[simp] theorem Hw.setDmaChan_ctxRings (h : Hw) (n : Nat) (c : DmaChan) : (h.setDmaChan n c).ctxRings = h.ctxRings := rfl
@[simp] theorem Hw.setDmaChan_rotor (h : Hw) (n : Nat) (c : DmaChan) : (h.setDmaChan n c).rotor = h.rotor := rfl
@[simp] theorem Hw.setDmaChan_ctxs (h : Hw) (n : Nat) (c : DmaChan) : (h.setDmaChan n c).ctxs = h.ctxs := rfl
@[simp] theorem Hw.setDmaChan_images (h : Hw) (n : Nat) (c : DmaChan) : (h.setDmaChan n c).images = h.images := rfl
@[simp] theorem Hw.setDmaChan_nextImage (h : Hw) (n : Nat) (c : DmaChan) : (h.setDmaChan n c).nextImage = h.nextImage := rfl
@[simp] theorem Hw.setDmaChan_frm (h : Hw) (n : Nat) (c : DmaChan) : (h.setDmaChan n c).frm = h.frm := rfl
@[simp] theorem Hw.setDmaChan_col (h : Hw) (n : Nat) (c : DmaChan) : (h.setDmaChan n c).col = h.col := rfl
@[simp] theorem Hw.setDmaChan_counters (h : Hw) (n : Nat) (c : DmaChan) : (h.setDmaChan n c).counters = h.counters := rfl
@[simp] theorem Hw.setDmaChan_channels (h : Hw) (n : Nat) (c : DmaChan) : (h.setDmaChan n c).channels = h.channels := rfl
@[simp] theorem Hw.setDmaChan_cores (h : Hw) (n : Nat) (c : DmaChan) : (h.setDmaChan n c).cores = h.cores := rfl
@[simp] theorem Hw.setDmaChan_arrays (h : Hw) (n : Nat) (c : DmaChan) : (h.setDmaChan n c).arrays = h.arrays := rfl
@[simp] theorem Hw.setDmaChan_wpool (h : Hw) (n : Nat) (c : DmaChan) : (h.setDmaChan n c).wpool = h.wpool := rfl
@[simp] theorem Hw.setDmaChan_wspent (h : Hw) (n : Nat) (c : DmaChan) : (h.setDmaChan n c).wspent = h.wspent := rfl
@[simp] theorem Hw.setDmaChan_degraded (h : Hw) (n : Nat) (c : DmaChan) : (h.setDmaChan n c).degraded = h.degraded := rfl
@[simp] theorem Hw.setDmaChan_fitDiff (h : Hw) (n : Nat) (c : DmaChan) : (h.setDmaChan n c).fitDiff = h.fitDiff := rfl
@[simp] theorem Hw.setDmaChan_pairEnds (h : Hw) (n : Nat) (c : DmaChan) : (h.setDmaChan n c).pairEnds = h.pairEnds := rfl
@[simp] theorem Hw.setDmaChan_win (h : Hw) (n : Nat) (c : DmaChan) : (h.setDmaChan n c).win = h.win := rfl
@[simp] theorem Hw.setDmaChan_dma_engines (h : Hw) (n : Nat) (c : DmaChan) : (h.setDmaChan n c).dma.engines = h.dma.engines := rfl
@[simp] theorem Hw.setDmaChan_dma_held (h : Hw) (n : Nat) (c : DmaChan) : (h.setDmaChan n c).dma.held = h.dma.held := rfl
@[simp] theorem Hw.setDmaChan_dma_dropped (h : Hw) (n : Nat) (c : DmaChan) : (h.setDmaChan n c).dma.dropped = h.dma.dropped := rfl
@[simp] theorem Hw.setDmaChan_dma_pulse (h : Hw) (n : Nat) (c : DmaChan) : (h.setDmaChan n c).dma.pulse = h.dma.pulse := rfl
@[simp] theorem Hw.setDmaChan_cpc (h : Hw) (n : Nat) (c : DmaChan) : (h.setDmaChan n c).cpc = h.cpc := rfl
@[simp] theorem Hw.setDmaChan_cxp (h : Hw) (n : Nat) (c : DmaChan) : (h.setDmaChan n c).cxp = h.cxp := rfl
@[simp] theorem Hw.setDmaChan_web (h : Hw) (n : Nat) (c : DmaChan) : (h.setDmaChan n c).web = h.web := rfl
@[simp] theorem Hw.setDmaChan_eth (h : Hw) (n : Nat) (c : DmaChan) : (h.setDmaChan n c).eth = h.eth := rfl
@[simp] theorem Hw.setDmaChan_ptp (h : Hw) (n : Nat) (c : DmaChan) : (h.setDmaChan n c).ptp = h.ptp := rfl
@[simp] theorem Hw.setDmaChan_wml (h : Hw) (n : Nat) (c : DmaChan) : (h.setDmaChan n c).wml = h.wml := rfl
@[simp] theorem Hw.setDmaChan_pci (h : Hw) (n : Nat) (c : DmaChan) : (h.setDmaChan n c).pci = h.pci := rfl

/-! ### `setDmaEngine` -/

@[simp] theorem Hw.setDmaEngine_dmaEngine_same (h : Hw) (n : Nat) (c : DmaEngine) : (h.setDmaEngine n c).dmaEngine n = c :=
  Tbl.get_set_same _ _ _ _

theorem Hw.setDmaEngine_dmaEngine (h : Hw) (n m : Nat) (c : DmaEngine) :
    (h.setDmaEngine n c).dmaEngine m = if m = n then c else h.dmaEngine m :=
  Tbl.get_set _ _ _ _ _

@[simp] theorem Hw.setDmaEngine_now (h : Hw) (n : Nat) (c : DmaEngine) : (h.setDmaEngine n c).now = h.now := rfl
@[simp] theorem Hw.setDmaEngine_sys (h : Hw) (n : Nat) (c : DmaEngine) : (h.setDmaEngine n c).sys = h.sys := rfl
@[simp] theorem Hw.setDmaEngine_regs (h : Hw) (n : Nat) (c : DmaEngine) : (h.setDmaEngine n c).regs = h.regs := rfl
@[simp] theorem Hw.setDmaEngine_act (h : Hw) (n : Nat) (c : DmaEngine) : (h.setDmaEngine n c).act = h.act := rfl
@[simp] theorem Hw.setDmaEngine_helds (h : Hw) (n : Nat) (c : DmaEngine) : (h.setDmaEngine n c).helds = h.helds := rfl
@[simp] theorem Hw.setDmaEngine_snaps (h : Hw) (n : Nat) (c : DmaEngine) : (h.setDmaEngine n c).snaps = h.snaps := rfl
@[simp] theorem Hw.setDmaEngine_mem (h : Hw) (n : Nat) (c : DmaEngine) : (h.setDmaEngine n c).mem = h.mem := rfl
@[simp] theorem Hw.setDmaEngine_atu (h : Hw) (n : Nat) (c : DmaEngine) : (h.setDmaEngine n c).atu = h.atu := rfl
@[simp] theorem Hw.setDmaEngine_fnRings (h : Hw) (n : Nat) (c : DmaEngine) : (h.setDmaEngine n c).fnRings = h.fnRings := rfl
@[simp] theorem Hw.setDmaEngine_ctxRings (h : Hw) (n : Nat) (c : DmaEngine) : (h.setDmaEngine n c).ctxRings = h.ctxRings := rfl
@[simp] theorem Hw.setDmaEngine_rotor (h : Hw) (n : Nat) (c : DmaEngine) : (h.setDmaEngine n c).rotor = h.rotor := rfl
@[simp] theorem Hw.setDmaEngine_ctxs (h : Hw) (n : Nat) (c : DmaEngine) : (h.setDmaEngine n c).ctxs = h.ctxs := rfl
@[simp] theorem Hw.setDmaEngine_images (h : Hw) (n : Nat) (c : DmaEngine) : (h.setDmaEngine n c).images = h.images := rfl
@[simp] theorem Hw.setDmaEngine_nextImage (h : Hw) (n : Nat) (c : DmaEngine) : (h.setDmaEngine n c).nextImage = h.nextImage := rfl
@[simp] theorem Hw.setDmaEngine_frm (h : Hw) (n : Nat) (c : DmaEngine) : (h.setDmaEngine n c).frm = h.frm := rfl
@[simp] theorem Hw.setDmaEngine_col (h : Hw) (n : Nat) (c : DmaEngine) : (h.setDmaEngine n c).col = h.col := rfl
@[simp] theorem Hw.setDmaEngine_counters (h : Hw) (n : Nat) (c : DmaEngine) : (h.setDmaEngine n c).counters = h.counters := rfl
@[simp] theorem Hw.setDmaEngine_channels (h : Hw) (n : Nat) (c : DmaEngine) : (h.setDmaEngine n c).channels = h.channels := rfl
@[simp] theorem Hw.setDmaEngine_cores (h : Hw) (n : Nat) (c : DmaEngine) : (h.setDmaEngine n c).cores = h.cores := rfl
@[simp] theorem Hw.setDmaEngine_arrays (h : Hw) (n : Nat) (c : DmaEngine) : (h.setDmaEngine n c).arrays = h.arrays := rfl
@[simp] theorem Hw.setDmaEngine_wpool (h : Hw) (n : Nat) (c : DmaEngine) : (h.setDmaEngine n c).wpool = h.wpool := rfl
@[simp] theorem Hw.setDmaEngine_wspent (h : Hw) (n : Nat) (c : DmaEngine) : (h.setDmaEngine n c).wspent = h.wspent := rfl
@[simp] theorem Hw.setDmaEngine_degraded (h : Hw) (n : Nat) (c : DmaEngine) : (h.setDmaEngine n c).degraded = h.degraded := rfl
@[simp] theorem Hw.setDmaEngine_fitDiff (h : Hw) (n : Nat) (c : DmaEngine) : (h.setDmaEngine n c).fitDiff = h.fitDiff := rfl
@[simp] theorem Hw.setDmaEngine_pairEnds (h : Hw) (n : Nat) (c : DmaEngine) : (h.setDmaEngine n c).pairEnds = h.pairEnds := rfl
@[simp] theorem Hw.setDmaEngine_win (h : Hw) (n : Nat) (c : DmaEngine) : (h.setDmaEngine n c).win = h.win := rfl
@[simp] theorem Hw.setDmaEngine_dma_chans (h : Hw) (n : Nat) (c : DmaEngine) : (h.setDmaEngine n c).dma.chans = h.dma.chans := rfl
@[simp] theorem Hw.setDmaEngine_dma_held (h : Hw) (n : Nat) (c : DmaEngine) : (h.setDmaEngine n c).dma.held = h.dma.held := rfl
@[simp] theorem Hw.setDmaEngine_dma_dropped (h : Hw) (n : Nat) (c : DmaEngine) : (h.setDmaEngine n c).dma.dropped = h.dma.dropped := rfl
@[simp] theorem Hw.setDmaEngine_dma_pulse (h : Hw) (n : Nat) (c : DmaEngine) : (h.setDmaEngine n c).dma.pulse = h.dma.pulse := rfl
@[simp] theorem Hw.setDmaEngine_cpc (h : Hw) (n : Nat) (c : DmaEngine) : (h.setDmaEngine n c).cpc = h.cpc := rfl
@[simp] theorem Hw.setDmaEngine_cxp (h : Hw) (n : Nat) (c : DmaEngine) : (h.setDmaEngine n c).cxp = h.cxp := rfl
@[simp] theorem Hw.setDmaEngine_web (h : Hw) (n : Nat) (c : DmaEngine) : (h.setDmaEngine n c).web = h.web := rfl
@[simp] theorem Hw.setDmaEngine_eth (h : Hw) (n : Nat) (c : DmaEngine) : (h.setDmaEngine n c).eth = h.eth := rfl
@[simp] theorem Hw.setDmaEngine_ptp (h : Hw) (n : Nat) (c : DmaEngine) : (h.setDmaEngine n c).ptp = h.ptp := rfl
@[simp] theorem Hw.setDmaEngine_wml (h : Hw) (n : Nat) (c : DmaEngine) : (h.setDmaEngine n c).wml = h.wml := rfl
@[simp] theorem Hw.setDmaEngine_pci (h : Hw) (n : Nat) (c : DmaEngine) : (h.setDmaEngine n c).pci = h.pci := rfl

/-! ### `setLineChan` -/

@[simp] theorem Hw.setLineChan_lineChan_same (h : Hw) (n : Nat) (c : LineChan) : (h.setLineChan n c).lineChan n = c :=
  Tbl.get_set_same _ _ _ _

theorem Hw.setLineChan_lineChan (h : Hw) (n m : Nat) (c : LineChan) :
    (h.setLineChan n c).lineChan m = if m = n then c else h.lineChan m :=
  Tbl.get_set _ _ _ _ _

@[simp] theorem Hw.setLineChan_now (h : Hw) (n : Nat) (c : LineChan) : (h.setLineChan n c).now = h.now := rfl
@[simp] theorem Hw.setLineChan_sys (h : Hw) (n : Nat) (c : LineChan) : (h.setLineChan n c).sys = h.sys := rfl
@[simp] theorem Hw.setLineChan_regs (h : Hw) (n : Nat) (c : LineChan) : (h.setLineChan n c).regs = h.regs := rfl
@[simp] theorem Hw.setLineChan_act (h : Hw) (n : Nat) (c : LineChan) : (h.setLineChan n c).act = h.act := rfl
@[simp] theorem Hw.setLineChan_helds (h : Hw) (n : Nat) (c : LineChan) : (h.setLineChan n c).helds = h.helds := rfl
@[simp] theorem Hw.setLineChan_snaps (h : Hw) (n : Nat) (c : LineChan) : (h.setLineChan n c).snaps = h.snaps := rfl
@[simp] theorem Hw.setLineChan_mem (h : Hw) (n : Nat) (c : LineChan) : (h.setLineChan n c).mem = h.mem := rfl
@[simp] theorem Hw.setLineChan_atu (h : Hw) (n : Nat) (c : LineChan) : (h.setLineChan n c).atu = h.atu := rfl
@[simp] theorem Hw.setLineChan_fnRings (h : Hw) (n : Nat) (c : LineChan) : (h.setLineChan n c).fnRings = h.fnRings := rfl
@[simp] theorem Hw.setLineChan_ctxRings (h : Hw) (n : Nat) (c : LineChan) : (h.setLineChan n c).ctxRings = h.ctxRings := rfl
@[simp] theorem Hw.setLineChan_rotor (h : Hw) (n : Nat) (c : LineChan) : (h.setLineChan n c).rotor = h.rotor := rfl
@[simp] theorem Hw.setLineChan_ctxs (h : Hw) (n : Nat) (c : LineChan) : (h.setLineChan n c).ctxs = h.ctxs := rfl
@[simp] theorem Hw.setLineChan_images (h : Hw) (n : Nat) (c : LineChan) : (h.setLineChan n c).images = h.images := rfl
@[simp] theorem Hw.setLineChan_nextImage (h : Hw) (n : Nat) (c : LineChan) : (h.setLineChan n c).nextImage = h.nextImage := rfl
@[simp] theorem Hw.setLineChan_frm (h : Hw) (n : Nat) (c : LineChan) : (h.setLineChan n c).frm = h.frm := rfl
@[simp] theorem Hw.setLineChan_col (h : Hw) (n : Nat) (c : LineChan) : (h.setLineChan n c).col = h.col := rfl
@[simp] theorem Hw.setLineChan_counters (h : Hw) (n : Nat) (c : LineChan) : (h.setLineChan n c).counters = h.counters := rfl
@[simp] theorem Hw.setLineChan_channels (h : Hw) (n : Nat) (c : LineChan) : (h.setLineChan n c).channels = h.channels := rfl
@[simp] theorem Hw.setLineChan_cores (h : Hw) (n : Nat) (c : LineChan) : (h.setLineChan n c).cores = h.cores := rfl
@[simp] theorem Hw.setLineChan_arrays (h : Hw) (n : Nat) (c : LineChan) : (h.setLineChan n c).arrays = h.arrays := rfl
@[simp] theorem Hw.setLineChan_wpool (h : Hw) (n : Nat) (c : LineChan) : (h.setLineChan n c).wpool = h.wpool := rfl
@[simp] theorem Hw.setLineChan_wspent (h : Hw) (n : Nat) (c : LineChan) : (h.setLineChan n c).wspent = h.wspent := rfl
@[simp] theorem Hw.setLineChan_degraded (h : Hw) (n : Nat) (c : LineChan) : (h.setLineChan n c).degraded = h.degraded := rfl
@[simp] theorem Hw.setLineChan_fitDiff (h : Hw) (n : Nat) (c : LineChan) : (h.setLineChan n c).fitDiff = h.fitDiff := rfl
@[simp] theorem Hw.setLineChan_pairEnds (h : Hw) (n : Nat) (c : LineChan) : (h.setLineChan n c).pairEnds = h.pairEnds := rfl
@[simp] theorem Hw.setLineChan_win_hdg (h : Hw) (n : Nat) (c : LineChan) : (h.setLineChan n c).win.hdg = h.win.hdg := rfl
@[simp] theorem Hw.setLineChan_win_prv (h : Hw) (n : Nat) (c : LineChan) : (h.setLineChan n c).win.prv = h.win.prv := rfl
@[simp] theorem Hw.setLineChan_dma (h : Hw) (n : Nat) (c : LineChan) : (h.setLineChan n c).dma = h.dma := rfl
@[simp] theorem Hw.setLineChan_cpc (h : Hw) (n : Nat) (c : LineChan) : (h.setLineChan n c).cpc = h.cpc := rfl
@[simp] theorem Hw.setLineChan_cxp (h : Hw) (n : Nat) (c : LineChan) : (h.setLineChan n c).cxp = h.cxp := rfl
@[simp] theorem Hw.setLineChan_web (h : Hw) (n : Nat) (c : LineChan) : (h.setLineChan n c).web = h.web := rfl
@[simp] theorem Hw.setLineChan_eth (h : Hw) (n : Nat) (c : LineChan) : (h.setLineChan n c).eth = h.eth := rfl
@[simp] theorem Hw.setLineChan_ptp (h : Hw) (n : Nat) (c : LineChan) : (h.setLineChan n c).ptp = h.ptp := rfl
@[simp] theorem Hw.setLineChan_wml (h : Hw) (n : Nat) (c : LineChan) : (h.setLineChan n c).wml = h.wml := rfl
@[simp] theorem Hw.setLineChan_pci (h : Hw) (n : Nat) (c : LineChan) : (h.setLineChan n c).pci = h.pci := rfl

/-! ### `setFunc` -/

@[simp] theorem Hw.setFunc_func_same (h : Hw) (n : Nat) (c : Func) : (h.setFunc n c).func n = c :=
  Tbl.get_set_same _ _ _ _

theorem Hw.setFunc_func (h : Hw) (n m : Nat) (c : Func) :
    (h.setFunc n c).func m = if m = n then c else h.func m :=
  Tbl.get_set _ _ _ _ _

@[simp] theorem Hw.setFunc_now (h : Hw) (n : Nat) (c : Func) : (h.setFunc n c).now = h.now := rfl
@[simp] theorem Hw.setFunc_sys (h : Hw) (n : Nat) (c : Func) : (h.setFunc n c).sys = h.sys := rfl
@[simp] theorem Hw.setFunc_regs (h : Hw) (n : Nat) (c : Func) : (h.setFunc n c).regs = h.regs := rfl
@[simp] theorem Hw.setFunc_act (h : Hw) (n : Nat) (c : Func) : (h.setFunc n c).act = h.act := rfl
@[simp] theorem Hw.setFunc_helds (h : Hw) (n : Nat) (c : Func) : (h.setFunc n c).helds = h.helds := rfl
@[simp] theorem Hw.setFunc_snaps (h : Hw) (n : Nat) (c : Func) : (h.setFunc n c).snaps = h.snaps := rfl
@[simp] theorem Hw.setFunc_mem (h : Hw) (n : Nat) (c : Func) : (h.setFunc n c).mem = h.mem := rfl
@[simp] theorem Hw.setFunc_atu (h : Hw) (n : Nat) (c : Func) : (h.setFunc n c).atu = h.atu := rfl
@[simp] theorem Hw.setFunc_fnRings (h : Hw) (n : Nat) (c : Func) : (h.setFunc n c).fnRings = h.fnRings := rfl
@[simp] theorem Hw.setFunc_ctxRings (h : Hw) (n : Nat) (c : Func) : (h.setFunc n c).ctxRings = h.ctxRings := rfl
@[simp] theorem Hw.setFunc_rotor (h : Hw) (n : Nat) (c : Func) : (h.setFunc n c).rotor = h.rotor := rfl
@[simp] theorem Hw.setFunc_ctxs (h : Hw) (n : Nat) (c : Func) : (h.setFunc n c).ctxs = h.ctxs := rfl
@[simp] theorem Hw.setFunc_images (h : Hw) (n : Nat) (c : Func) : (h.setFunc n c).images = h.images := rfl
@[simp] theorem Hw.setFunc_nextImage (h : Hw) (n : Nat) (c : Func) : (h.setFunc n c).nextImage = h.nextImage := rfl
@[simp] theorem Hw.setFunc_frm (h : Hw) (n : Nat) (c : Func) : (h.setFunc n c).frm = h.frm := rfl
@[simp] theorem Hw.setFunc_col (h : Hw) (n : Nat) (c : Func) : (h.setFunc n c).col = h.col := rfl
@[simp] theorem Hw.setFunc_counters (h : Hw) (n : Nat) (c : Func) : (h.setFunc n c).counters = h.counters := rfl
@[simp] theorem Hw.setFunc_channels (h : Hw) (n : Nat) (c : Func) : (h.setFunc n c).channels = h.channels := rfl
@[simp] theorem Hw.setFunc_cores (h : Hw) (n : Nat) (c : Func) : (h.setFunc n c).cores = h.cores := rfl
@[simp] theorem Hw.setFunc_arrays (h : Hw) (n : Nat) (c : Func) : (h.setFunc n c).arrays = h.arrays := rfl
@[simp] theorem Hw.setFunc_wpool (h : Hw) (n : Nat) (c : Func) : (h.setFunc n c).wpool = h.wpool := rfl
@[simp] theorem Hw.setFunc_wspent (h : Hw) (n : Nat) (c : Func) : (h.setFunc n c).wspent = h.wspent := rfl
@[simp] theorem Hw.setFunc_degraded (h : Hw) (n : Nat) (c : Func) : (h.setFunc n c).degraded = h.degraded := rfl
@[simp] theorem Hw.setFunc_fitDiff (h : Hw) (n : Nat) (c : Func) : (h.setFunc n c).fitDiff = h.fitDiff := rfl
@[simp] theorem Hw.setFunc_pairEnds (h : Hw) (n : Nat) (c : Func) : (h.setFunc n c).pairEnds = h.pairEnds := rfl
@[simp] theorem Hw.setFunc_win (h : Hw) (n : Nat) (c : Func) : (h.setFunc n c).win = h.win := rfl
@[simp] theorem Hw.setFunc_dma (h : Hw) (n : Nat) (c : Func) : (h.setFunc n c).dma = h.dma := rfl
@[simp] theorem Hw.setFunc_cpc (h : Hw) (n : Nat) (c : Func) : (h.setFunc n c).cpc = h.cpc := rfl
@[simp] theorem Hw.setFunc_cxp (h : Hw) (n : Nat) (c : Func) : (h.setFunc n c).cxp = h.cxp := rfl
@[simp] theorem Hw.setFunc_web (h : Hw) (n : Nat) (c : Func) : (h.setFunc n c).web = h.web := rfl
@[simp] theorem Hw.setFunc_eth (h : Hw) (n : Nat) (c : Func) : (h.setFunc n c).eth = h.eth := rfl
@[simp] theorem Hw.setFunc_ptp (h : Hw) (n : Nat) (c : Func) : (h.setFunc n c).ptp = h.ptp := rfl
@[simp] theorem Hw.setFunc_wml (h : Hw) (n : Nat) (c : Func) : (h.setFunc n c).wml = h.wml := rfl
@[simp] theorem Hw.setFunc_pci_up (h : Hw) (n : Nat) (c : Func) : (h.setFunc n c).pci.up = h.pci.up := rfl
@[simp] theorem Hw.setFunc_pci_speed (h : Hw) (n : Nat) (c : Func) : (h.setFunc n c).pci.speed = h.pci.speed := rfl
@[simp] theorem Hw.setFunc_pci_width (h : Hw) (n : Nat) (c : Func) : (h.setFunc n c).pci.width = h.pci.width := rfl
@[simp] theorem Hw.setFunc_pci_trainOn (h : Hw) (n : Nat) (c : Func) : (h.setFunc n c).pci.trainOn = h.pci.trainOn := rfl
@[simp] theorem Hw.setFunc_pci_crs (h : Hw) (n : Nat) (c : Func) : (h.setFunc n c).pci.crs = h.pci.crs := rfl
@[simp] theorem Hw.setFunc_pci_vfEnable (h : Hw) (n : Nat) (c : Func) : (h.setFunc n c).pci.vfEnable = h.pci.vfEnable := rfl
@[simp] theorem Hw.setFunc_pci_numVfs (h : Hw) (n : Nat) (c : Func) : (h.setFunc n c).pci.numVfs = h.pci.numVfs := rfl
@[simp] theorem Hw.setFunc_pci_hostMem (h : Hw) (n : Nat) (c : Func) : (h.setFunc n c).pci.hostMem = h.pci.hostMem := rfl
@[simp] theorem Hw.setFunc_pci_hostBad (h : Hw) (n : Nat) (c : Func) : (h.setFunc n c).pci.hostBad = h.pci.hostBad := rfl
@[simp] theorem Hw.setFunc_pci_out (h : Hw) (n : Nat) (c : Func) : (h.setFunc n c).pci.out = h.pci.out := rfl
@[simp] theorem Hw.setFunc_pci_answer (h : Hw) (n : Nat) (c : Func) : (h.setFunc n c).pci.answer = h.pci.answer := rfl
@[simp] theorem Hw.setFunc_pci_bar4 (h : Hw) (n : Nat) (c : Func) : (h.setFunc n c).pci.bar4 = h.pci.bar4 := rfl

/-! ### `setPort` -/

@[simp] theorem Hw.setPort_port_same (h : Hw) (n : Nat) (c : CamPort) : (h.setPort n c).port n = c :=
  Tbl.get_set_same _ _ _ _

theorem Hw.setPort_port (h : Hw) (n m : Nat) (c : CamPort) :
    (h.setPort n c).port m = if m = n then c else h.port m :=
  Tbl.get_set _ _ _ _ _

@[simp] theorem Hw.setPort_now (h : Hw) (n : Nat) (c : CamPort) : (h.setPort n c).now = h.now := rfl
@[simp] theorem Hw.setPort_sys (h : Hw) (n : Nat) (c : CamPort) : (h.setPort n c).sys = h.sys := rfl
@[simp] theorem Hw.setPort_regs (h : Hw) (n : Nat) (c : CamPort) : (h.setPort n c).regs = h.regs := rfl
@[simp] theorem Hw.setPort_act (h : Hw) (n : Nat) (c : CamPort) : (h.setPort n c).act = h.act := rfl
@[simp] theorem Hw.setPort_helds (h : Hw) (n : Nat) (c : CamPort) : (h.setPort n c).helds = h.helds := rfl
@[simp] theorem Hw.setPort_snaps (h : Hw) (n : Nat) (c : CamPort) : (h.setPort n c).snaps = h.snaps := rfl
@[simp] theorem Hw.setPort_mem (h : Hw) (n : Nat) (c : CamPort) : (h.setPort n c).mem = h.mem := rfl
@[simp] theorem Hw.setPort_atu (h : Hw) (n : Nat) (c : CamPort) : (h.setPort n c).atu = h.atu := rfl
@[simp] theorem Hw.setPort_fnRings (h : Hw) (n : Nat) (c : CamPort) : (h.setPort n c).fnRings = h.fnRings := rfl
@[simp] theorem Hw.setPort_ctxRings (h : Hw) (n : Nat) (c : CamPort) : (h.setPort n c).ctxRings = h.ctxRings := rfl
@[simp] theorem Hw.setPort_rotor (h : Hw) (n : Nat) (c : CamPort) : (h.setPort n c).rotor = h.rotor := rfl
@[simp] theorem Hw.setPort_ctxs (h : Hw) (n : Nat) (c : CamPort) : (h.setPort n c).ctxs = h.ctxs := rfl
@[simp] theorem Hw.setPort_images (h : Hw) (n : Nat) (c : CamPort) : (h.setPort n c).images = h.images := rfl
@[simp] theorem Hw.setPort_nextImage (h : Hw) (n : Nat) (c : CamPort) : (h.setPort n c).nextImage = h.nextImage := rfl
@[simp] theorem Hw.setPort_frm (h : Hw) (n : Nat) (c : CamPort) : (h.setPort n c).frm = h.frm := rfl
@[simp] theorem Hw.setPort_col (h : Hw) (n : Nat) (c : CamPort) : (h.setPort n c).col = h.col := rfl
@[simp] theorem Hw.setPort_counters (h : Hw) (n : Nat) (c : CamPort) : (h.setPort n c).counters = h.counters := rfl
@[simp] theorem Hw.setPort_channels (h : Hw) (n : Nat) (c : CamPort) : (h.setPort n c).channels = h.channels := rfl
@[simp] theorem Hw.setPort_cores (h : Hw) (n : Nat) (c : CamPort) : (h.setPort n c).cores = h.cores := rfl
@[simp] theorem Hw.setPort_arrays (h : Hw) (n : Nat) (c : CamPort) : (h.setPort n c).arrays = h.arrays := rfl
@[simp] theorem Hw.setPort_wpool (h : Hw) (n : Nat) (c : CamPort) : (h.setPort n c).wpool = h.wpool := rfl
@[simp] theorem Hw.setPort_wspent (h : Hw) (n : Nat) (c : CamPort) : (h.setPort n c).wspent = h.wspent := rfl
@[simp] theorem Hw.setPort_degraded (h : Hw) (n : Nat) (c : CamPort) : (h.setPort n c).degraded = h.degraded := rfl
@[simp] theorem Hw.setPort_fitDiff (h : Hw) (n : Nat) (c : CamPort) : (h.setPort n c).fitDiff = h.fitDiff := rfl
@[simp] theorem Hw.setPort_pairEnds (h : Hw) (n : Nat) (c : CamPort) : (h.setPort n c).pairEnds = h.pairEnds := rfl
@[simp] theorem Hw.setPort_win (h : Hw) (n : Nat) (c : CamPort) : (h.setPort n c).win = h.win := rfl
@[simp] theorem Hw.setPort_dma (h : Hw) (n : Nat) (c : CamPort) : (h.setPort n c).dma = h.dma := rfl
@[simp] theorem Hw.setPort_cpc (h : Hw) (n : Nat) (c : CamPort) : (h.setPort n c).cpc = h.cpc := rfl
@[simp] theorem Hw.setPort_cxp_bytes (h : Hw) (n : Nat) (c : CamPort) : (h.setPort n c).cxp.bytes = h.cxp.bytes := rfl
@[simp] theorem Hw.setPort_cxp_sent (h : Hw) (n : Nat) (c : CamPort) : (h.setPort n c).cxp.sent = h.cxp.sent := rfl
@[simp] theorem Hw.setPort_web (h : Hw) (n : Nat) (c : CamPort) : (h.setPort n c).web = h.web := rfl
@[simp] theorem Hw.setPort_eth (h : Hw) (n : Nat) (c : CamPort) : (h.setPort n c).eth = h.eth := rfl
@[simp] theorem Hw.setPort_ptp (h : Hw) (n : Nat) (c : CamPort) : (h.setPort n c).ptp = h.ptp := rfl
@[simp] theorem Hw.setPort_wml (h : Hw) (n : Nat) (c : CamPort) : (h.setPort n c).wml = h.wml := rfl
@[simp] theorem Hw.setPort_pci (h : Hw) (n : Nat) (c : CamPort) : (h.setPort n c).pci = h.pci := rfl

/-! ### `setEncoder` -/

@[simp] theorem Hw.setEncoder_encoder_same (h : Hw) (n : Nat) (c : Encoder) : (h.setEncoder n c).encoder n = c :=
  Tbl.get_set_same _ _ _ _

theorem Hw.setEncoder_encoder (h : Hw) (n m : Nat) (c : Encoder) :
    (h.setEncoder n c).encoder m = if m = n then c else h.encoder m :=
  Tbl.get_set _ _ _ _ _

@[simp] theorem Hw.setEncoder_now (h : Hw) (n : Nat) (c : Encoder) : (h.setEncoder n c).now = h.now := rfl
@[simp] theorem Hw.setEncoder_sys (h : Hw) (n : Nat) (c : Encoder) : (h.setEncoder n c).sys = h.sys := rfl
@[simp] theorem Hw.setEncoder_regs (h : Hw) (n : Nat) (c : Encoder) : (h.setEncoder n c).regs = h.regs := rfl
@[simp] theorem Hw.setEncoder_act (h : Hw) (n : Nat) (c : Encoder) : (h.setEncoder n c).act = h.act := rfl
@[simp] theorem Hw.setEncoder_helds (h : Hw) (n : Nat) (c : Encoder) : (h.setEncoder n c).helds = h.helds := rfl
@[simp] theorem Hw.setEncoder_snaps (h : Hw) (n : Nat) (c : Encoder) : (h.setEncoder n c).snaps = h.snaps := rfl
@[simp] theorem Hw.setEncoder_mem (h : Hw) (n : Nat) (c : Encoder) : (h.setEncoder n c).mem = h.mem := rfl
@[simp] theorem Hw.setEncoder_atu (h : Hw) (n : Nat) (c : Encoder) : (h.setEncoder n c).atu = h.atu := rfl
@[simp] theorem Hw.setEncoder_fnRings (h : Hw) (n : Nat) (c : Encoder) : (h.setEncoder n c).fnRings = h.fnRings := rfl
@[simp] theorem Hw.setEncoder_ctxRings (h : Hw) (n : Nat) (c : Encoder) : (h.setEncoder n c).ctxRings = h.ctxRings := rfl
@[simp] theorem Hw.setEncoder_rotor (h : Hw) (n : Nat) (c : Encoder) : (h.setEncoder n c).rotor = h.rotor := rfl
@[simp] theorem Hw.setEncoder_ctxs (h : Hw) (n : Nat) (c : Encoder) : (h.setEncoder n c).ctxs = h.ctxs := rfl
@[simp] theorem Hw.setEncoder_images (h : Hw) (n : Nat) (c : Encoder) : (h.setEncoder n c).images = h.images := rfl
@[simp] theorem Hw.setEncoder_nextImage (h : Hw) (n : Nat) (c : Encoder) : (h.setEncoder n c).nextImage = h.nextImage := rfl
@[simp] theorem Hw.setEncoder_frm (h : Hw) (n : Nat) (c : Encoder) : (h.setEncoder n c).frm = h.frm := rfl
@[simp] theorem Hw.setEncoder_col (h : Hw) (n : Nat) (c : Encoder) : (h.setEncoder n c).col = h.col := rfl
@[simp] theorem Hw.setEncoder_counters (h : Hw) (n : Nat) (c : Encoder) : (h.setEncoder n c).counters = h.counters := rfl
@[simp] theorem Hw.setEncoder_channels (h : Hw) (n : Nat) (c : Encoder) : (h.setEncoder n c).channels = h.channels := rfl
@[simp] theorem Hw.setEncoder_cores (h : Hw) (n : Nat) (c : Encoder) : (h.setEncoder n c).cores = h.cores := rfl
@[simp] theorem Hw.setEncoder_arrays (h : Hw) (n : Nat) (c : Encoder) : (h.setEncoder n c).arrays = h.arrays := rfl
@[simp] theorem Hw.setEncoder_wpool (h : Hw) (n : Nat) (c : Encoder) : (h.setEncoder n c).wpool = h.wpool := rfl
@[simp] theorem Hw.setEncoder_wspent (h : Hw) (n : Nat) (c : Encoder) : (h.setEncoder n c).wspent = h.wspent := rfl
@[simp] theorem Hw.setEncoder_degraded (h : Hw) (n : Nat) (c : Encoder) : (h.setEncoder n c).degraded = h.degraded := rfl
@[simp] theorem Hw.setEncoder_fitDiff (h : Hw) (n : Nat) (c : Encoder) : (h.setEncoder n c).fitDiff = h.fitDiff := rfl
@[simp] theorem Hw.setEncoder_pairEnds (h : Hw) (n : Nat) (c : Encoder) : (h.setEncoder n c).pairEnds = h.pairEnds := rfl
@[simp] theorem Hw.setEncoder_win (h : Hw) (n : Nat) (c : Encoder) : (h.setEncoder n c).win = h.win := rfl
@[simp] theorem Hw.setEncoder_dma (h : Hw) (n : Nat) (c : Encoder) : (h.setEncoder n c).dma = h.dma := rfl
@[simp] theorem Hw.setEncoder_cpc (h : Hw) (n : Nat) (c : Encoder) : (h.setEncoder n c).cpc = h.cpc := rfl
@[simp] theorem Hw.setEncoder_cxp (h : Hw) (n : Nat) (c : Encoder) : (h.setEncoder n c).cxp = h.cxp := rfl
@[simp] theorem Hw.setEncoder_web_counting (h : Hw) (n : Nat) (c : Encoder) : (h.setEncoder n c).web.counting = h.web.counting := rfl
@[simp] theorem Hw.setEncoder_web_raw (h : Hw) (n : Nat) (c : Encoder) : (h.setEncoder n c).web.raw = h.web.raw := rfl
@[simp] theorem Hw.setEncoder_web_filtered (h : Hw) (n : Nat) (c : Encoder) : (h.setEncoder n c).web.filtered = h.web.filtered := rfl
@[simp] theorem Hw.setEncoder_web_posts (h : Hw) (n : Nat) (c : Encoder) : (h.setEncoder n c).web.posts = h.web.posts := rfl
@[simp] theorem Hw.setEncoder_web_results (h : Hw) (n : Nat) (c : Encoder) : (h.setEncoder n c).web.results = h.web.results := rfl
@[simp] theorem Hw.setEncoder_web_owed (h : Hw) (n : Nat) (c : Encoder) : (h.setEncoder n c).web.owed = h.web.owed := rfl
@[simp] theorem Hw.setEncoder_web_last (h : Hw) (n : Nat) (c : Encoder) : (h.setEncoder n c).web.last = h.web.last := rfl
@[simp] theorem Hw.setEncoder_web_outputs (h : Hw) (n : Nat) (c : Encoder) : (h.setEncoder n c).web.outputs = h.web.outputs := rfl
@[simp] theorem Hw.setEncoder_web_verdicts (h : Hw) (n : Nat) (c : Encoder) : (h.setEncoder n c).web.verdicts = h.web.verdicts := rfl
@[simp] theorem Hw.setEncoder_web_capture (h : Hw) (n : Nat) (c : Encoder) : (h.setEncoder n c).web.capture = h.web.capture := rfl
@[simp] theorem Hw.setEncoder_eth (h : Hw) (n : Nat) (c : Encoder) : (h.setEncoder n c).eth = h.eth := rfl
@[simp] theorem Hw.setEncoder_ptp (h : Hw) (n : Nat) (c : Encoder) : (h.setEncoder n c).ptp = h.ptp := rfl
@[simp] theorem Hw.setEncoder_wml (h : Hw) (n : Nat) (c : Encoder) : (h.setEncoder n c).wml = h.wml := rfl
@[simp] theorem Hw.setEncoder_pci (h : Hw) (n : Nat) (c : Encoder) : (h.setEncoder n c).pci = h.pci := rfl

/-! ### `setOutput` -/

@[simp] theorem Hw.setOutput_output_same (h : Hw) (n : Nat) (c : Output) : (h.setOutput n c).output n = c :=
  Tbl.get_set_same _ _ _ _

theorem Hw.setOutput_output (h : Hw) (n m : Nat) (c : Output) :
    (h.setOutput n c).output m = if m = n then c else h.output m :=
  Tbl.get_set _ _ _ _ _

@[simp] theorem Hw.setOutput_now (h : Hw) (n : Nat) (c : Output) : (h.setOutput n c).now = h.now := rfl
@[simp] theorem Hw.setOutput_sys (h : Hw) (n : Nat) (c : Output) : (h.setOutput n c).sys = h.sys := rfl
@[simp] theorem Hw.setOutput_regs (h : Hw) (n : Nat) (c : Output) : (h.setOutput n c).regs = h.regs := rfl
@[simp] theorem Hw.setOutput_act (h : Hw) (n : Nat) (c : Output) : (h.setOutput n c).act = h.act := rfl
@[simp] theorem Hw.setOutput_helds (h : Hw) (n : Nat) (c : Output) : (h.setOutput n c).helds = h.helds := rfl
@[simp] theorem Hw.setOutput_snaps (h : Hw) (n : Nat) (c : Output) : (h.setOutput n c).snaps = h.snaps := rfl
@[simp] theorem Hw.setOutput_mem (h : Hw) (n : Nat) (c : Output) : (h.setOutput n c).mem = h.mem := rfl
@[simp] theorem Hw.setOutput_atu (h : Hw) (n : Nat) (c : Output) : (h.setOutput n c).atu = h.atu := rfl
@[simp] theorem Hw.setOutput_fnRings (h : Hw) (n : Nat) (c : Output) : (h.setOutput n c).fnRings = h.fnRings := rfl
@[simp] theorem Hw.setOutput_ctxRings (h : Hw) (n : Nat) (c : Output) : (h.setOutput n c).ctxRings = h.ctxRings := rfl
@[simp] theorem Hw.setOutput_rotor (h : Hw) (n : Nat) (c : Output) : (h.setOutput n c).rotor = h.rotor := rfl
@[simp] theorem Hw.setOutput_ctxs (h : Hw) (n : Nat) (c : Output) : (h.setOutput n c).ctxs = h.ctxs := rfl
@[simp] theorem Hw.setOutput_images (h : Hw) (n : Nat) (c : Output) : (h.setOutput n c).images = h.images := rfl
@[simp] theorem Hw.setOutput_nextImage (h : Hw) (n : Nat) (c : Output) : (h.setOutput n c).nextImage = h.nextImage := rfl
@[simp] theorem Hw.setOutput_frm (h : Hw) (n : Nat) (c : Output) : (h.setOutput n c).frm = h.frm := rfl
@[simp] theorem Hw.setOutput_col (h : Hw) (n : Nat) (c : Output) : (h.setOutput n c).col = h.col := rfl
@[simp] theorem Hw.setOutput_counters (h : Hw) (n : Nat) (c : Output) : (h.setOutput n c).counters = h.counters := rfl
@[simp] theorem Hw.setOutput_channels (h : Hw) (n : Nat) (c : Output) : (h.setOutput n c).channels = h.channels := rfl
@[simp] theorem Hw.setOutput_cores (h : Hw) (n : Nat) (c : Output) : (h.setOutput n c).cores = h.cores := rfl
@[simp] theorem Hw.setOutput_arrays (h : Hw) (n : Nat) (c : Output) : (h.setOutput n c).arrays = h.arrays := rfl
@[simp] theorem Hw.setOutput_wpool (h : Hw) (n : Nat) (c : Output) : (h.setOutput n c).wpool = h.wpool := rfl
@[simp] theorem Hw.setOutput_wspent (h : Hw) (n : Nat) (c : Output) : (h.setOutput n c).wspent = h.wspent := rfl
@[simp] theorem Hw.setOutput_degraded (h : Hw) (n : Nat) (c : Output) : (h.setOutput n c).degraded = h.degraded := rfl
@[simp] theorem Hw.setOutput_fitDiff (h : Hw) (n : Nat) (c : Output) : (h.setOutput n c).fitDiff = h.fitDiff := rfl
@[simp] theorem Hw.setOutput_pairEnds (h : Hw) (n : Nat) (c : Output) : (h.setOutput n c).pairEnds = h.pairEnds := rfl
@[simp] theorem Hw.setOutput_win (h : Hw) (n : Nat) (c : Output) : (h.setOutput n c).win = h.win := rfl
@[simp] theorem Hw.setOutput_dma (h : Hw) (n : Nat) (c : Output) : (h.setOutput n c).dma = h.dma := rfl
@[simp] theorem Hw.setOutput_cpc (h : Hw) (n : Nat) (c : Output) : (h.setOutput n c).cpc = h.cpc := rfl
@[simp] theorem Hw.setOutput_cxp (h : Hw) (n : Nat) (c : Output) : (h.setOutput n c).cxp = h.cxp := rfl
@[simp] theorem Hw.setOutput_web_enc (h : Hw) (n : Nat) (c : Output) : (h.setOutput n c).web.enc = h.web.enc := rfl
@[simp] theorem Hw.setOutput_web_counting (h : Hw) (n : Nat) (c : Output) : (h.setOutput n c).web.counting = h.web.counting := rfl
@[simp] theorem Hw.setOutput_web_raw (h : Hw) (n : Nat) (c : Output) : (h.setOutput n c).web.raw = h.web.raw := rfl
@[simp] theorem Hw.setOutput_web_filtered (h : Hw) (n : Nat) (c : Output) : (h.setOutput n c).web.filtered = h.web.filtered := rfl
@[simp] theorem Hw.setOutput_web_posts (h : Hw) (n : Nat) (c : Output) : (h.setOutput n c).web.posts = h.web.posts := rfl
@[simp] theorem Hw.setOutput_web_results (h : Hw) (n : Nat) (c : Output) : (h.setOutput n c).web.results = h.web.results := rfl
@[simp] theorem Hw.setOutput_web_owed (h : Hw) (n : Nat) (c : Output) : (h.setOutput n c).web.owed = h.web.owed := rfl
@[simp] theorem Hw.setOutput_web_last (h : Hw) (n : Nat) (c : Output) : (h.setOutput n c).web.last = h.web.last := rfl
@[simp] theorem Hw.setOutput_web_verdicts (h : Hw) (n : Nat) (c : Output) : (h.setOutput n c).web.verdicts = h.web.verdicts := rfl
@[simp] theorem Hw.setOutput_web_capture (h : Hw) (n : Nat) (c : Output) : (h.setOutput n c).web.capture = h.web.capture := rfl
@[simp] theorem Hw.setOutput_eth (h : Hw) (n : Nat) (c : Output) : (h.setOutput n c).eth = h.eth := rfl
@[simp] theorem Hw.setOutput_ptp (h : Hw) (n : Nat) (c : Output) : (h.setOutput n c).ptp = h.ptp := rfl
@[simp] theorem Hw.setOutput_wml (h : Hw) (n : Nat) (c : Output) : (h.setOutput n c).wml = h.wml := rfl
@[simp] theorem Hw.setOutput_pci (h : Hw) (n : Nat) (c : Output) : (h.setOutput n c).pci = h.pci := rfl

/-! ### `setEthPort` -/

@[simp] theorem Hw.setEthPort_ethPort_same (h : Hw) (n : Nat) (c : EthPort) : (h.setEthPort n c).ethPort n = c :=
  Tbl.get_set_same _ _ _ _

theorem Hw.setEthPort_ethPort (h : Hw) (n m : Nat) (c : EthPort) :
    (h.setEthPort n c).ethPort m = if m = n then c else h.ethPort m :=
  Tbl.get_set _ _ _ _ _

@[simp] theorem Hw.setEthPort_now (h : Hw) (n : Nat) (c : EthPort) : (h.setEthPort n c).now = h.now := rfl
@[simp] theorem Hw.setEthPort_sys (h : Hw) (n : Nat) (c : EthPort) : (h.setEthPort n c).sys = h.sys := rfl
@[simp] theorem Hw.setEthPort_regs (h : Hw) (n : Nat) (c : EthPort) : (h.setEthPort n c).regs = h.regs := rfl
@[simp] theorem Hw.setEthPort_act (h : Hw) (n : Nat) (c : EthPort) : (h.setEthPort n c).act = h.act := rfl
@[simp] theorem Hw.setEthPort_helds (h : Hw) (n : Nat) (c : EthPort) : (h.setEthPort n c).helds = h.helds := rfl
@[simp] theorem Hw.setEthPort_snaps (h : Hw) (n : Nat) (c : EthPort) : (h.setEthPort n c).snaps = h.snaps := rfl
@[simp] theorem Hw.setEthPort_mem (h : Hw) (n : Nat) (c : EthPort) : (h.setEthPort n c).mem = h.mem := rfl
@[simp] theorem Hw.setEthPort_atu (h : Hw) (n : Nat) (c : EthPort) : (h.setEthPort n c).atu = h.atu := rfl
@[simp] theorem Hw.setEthPort_fnRings (h : Hw) (n : Nat) (c : EthPort) : (h.setEthPort n c).fnRings = h.fnRings := rfl
@[simp] theorem Hw.setEthPort_ctxRings (h : Hw) (n : Nat) (c : EthPort) : (h.setEthPort n c).ctxRings = h.ctxRings := rfl
@[simp] theorem Hw.setEthPort_rotor (h : Hw) (n : Nat) (c : EthPort) : (h.setEthPort n c).rotor = h.rotor := rfl
@[simp] theorem Hw.setEthPort_ctxs (h : Hw) (n : Nat) (c : EthPort) : (h.setEthPort n c).ctxs = h.ctxs := rfl
@[simp] theorem Hw.setEthPort_images (h : Hw) (n : Nat) (c : EthPort) : (h.setEthPort n c).images = h.images := rfl
@[simp] theorem Hw.setEthPort_nextImage (h : Hw) (n : Nat) (c : EthPort) : (h.setEthPort n c).nextImage = h.nextImage := rfl
@[simp] theorem Hw.setEthPort_frm (h : Hw) (n : Nat) (c : EthPort) : (h.setEthPort n c).frm = h.frm := rfl
@[simp] theorem Hw.setEthPort_col (h : Hw) (n : Nat) (c : EthPort) : (h.setEthPort n c).col = h.col := rfl
@[simp] theorem Hw.setEthPort_counters (h : Hw) (n : Nat) (c : EthPort) : (h.setEthPort n c).counters = h.counters := rfl
@[simp] theorem Hw.setEthPort_channels (h : Hw) (n : Nat) (c : EthPort) : (h.setEthPort n c).channels = h.channels := rfl
@[simp] theorem Hw.setEthPort_cores (h : Hw) (n : Nat) (c : EthPort) : (h.setEthPort n c).cores = h.cores := rfl
@[simp] theorem Hw.setEthPort_arrays (h : Hw) (n : Nat) (c : EthPort) : (h.setEthPort n c).arrays = h.arrays := rfl
@[simp] theorem Hw.setEthPort_wpool (h : Hw) (n : Nat) (c : EthPort) : (h.setEthPort n c).wpool = h.wpool := rfl
@[simp] theorem Hw.setEthPort_wspent (h : Hw) (n : Nat) (c : EthPort) : (h.setEthPort n c).wspent = h.wspent := rfl
@[simp] theorem Hw.setEthPort_degraded (h : Hw) (n : Nat) (c : EthPort) : (h.setEthPort n c).degraded = h.degraded := rfl
@[simp] theorem Hw.setEthPort_fitDiff (h : Hw) (n : Nat) (c : EthPort) : (h.setEthPort n c).fitDiff = h.fitDiff := rfl
@[simp] theorem Hw.setEthPort_pairEnds (h : Hw) (n : Nat) (c : EthPort) : (h.setEthPort n c).pairEnds = h.pairEnds := rfl
@[simp] theorem Hw.setEthPort_win (h : Hw) (n : Nat) (c : EthPort) : (h.setEthPort n c).win = h.win := rfl
@[simp] theorem Hw.setEthPort_dma (h : Hw) (n : Nat) (c : EthPort) : (h.setEthPort n c).dma = h.dma := rfl
@[simp] theorem Hw.setEthPort_cpc (h : Hw) (n : Nat) (c : EthPort) : (h.setEthPort n c).cpc = h.cpc := rfl
@[simp] theorem Hw.setEthPort_cxp (h : Hw) (n : Nat) (c : EthPort) : (h.setEthPort n c).cxp = h.cxp := rfl
@[simp] theorem Hw.setEthPort_web (h : Hw) (n : Nat) (c : EthPort) : (h.setEthPort n c).web = h.web := rfl
@[simp] theorem Hw.setEthPort_ptp (h : Hw) (n : Nat) (c : EthPort) : (h.setEthPort n c).ptp = h.ptp := rfl
@[simp] theorem Hw.setEthPort_wml (h : Hw) (n : Nat) (c : EthPort) : (h.setEthPort n c).wml = h.wml := rfl
@[simp] theorem Hw.setEthPort_pci (h : Hw) (n : Nat) (c : EthPort) : (h.setEthPort n c).pci = h.pci := rfl

/-! ### `setLink` -/

@[simp] theorem Hw.setLink_link_same (h : Hw) (n : Nat) (c : Link) : (h.setLink n c).link n = c :=
  Tbl.get_set_same _ _ _ _

theorem Hw.setLink_link (h : Hw) (n m : Nat) (c : Link) :
    (h.setLink n c).link m = if m = n then c else h.link m :=
  Tbl.get_set _ _ _ _ _

@[simp] theorem Hw.setLink_now (h : Hw) (n : Nat) (c : Link) : (h.setLink n c).now = h.now := rfl
@[simp] theorem Hw.setLink_sys (h : Hw) (n : Nat) (c : Link) : (h.setLink n c).sys = h.sys := rfl
@[simp] theorem Hw.setLink_regs (h : Hw) (n : Nat) (c : Link) : (h.setLink n c).regs = h.regs := rfl
@[simp] theorem Hw.setLink_act (h : Hw) (n : Nat) (c : Link) : (h.setLink n c).act = h.act := rfl
@[simp] theorem Hw.setLink_helds (h : Hw) (n : Nat) (c : Link) : (h.setLink n c).helds = h.helds := rfl
@[simp] theorem Hw.setLink_snaps (h : Hw) (n : Nat) (c : Link) : (h.setLink n c).snaps = h.snaps := rfl
@[simp] theorem Hw.setLink_mem (h : Hw) (n : Nat) (c : Link) : (h.setLink n c).mem = h.mem := rfl
@[simp] theorem Hw.setLink_atu (h : Hw) (n : Nat) (c : Link) : (h.setLink n c).atu = h.atu := rfl
@[simp] theorem Hw.setLink_fnRings (h : Hw) (n : Nat) (c : Link) : (h.setLink n c).fnRings = h.fnRings := rfl
@[simp] theorem Hw.setLink_ctxRings (h : Hw) (n : Nat) (c : Link) : (h.setLink n c).ctxRings = h.ctxRings := rfl
@[simp] theorem Hw.setLink_rotor (h : Hw) (n : Nat) (c : Link) : (h.setLink n c).rotor = h.rotor := rfl
@[simp] theorem Hw.setLink_ctxs (h : Hw) (n : Nat) (c : Link) : (h.setLink n c).ctxs = h.ctxs := rfl
@[simp] theorem Hw.setLink_images (h : Hw) (n : Nat) (c : Link) : (h.setLink n c).images = h.images := rfl
@[simp] theorem Hw.setLink_nextImage (h : Hw) (n : Nat) (c : Link) : (h.setLink n c).nextImage = h.nextImage := rfl
@[simp] theorem Hw.setLink_frm (h : Hw) (n : Nat) (c : Link) : (h.setLink n c).frm = h.frm := rfl
@[simp] theorem Hw.setLink_col (h : Hw) (n : Nat) (c : Link) : (h.setLink n c).col = h.col := rfl
@[simp] theorem Hw.setLink_counters (h : Hw) (n : Nat) (c : Link) : (h.setLink n c).counters = h.counters := rfl
@[simp] theorem Hw.setLink_channels (h : Hw) (n : Nat) (c : Link) : (h.setLink n c).channels = h.channels := rfl
@[simp] theorem Hw.setLink_cores (h : Hw) (n : Nat) (c : Link) : (h.setLink n c).cores = h.cores := rfl
@[simp] theorem Hw.setLink_arrays (h : Hw) (n : Nat) (c : Link) : (h.setLink n c).arrays = h.arrays := rfl
@[simp] theorem Hw.setLink_wpool (h : Hw) (n : Nat) (c : Link) : (h.setLink n c).wpool = h.wpool := rfl
@[simp] theorem Hw.setLink_wspent (h : Hw) (n : Nat) (c : Link) : (h.setLink n c).wspent = h.wspent := rfl
@[simp] theorem Hw.setLink_degraded (h : Hw) (n : Nat) (c : Link) : (h.setLink n c).degraded = h.degraded := rfl
@[simp] theorem Hw.setLink_fitDiff (h : Hw) (n : Nat) (c : Link) : (h.setLink n c).fitDiff = h.fitDiff := rfl
@[simp] theorem Hw.setLink_pairEnds (h : Hw) (n : Nat) (c : Link) : (h.setLink n c).pairEnds = h.pairEnds := rfl
@[simp] theorem Hw.setLink_win (h : Hw) (n : Nat) (c : Link) : (h.setLink n c).win = h.win := rfl
@[simp] theorem Hw.setLink_dma (h : Hw) (n : Nat) (c : Link) : (h.setLink n c).dma = h.dma := rfl
@[simp] theorem Hw.setLink_cpc (h : Hw) (n : Nat) (c : Link) : (h.setLink n c).cpc = h.cpc := rfl
@[simp] theorem Hw.setLink_cxp (h : Hw) (n : Nat) (c : Link) : (h.setLink n c).cxp = h.cxp := rfl
@[simp] theorem Hw.setLink_web (h : Hw) (n : Nat) (c : Link) : (h.setLink n c).web = h.web := rfl
@[simp] theorem Hw.setLink_eth (h : Hw) (n : Nat) (c : Link) : (h.setLink n c).eth = h.eth := rfl
@[simp] theorem Hw.setLink_ptp (h : Hw) (n : Nat) (c : Link) : (h.setLink n c).ptp = h.ptp := rfl
@[simp] theorem Hw.setLink_wml_joined (h : Hw) (n : Nat) (c : Link) : (h.setLink n c).wml.joined = h.wml.joined := rfl
@[simp] theorem Hw.setLink_wml_id (h : Hw) (n : Nat) (c : Link) : (h.setLink n c).wml.id = h.wml.id := rfl
@[simp] theorem Hw.setLink_wml_digest (h : Hw) (n : Nat) (c : Link) : (h.setLink n c).wml.digest = h.wml.digest := rfl
@[simp] theorem Hw.setLink_wml_leader (h : Hw) (n : Nat) (c : Link) : (h.setLink n c).wml.leader = h.wml.leader := rfl
@[simp] theorem Hw.setLink_wml_isLeader (h : Hw) (n : Nat) (c : Link) : (h.setLink n c).wml.isLeader = h.wml.isLeader := rfl
@[simp] theorem Hw.setLink_wml_members (h : Hw) (n : Nat) (c : Link) : (h.setLink n c).wml.members = h.wml.members := rfl
@[simp] theorem Hw.setLink_wml_plats (h : Hw) (n : Nat) (c : Link) : (h.setLink n c).wml.plats = h.wml.plats := rfl
@[simp] theorem Hw.setLink_wml_major (h : Hw) (n : Nat) (c : Link) : (h.setLink n c).wml.major = h.wml.major := rfl
@[simp] theorem Hw.setLink_wml_minor (h : Hw) (n : Nat) (c : Link) : (h.setLink n c).wml.minor = h.wml.minor := rfl
@[simp] theorem Hw.setLink_wml_depth (h : Hw) (n : Nat) (c : Link) : (h.setLink n c).wml.depth = h.wml.depth := rfl
@[simp] theorem Hw.setLink_wml_plat (h : Hw) (n : Nat) (c : Link) : (h.setLink n c).wml.plat = h.wml.plat := rfl
@[simp] theorem Hw.setLink_wml_parent (h : Hw) (n : Nat) (c : Link) : (h.setLink n c).wml.parent = h.wml.parent := rfl
@[simp] theorem Hw.setLink_wml_dlat (h : Hw) (n : Nat) (c : Link) : (h.setLink n c).wml.dlat = h.wml.dlat := rfl
@[simp] theorem Hw.setLink_wml_dlatNext (h : Hw) (n : Nat) (c : Link) : (h.setLink n c).wml.dlatNext = h.wml.dlatNext := rfl
@[simp] theorem Hw.setLink_wml_ltime (h : Hw) (n : Nat) (c : Link) : (h.setLink n c).wml.ltime = h.wml.ltime := rfl
@[simp] theorem Hw.setLink_wml_ticks (h : Hw) (n : Nat) (c : Link) : (h.setLink n c).wml.ticks = h.wml.ticks := rfl
@[simp] theorem Hw.setLink_wml_lastFire (h : Hw) (n : Nat) (c : Link) : (h.setLink n c).wml.lastFire = h.wml.lastFire := rfl
@[simp] theorem Hw.setLink_wml_unsync (h : Hw) (n : Nat) (c : Link) : (h.setLink n c).wml.unsync = h.wml.unsync := rfl
@[simp] theorem Hw.setLink_wml_unsyncHist (h : Hw) (n : Nat) (c : Link) : (h.setLink n c).wml.unsyncHist = h.wml.unsyncHist := rfl
@[simp] theorem Hw.setLink_wml_catchup (h : Hw) (n : Nat) (c : Link) : (h.setLink n c).wml.catchup = h.wml.catchup := rfl
@[simp] theorem Hw.setLink_wml_holding (h : Hw) (n : Nat) (c : Link) : (h.setLink n c).wml.holding = h.wml.holding := rfl
@[simp] theorem Hw.setLink_wml_commit (h : Hw) (n : Nat) (c : Link) : (h.setLink n c).wml.commit = h.wml.commit := rfl
@[simp] theorem Hw.setLink_wml_abort (h : Hw) (n : Nat) (c : Link) : (h.setLink n c).wml.abort = h.wml.abort := rfl
@[simp] theorem Hw.setLink_wml_realign (h : Hw) (n : Nat) (c : Link) : (h.setLink n c).wml.realign = h.wml.realign := rfl
@[simp] theorem Hw.setLink_wml_matched (h : Hw) (n : Nat) (c : Link) : (h.setLink n c).wml.matched = h.wml.matched := rfl
@[simp] theorem Hw.setLink_wml_sourceEvent (h : Hw) (n : Nat) (c : Link) : (h.setLink n c).wml.sourceEvent = h.wml.sourceEvent := rfl
@[simp] theorem Hw.setLink_wml_heardAt (h : Hw) (n : Nat) (c : Link) : (h.setLink n c).wml.heardAt = h.wml.heardAt := rfl
@[simp] theorem Hw.setLink_wml_beaconAt (h : Hw) (n : Nat) (c : Link) : (h.setLink n c).wml.beaconAt = h.wml.beaconAt := rfl
@[simp] theorem Hw.setLink_wml_beaconFrames (h : Hw) (n : Nat) (c : Link) : (h.setLink n c).wml.beaconFrames = h.wml.beaconFrames := rfl
@[simp] theorem Hw.setLink_wml_sentBeacon (h : Hw) (n : Nat) (c : Link) : (h.setLink n c).wml.sentBeacon = h.wml.sentBeacon := rfl
@[simp] theorem Hw.setLink_wml_down (h : Hw) (n : Nat) (c : Link) : (h.setLink n c).wml.down = h.wml.down := rfl
@[simp] theorem Hw.setLink_wml_swap (h : Hw) (n : Nat) (c : Link) : (h.setLink n c).wml.swap = h.wml.swap := rfl
@[simp] theorem Hw.setLink_wml_latch (h : Hw) (n : Nat) (c : Link) : (h.setLink n c).wml.latch = h.wml.latch := rfl
@[simp] theorem Hw.setLink_wml_lastSwap (h : Hw) (n : Nat) (c : Link) : (h.setLink n c).wml.lastSwap = h.wml.lastSwap := rfl
@[simp] theorem Hw.setLink_wml_activeSlots (h : Hw) (n : Nat) (c : Link) : (h.setLink n c).wml.activeSlots = h.wml.activeSlots := rfl
@[simp] theorem Hw.setLink_wml_joining (h : Hw) (n : Nat) (c : Link) : (h.setLink n c).wml.joining = h.wml.joining := rfl
@[simp] theorem Hw.setLink_wml_leaving (h : Hw) (n : Nat) (c : Link) : (h.setLink n c).wml.leaving = h.wml.leaving := rfl
@[simp] theorem Hw.setLink_wml_relays (h : Hw) (n : Nat) (c : Link) : (h.setLink n c).wml.relays = h.wml.relays := rfl
@[simp] theorem Hw.setLink_wml_held (h : Hw) (n : Nat) (c : Link) : (h.setLink n c).wml.held = h.wml.held := rfl
@[simp] theorem Hw.setLink_wml_outs (h : Hw) (n : Nat) (c : Link) : (h.setLink n c).wml.outs = h.wml.outs := rfl
@[simp] theorem Hw.setLink_wml_nextWait (h : Hw) (n : Nat) (c : Link) : (h.setLink n c).wml.nextWait = h.wml.nextWait := rfl
@[simp] theorem Hw.setLink_pci (h : Hw) (n : Nat) (c : Link) : (h.setLink n c).pci = h.pci := rfl

/-! ### `setUnitRec` -/

@[simp] theorem Hw.setUnitRec_unitRec_same (h : Hw) (n : Nat) (c : UnitRec) : (h.setUnitRec n c).unitRec n = c :=
  Tbl.get_set_same _ _ _ _

theorem Hw.setUnitRec_unitRec (h : Hw) (n m : Nat) (c : UnitRec) :
    (h.setUnitRec n c).unitRec m = if m = n then c else h.unitRec m :=
  Tbl.get_set _ _ _ _ _

@[simp] theorem Hw.setUnitRec_now (h : Hw) (n : Nat) (c : UnitRec) : (h.setUnitRec n c).now = h.now := rfl
@[simp] theorem Hw.setUnitRec_sys (h : Hw) (n : Nat) (c : UnitRec) : (h.setUnitRec n c).sys = h.sys := rfl
@[simp] theorem Hw.setUnitRec_regs (h : Hw) (n : Nat) (c : UnitRec) : (h.setUnitRec n c).regs = h.regs := rfl
@[simp] theorem Hw.setUnitRec_act (h : Hw) (n : Nat) (c : UnitRec) : (h.setUnitRec n c).act = h.act := rfl
@[simp] theorem Hw.setUnitRec_helds (h : Hw) (n : Nat) (c : UnitRec) : (h.setUnitRec n c).helds = h.helds := rfl
@[simp] theorem Hw.setUnitRec_snaps (h : Hw) (n : Nat) (c : UnitRec) : (h.setUnitRec n c).snaps = h.snaps := rfl
@[simp] theorem Hw.setUnitRec_mem (h : Hw) (n : Nat) (c : UnitRec) : (h.setUnitRec n c).mem = h.mem := rfl
@[simp] theorem Hw.setUnitRec_atu (h : Hw) (n : Nat) (c : UnitRec) : (h.setUnitRec n c).atu = h.atu := rfl
@[simp] theorem Hw.setUnitRec_fnRings (h : Hw) (n : Nat) (c : UnitRec) : (h.setUnitRec n c).fnRings = h.fnRings := rfl
@[simp] theorem Hw.setUnitRec_ctxRings (h : Hw) (n : Nat) (c : UnitRec) : (h.setUnitRec n c).ctxRings = h.ctxRings := rfl
@[simp] theorem Hw.setUnitRec_rotor (h : Hw) (n : Nat) (c : UnitRec) : (h.setUnitRec n c).rotor = h.rotor := rfl
@[simp] theorem Hw.setUnitRec_ctxs (h : Hw) (n : Nat) (c : UnitRec) : (h.setUnitRec n c).ctxs = h.ctxs := rfl
@[simp] theorem Hw.setUnitRec_images (h : Hw) (n : Nat) (c : UnitRec) : (h.setUnitRec n c).images = h.images := rfl
@[simp] theorem Hw.setUnitRec_nextImage (h : Hw) (n : Nat) (c : UnitRec) : (h.setUnitRec n c).nextImage = h.nextImage := rfl
@[simp] theorem Hw.setUnitRec_frm (h : Hw) (n : Nat) (c : UnitRec) : (h.setUnitRec n c).frm = h.frm := rfl
@[simp] theorem Hw.setUnitRec_col (h : Hw) (n : Nat) (c : UnitRec) : (h.setUnitRec n c).col = h.col := rfl
@[simp] theorem Hw.setUnitRec_counters (h : Hw) (n : Nat) (c : UnitRec) : (h.setUnitRec n c).counters = h.counters := rfl
@[simp] theorem Hw.setUnitRec_channels (h : Hw) (n : Nat) (c : UnitRec) : (h.setUnitRec n c).channels = h.channels := rfl
@[simp] theorem Hw.setUnitRec_cores (h : Hw) (n : Nat) (c : UnitRec) : (h.setUnitRec n c).cores = h.cores := rfl
@[simp] theorem Hw.setUnitRec_arrays (h : Hw) (n : Nat) (c : UnitRec) : (h.setUnitRec n c).arrays = h.arrays := rfl
@[simp] theorem Hw.setUnitRec_wpool (h : Hw) (n : Nat) (c : UnitRec) : (h.setUnitRec n c).wpool = h.wpool := rfl
@[simp] theorem Hw.setUnitRec_wspent (h : Hw) (n : Nat) (c : UnitRec) : (h.setUnitRec n c).wspent = h.wspent := rfl
@[simp] theorem Hw.setUnitRec_degraded (h : Hw) (n : Nat) (c : UnitRec) : (h.setUnitRec n c).degraded = h.degraded := rfl
@[simp] theorem Hw.setUnitRec_fitDiff (h : Hw) (n : Nat) (c : UnitRec) : (h.setUnitRec n c).fitDiff = h.fitDiff := rfl
@[simp] theorem Hw.setUnitRec_pairEnds (h : Hw) (n : Nat) (c : UnitRec) : (h.setUnitRec n c).pairEnds = h.pairEnds := rfl
@[simp] theorem Hw.setUnitRec_win (h : Hw) (n : Nat) (c : UnitRec) : (h.setUnitRec n c).win = h.win := rfl
@[simp] theorem Hw.setUnitRec_dma (h : Hw) (n : Nat) (c : UnitRec) : (h.setUnitRec n c).dma = h.dma := rfl
@[simp] theorem Hw.setUnitRec_cpc_suspects (h : Hw) (n : Nat) (c : UnitRec) : (h.setUnitRec n c).cpc.suspects = h.cpc.suspects := rfl
@[simp] theorem Hw.setUnitRec_cpc_factory (h : Hw) (n : Nat) (c : UnitRec) : (h.setUnitRec n c).cpc.factory = h.cpc.factory := rfl
@[simp] theorem Hw.setUnitRec_cpc_field (h : Hw) (n : Nat) (c : UnitRec) : (h.setUnitRec n c).cpc.field = h.cpc.field := rfl
@[simp] theorem Hw.setUnitRec_cpc_unstored (h : Hw) (n : Nat) (c : UnitRec) : (h.setUnitRec n c).cpc.unstored = h.cpc.unstored := rfl
@[simp] theorem Hw.setUnitRec_cpc_pending (h : Hw) (n : Nat) (c : UnitRec) : (h.setUnitRec n c).cpc.pending = h.cpc.pending := rfl
@[simp] theorem Hw.setUnitRec_cpc_columns (h : Hw) (n : Nat) (c : UnitRec) : (h.setUnitRec n c).cpc.columns = h.cpc.columns := rfl
@[simp] theorem Hw.setUnitRec_cpc_lanes (h : Hw) (n : Nat) (c : UnitRec) : (h.setUnitRec n c).cpc.lanes = h.cpc.lanes := rfl
@[simp] theorem Hw.setUnitRec_cpc_banks (h : Hw) (n : Nat) (c : UnitRec) : (h.setUnitRec n c).cpc.banks = h.cpc.banks := rfl
@[simp] theorem Hw.setUnitRec_cpc_inService (h : Hw) (n : Nat) (c : UnitRec) : (h.setUnitRec n c).cpc.inService = h.cpc.inService := rfl
@[simp] theorem Hw.setUnitRec_cpc_spareCores (h : Hw) (n : Nat) (c : UnitRec) : (h.setUnitRec n c).cpc.spareCores = h.cpc.spareCores := rfl
@[simp] theorem Hw.setUnitRec_cpc_retired (h : Hw) (n : Nat) (c : UnitRec) : (h.setUnitRec n c).cpc.retired = h.cpc.retired := rfl
@[simp] theorem Hw.setUnitRec_cpc_arrays (h : Hw) (n : Nat) (c : UnitRec) : (h.setUnitRec n c).cpc.arrays = h.cpc.arrays := rfl
@[simp] theorem Hw.setUnitRec_cpc_copy (h : Hw) (n : Nat) (c : UnitRec) : (h.setUnitRec n c).cpc.copy = h.cpc.copy := rfl
@[simp] theorem Hw.setUnitRec_cpc_retiredBanks (h : Hw) (n : Nat) (c : UnitRec) : (h.setUnitRec n c).cpc.retiredBanks = h.cpc.retiredBanks := rfl
@[simp] theorem Hw.setUnitRec_cpc_spareRows (h : Hw) (n : Nat) (c : UnitRec) : (h.setUnitRec n c).cpc.spareRows = h.cpc.spareRows := rfl
@[simp] theorem Hw.setUnitRec_cpc_badBanks (h : Hw) (n : Nat) (c : UnitRec) : (h.setUnitRec n c).cpc.badBanks = h.cpc.badBanks := rfl
@[simp] theorem Hw.setUnitRec_cpc_hbmUsed (h : Hw) (n : Nat) (c : UnitRec) : (h.setUnitRec n c).cpc.hbmUsed = h.cpc.hbmUsed := rfl
@[simp] theorem Hw.setUnitRec_cpc_rowMap (h : Hw) (n : Nat) (c : UnitRec) : (h.setUnitRec n c).cpc.rowMap = h.cpc.rowMap := rfl
@[simp] theorem Hw.setUnitRec_cpc_hbmRepairs (h : Hw) (n : Nat) (c : UnitRec) : (h.setUnitRec n c).cpc.hbmRepairs = h.cpc.hbmRepairs := rfl
@[simp] theorem Hw.setUnitRec_cpc_remaps (h : Hw) (n : Nat) (c : UnitRec) : (h.setUnitRec n c).cpc.remaps = h.cpc.remaps := rfl
@[simp] theorem Hw.setUnitRec_cpc_usedColumns (h : Hw) (n : Nat) (c : UnitRec) : (h.setUnitRec n c).cpc.usedColumns = h.cpc.usedColumns := rfl
@[simp] theorem Hw.setUnitRec_cpc_usedLanes (h : Hw) (n : Nat) (c : UnitRec) : (h.setUnitRec n c).cpc.usedLanes = h.cpc.usedLanes := rfl
@[simp] theorem Hw.setUnitRec_cpc_usedCores (h : Hw) (n : Nat) (c : UnitRec) : (h.setUnitRec n c).cpc.usedCores = h.cpc.usedCores := rfl
@[simp] theorem Hw.setUnitRec_cpc_usedBanks (h : Hw) (n : Nat) (c : UnitRec) : (h.setUnitRec n c).cpc.usedBanks = h.cpc.usedBanks := rfl
@[simp] theorem Hw.setUnitRec_cpc_autoRemap (h : Hw) (n : Nat) (c : UnitRec) : (h.setUnitRec n c).cpc.autoRemap = h.cpc.autoRemap := rfl
@[simp] theorem Hw.setUnitRec_cpc_testShare (h : Hw) (n : Nat) (c : UnitRec) : (h.setUnitRec n c).cpc.testShare = h.cpc.testShare := rfl
@[simp] theorem Hw.setUnitRec_cpc_sweep (h : Hw) (n : Nat) (c : UnitRec) : (h.setUnitRec n c).cpc.sweep = h.cpc.sweep := rfl
@[simp] theorem Hw.setUnitRec_cpc_log (h : Hw) (n : Nat) (c : UnitRec) : (h.setUnitRec n c).cpc.log = h.cpc.log := rfl
@[simp] theorem Hw.setUnitRec_cpc_sysUnits (h : Hw) (n : Nat) (c : UnitRec) : (h.setUnitRec n c).cpc.sysUnits = h.cpc.sysUnits := rfl
@[simp] theorem Hw.setUnitRec_cxp (h : Hw) (n : Nat) (c : UnitRec) : (h.setUnitRec n c).cxp = h.cxp := rfl
@[simp] theorem Hw.setUnitRec_web (h : Hw) (n : Nat) (c : UnitRec) : (h.setUnitRec n c).web = h.web := rfl
@[simp] theorem Hw.setUnitRec_eth (h : Hw) (n : Nat) (c : UnitRec) : (h.setUnitRec n c).eth = h.eth := rfl
@[simp] theorem Hw.setUnitRec_ptp (h : Hw) (n : Nat) (c : UnitRec) : (h.setUnitRec n c).ptp = h.ptp := rfl
@[simp] theorem Hw.setUnitRec_wml (h : Hw) (n : Nat) (c : UnitRec) : (h.setUnitRec n c).wml = h.wml := rfl
@[simp] theorem Hw.setUnitRec_pci (h : Hw) (n : Nat) (c : UnitRec) : (h.setUnitRec n c).pci = h.pci := rfl

/-! ### `setCage` -/

@[simp] theorem Hw.setCage_cage_same (h : Hw) (n : Nat) (c : Cage) : (h.setCage n c).cage n = c :=
  Tbl.get_set_same _ _ _ _

theorem Hw.setCage_cage (h : Hw) (n m : Nat) (c : Cage) :
    (h.setCage n c).cage m = if m = n then c else h.cage m :=
  Tbl.get_set _ _ _ _ _

@[simp] theorem Hw.setCage_now (h : Hw) (n : Nat) (c : Cage) : (h.setCage n c).now = h.now := rfl
@[simp] theorem Hw.setCage_sys_state (h : Hw) (n : Nat) (c : Cage) : (h.setCage n c).sys.state = h.sys.state := rfl
@[simp] theorem Hw.setCage_sys_booting (h : Hw) (n : Nat) (c : Cage) : (h.setCage n c).sys.booting = h.sys.booting := rfl
@[simp] theorem Hw.setCage_sys_recovery (h : Hw) (n : Nat) (c : Cage) : (h.setCage n c).sys.recovery = h.sys.recovery := rfl
@[simp] theorem Hw.setCage_sys_fuseFail (h : Hw) (n : Nat) (c : Cage) : (h.setCage n c).sys.fuseFail = h.sys.fuseFail := rfl
@[simp] theorem Hw.setCage_sys_unpowered (h : Hw) (n : Nat) (c : Cage) : (h.setCage n c).sys.unpowered = h.sys.unpowered := rfl
@[simp] theorem Hw.setCage_sys_attempts (h : Hw) (n : Nat) (c : Cage) : (h.setCage n c).sys.attempts = h.sys.attempts := rfl
@[simp] theorem Hw.setCage_sys_everReady (h : Hw) (n : Nat) (c : Cage) : (h.setCage n c).sys.everReady = h.sys.everReady := rfl
@[simp] theorem Hw.setCage_sys_stewardOn (h : Hw) (n : Nat) (c : Cage) : (h.setCage n c).sys.stewardOn = h.sys.stewardOn := rfl
@[simp] theorem Hw.setCage_sys_armedTrips (h : Hw) (n : Nat) (c : Cage) : (h.setCage n c).sys.armedTrips = h.sys.armedTrips := rfl
@[simp] theorem Hw.setCage_sys_hardArm (h : Hw) (n : Nat) (c : Cage) : (h.setCage n c).sys.hardArm = h.sys.hardArm := rfl
@[simp] theorem Hw.setCage_sys_tripCause (h : Hw) (n : Nat) (c : Cage) : (h.setCage n c).sys.tripCause = h.sys.tripCause := rfl
@[simp] theorem Hw.setCage_sys_acked (h : Hw) (n : Nat) (c : Cage) : (h.setCage n c).sys.acked = h.sys.acked := rfl
@[simp] theorem Hw.setCage_sys_clearSince (h : Hw) (n : Nat) (c : Cage) : (h.setCage n c).sys.clearSince = h.sys.clearSince := rfl
@[simp] theorem Hw.setCage_sys_hotSince (h : Hw) (n : Nat) (c : Cage) : (h.setCage n c).sys.hotSince = h.sys.hotSince := rfl
@[simp] theorem Hw.setCage_sys_supplySince (h : Hw) (n : Nat) (c : Cage) : (h.setCage n c).sys.supplySince = h.sys.supplySince := rfl
@[simp] theorem Hw.setCage_sys_lossSince (h : Hw) (n : Nat) (c : Cage) : (h.setCage n c).sys.lossSince = h.sys.lossSince := rfl
@[simp] theorem Hw.setCage_sys_supply (h : Hw) (n : Nat) (c : Cage) : (h.setCage n c).sys.supply = h.sys.supply := rfl
@[simp] theorem Hw.setCage_sys_rstCause (h : Hw) (n : Nat) (c : Cage) : (h.setCage n c).sys.rstCause = h.sys.rstCause := rfl
@[simp] theorem Hw.setCage_sys_hardResets (h : Hw) (n : Nat) (c : Cage) : (h.setCage n c).sys.hardResets = h.sys.hardResets := rfl
@[simp] theorem Hw.setCage_sys_bootSlot (h : Hw) (n : Nat) (c : Cage) : (h.setCage n c).sys.bootSlot = h.sys.bootSlot := rfl
@[simp] theorem Hw.setCage_sys_fallback (h : Hw) (n : Nat) (c : Cage) : (h.setCage n c).sys.fallback = h.sys.fallback := rfl
@[simp] theorem Hw.setCage_sys_bootErr (h : Hw) (n : Nat) (c : Cage) : (h.setCage n c).sys.bootErr = h.sys.bootErr := rfl
@[simp] theorem Hw.setCage_sys_retries (h : Hw) (n : Nat) (c : Cage) : (h.setCage n c).sys.retries = h.sys.retries := rfl
@[simp] theorem Hw.setCage_sys_fwVersion (h : Hw) (n : Nat) (c : Cage) : (h.setCage n c).sys.fwVersion = h.sys.fwVersion := rfl
@[simp] theorem Hw.setCage_sys_slotA (h : Hw) (n : Nat) (c : Cage) : (h.setCage n c).sys.slotA = h.sys.slotA := rfl
@[simp] theorem Hw.setCage_sys_slotB (h : Hw) (n : Nat) (c : Cage) : (h.setCage n c).sys.slotB = h.sys.slotB := rfl
@[simp] theorem Hw.setCage_sys_activeB (h : Hw) (n : Nat) (c : Cage) : (h.setCage n c).sys.activeB = h.sys.activeB := rfl
@[simp] theorem Hw.setCage_sys_rollback (h : Hw) (n : Nat) (c : Cage) : (h.setCage n c).sys.rollback = h.sys.rollback := rfl
@[simp] theorem Hw.setCage_sys_heartbeat (h : Hw) (n : Nat) (c : Cage) : (h.setCage n c).sys.heartbeat = h.sys.heartbeat := rfl
@[simp] theorem Hw.setCage_sys_log (h : Hw) (n : Nat) (c : Cage) : (h.setCage n c).sys.log = h.sys.log := rfl
@[simp] theorem Hw.setCage_sys_rcvLen (h : Hw) (n : Nat) (c : Cage) : (h.setCage n c).sys.rcvLen = h.sys.rcvLen := rfl
@[simp] theorem Hw.setCage_sys_rcvBytes (h : Hw) (n : Nat) (c : Cage) : (h.setCage n c).sys.rcvBytes = h.sys.rcvBytes := rfl
@[simp] theorem Hw.setCage_sys_rcvErr (h : Hw) (n : Nat) (c : Cage) : (h.setCage n c).sys.rcvErr = h.sys.rcvErr := rfl
@[simp] theorem Hw.setCage_sys_ctxSel (h : Hw) (n : Nat) (c : Cage) : (h.setCage n c).sys.ctxSel = h.sys.ctxSel := rfl
@[simp] theorem Hw.setCage_sys_emberLeaving (h : Hw) (n : Nat) (c : Cage) : (h.setCage n c).sys.emberLeaving = h.sys.emberLeaving := rfl
@[simp] theorem Hw.setCage_sys_powerGoodAt (h : Hw) (n : Nat) (c : Cage) : (h.setCage n c).sys.powerGoodAt = h.sys.powerGoodAt := rfl
@[simp] theorem Hw.setCage_regs (h : Hw) (n : Nat) (c : Cage) : (h.setCage n c).regs = h.regs := rfl
@[simp] theorem Hw.setCage_act (h : Hw) (n : Nat) (c : Cage) : (h.setCage n c).act = h.act := rfl
@[simp] theorem Hw.setCage_helds (h : Hw) (n : Nat) (c : Cage) : (h.setCage n c).helds = h.helds := rfl
@[simp] theorem Hw.setCage_snaps (h : Hw) (n : Nat) (c : Cage) : (h.setCage n c).snaps = h.snaps := rfl
@[simp] theorem Hw.setCage_mem (h : Hw) (n : Nat) (c : Cage) : (h.setCage n c).mem = h.mem := rfl
@[simp] theorem Hw.setCage_atu (h : Hw) (n : Nat) (c : Cage) : (h.setCage n c).atu = h.atu := rfl
@[simp] theorem Hw.setCage_fnRings (h : Hw) (n : Nat) (c : Cage) : (h.setCage n c).fnRings = h.fnRings := rfl
@[simp] theorem Hw.setCage_ctxRings (h : Hw) (n : Nat) (c : Cage) : (h.setCage n c).ctxRings = h.ctxRings := rfl
@[simp] theorem Hw.setCage_rotor (h : Hw) (n : Nat) (c : Cage) : (h.setCage n c).rotor = h.rotor := rfl
@[simp] theorem Hw.setCage_ctxs (h : Hw) (n : Nat) (c : Cage) : (h.setCage n c).ctxs = h.ctxs := rfl
@[simp] theorem Hw.setCage_images (h : Hw) (n : Nat) (c : Cage) : (h.setCage n c).images = h.images := rfl
@[simp] theorem Hw.setCage_nextImage (h : Hw) (n : Nat) (c : Cage) : (h.setCage n c).nextImage = h.nextImage := rfl
@[simp] theorem Hw.setCage_frm (h : Hw) (n : Nat) (c : Cage) : (h.setCage n c).frm = h.frm := rfl
@[simp] theorem Hw.setCage_col (h : Hw) (n : Nat) (c : Cage) : (h.setCage n c).col = h.col := rfl
@[simp] theorem Hw.setCage_counters (h : Hw) (n : Nat) (c : Cage) : (h.setCage n c).counters = h.counters := rfl
@[simp] theorem Hw.setCage_channels (h : Hw) (n : Nat) (c : Cage) : (h.setCage n c).channels = h.channels := rfl
@[simp] theorem Hw.setCage_cores (h : Hw) (n : Nat) (c : Cage) : (h.setCage n c).cores = h.cores := rfl
@[simp] theorem Hw.setCage_arrays (h : Hw) (n : Nat) (c : Cage) : (h.setCage n c).arrays = h.arrays := rfl
@[simp] theorem Hw.setCage_wpool (h : Hw) (n : Nat) (c : Cage) : (h.setCage n c).wpool = h.wpool := rfl
@[simp] theorem Hw.setCage_wspent (h : Hw) (n : Nat) (c : Cage) : (h.setCage n c).wspent = h.wspent := rfl
@[simp] theorem Hw.setCage_degraded (h : Hw) (n : Nat) (c : Cage) : (h.setCage n c).degraded = h.degraded := rfl
@[simp] theorem Hw.setCage_fitDiff (h : Hw) (n : Nat) (c : Cage) : (h.setCage n c).fitDiff = h.fitDiff := rfl
@[simp] theorem Hw.setCage_pairEnds (h : Hw) (n : Nat) (c : Cage) : (h.setCage n c).pairEnds = h.pairEnds := rfl
@[simp] theorem Hw.setCage_win (h : Hw) (n : Nat) (c : Cage) : (h.setCage n c).win = h.win := rfl
@[simp] theorem Hw.setCage_dma (h : Hw) (n : Nat) (c : Cage) : (h.setCage n c).dma = h.dma := rfl
@[simp] theorem Hw.setCage_cpc (h : Hw) (n : Nat) (c : Cage) : (h.setCage n c).cpc = h.cpc := rfl
@[simp] theorem Hw.setCage_cxp (h : Hw) (n : Nat) (c : Cage) : (h.setCage n c).cxp = h.cxp := rfl
@[simp] theorem Hw.setCage_web (h : Hw) (n : Nat) (c : Cage) : (h.setCage n c).web = h.web := rfl
@[simp] theorem Hw.setCage_eth (h : Hw) (n : Nat) (c : Cage) : (h.setCage n c).eth = h.eth := rfl
@[simp] theorem Hw.setCage_ptp (h : Hw) (n : Nat) (c : Cage) : (h.setCage n c).ptp = h.ptp := rfl
@[simp] theorem Hw.setCage_wml (h : Hw) (n : Nat) (c : Cage) : (h.setCage n c).wml = h.wml := rfl
@[simp] theorem Hw.setCage_pci (h : Hw) (n : Nat) (c : Cage) : (h.setCage n c).pci = h.pci := rfl

/-! ### `setGran` -/

@[simp] theorem Hw.setGran_gran_same (h : Hw) (n : Nat) (c : Gran) : (h.setGran n c).gran n = c :=
  Tbl.get_set_same _ _ _ _

theorem Hw.setGran_gran (h : Hw) (n m : Nat) (c : Gran) :
    (h.setGran n c).gran m = if m = n then c else h.gran m :=
  Tbl.get_set _ _ _ _ _

@[simp] theorem Hw.setGran_now (h : Hw) (n : Nat) (c : Gran) : (h.setGran n c).now = h.now := rfl
@[simp] theorem Hw.setGran_sys (h : Hw) (n : Nat) (c : Gran) : (h.setGran n c).sys = h.sys := rfl
@[simp] theorem Hw.setGran_regs (h : Hw) (n : Nat) (c : Gran) : (h.setGran n c).regs = h.regs := rfl
@[simp] theorem Hw.setGran_act (h : Hw) (n : Nat) (c : Gran) : (h.setGran n c).act = h.act := rfl
@[simp] theorem Hw.setGran_helds (h : Hw) (n : Nat) (c : Gran) : (h.setGran n c).helds = h.helds := rfl
@[simp] theorem Hw.setGran_snaps (h : Hw) (n : Nat) (c : Gran) : (h.setGran n c).snaps = h.snaps := rfl
@[simp] theorem Hw.setGran_mem_cells (h : Hw) (n : Nat) (c : Gran) : (h.setGran n c).mem.cells = h.mem.cells := rfl
@[simp] theorem Hw.setGran_mem_log (h : Hw) (n : Nat) (c : Gran) : (h.setGran n c).mem.log = h.mem.log := rfl
@[simp] theorem Hw.setGran_mem_rows (h : Hw) (n : Nat) (c : Gran) : (h.setGran n c).mem.rows = h.mem.rows := rfl
@[simp] theorem Hw.setGran_mem_scrubPos (h : Hw) (n : Nat) (c : Gran) : (h.setGran n c).mem.scrubPos = h.mem.scrubPos := rfl
@[simp] theorem Hw.setGran_mem_scrubPass (h : Hw) (n : Nat) (c : Gran) : (h.setGran n c).mem.scrubPass = h.mem.scrubPass := rfl
@[simp] theorem Hw.setGran_atu (h : Hw) (n : Nat) (c : Gran) : (h.setGran n c).atu = h.atu := rfl
@[simp] theorem Hw.setGran_fnRings (h : Hw) (n : Nat) (c : Gran) : (h.setGran n c).fnRings = h.fnRings := rfl
@[simp] theorem Hw.setGran_ctxRings (h : Hw) (n : Nat) (c : Gran) : (h.setGran n c).ctxRings = h.ctxRings := rfl
@[simp] theorem Hw.setGran_rotor (h : Hw) (n : Nat) (c : Gran) : (h.setGran n c).rotor = h.rotor := rfl
@[simp] theorem Hw.setGran_ctxs (h : Hw) (n : Nat) (c : Gran) : (h.setGran n c).ctxs = h.ctxs := rfl
@[simp] theorem Hw.setGran_images (h : Hw) (n : Nat) (c : Gran) : (h.setGran n c).images = h.images := rfl
@[simp] theorem Hw.setGran_nextImage (h : Hw) (n : Nat) (c : Gran) : (h.setGran n c).nextImage = h.nextImage := rfl
@[simp] theorem Hw.setGran_frm (h : Hw) (n : Nat) (c : Gran) : (h.setGran n c).frm = h.frm := rfl
@[simp] theorem Hw.setGran_col (h : Hw) (n : Nat) (c : Gran) : (h.setGran n c).col = h.col := rfl
@[simp] theorem Hw.setGran_counters (h : Hw) (n : Nat) (c : Gran) : (h.setGran n c).counters = h.counters := rfl
@[simp] theorem Hw.setGran_channels (h : Hw) (n : Nat) (c : Gran) : (h.setGran n c).channels = h.channels := rfl
@[simp] theorem Hw.setGran_cores (h : Hw) (n : Nat) (c : Gran) : (h.setGran n c).cores = h.cores := rfl
@[simp] theorem Hw.setGran_arrays (h : Hw) (n : Nat) (c : Gran) : (h.setGran n c).arrays = h.arrays := rfl
@[simp] theorem Hw.setGran_wpool (h : Hw) (n : Nat) (c : Gran) : (h.setGran n c).wpool = h.wpool := rfl
@[simp] theorem Hw.setGran_wspent (h : Hw) (n : Nat) (c : Gran) : (h.setGran n c).wspent = h.wspent := rfl
@[simp] theorem Hw.setGran_degraded (h : Hw) (n : Nat) (c : Gran) : (h.setGran n c).degraded = h.degraded := rfl
@[simp] theorem Hw.setGran_fitDiff (h : Hw) (n : Nat) (c : Gran) : (h.setGran n c).fitDiff = h.fitDiff := rfl
@[simp] theorem Hw.setGran_pairEnds (h : Hw) (n : Nat) (c : Gran) : (h.setGran n c).pairEnds = h.pairEnds := rfl
@[simp] theorem Hw.setGran_win (h : Hw) (n : Nat) (c : Gran) : (h.setGran n c).win = h.win := rfl
@[simp] theorem Hw.setGran_dma (h : Hw) (n : Nat) (c : Gran) : (h.setGran n c).dma = h.dma := rfl
@[simp] theorem Hw.setGran_cpc (h : Hw) (n : Nat) (c : Gran) : (h.setGran n c).cpc = h.cpc := rfl
@[simp] theorem Hw.setGran_cxp (h : Hw) (n : Nat) (c : Gran) : (h.setGran n c).cxp = h.cxp := rfl
@[simp] theorem Hw.setGran_web (h : Hw) (n : Nat) (c : Gran) : (h.setGran n c).web = h.web := rfl
@[simp] theorem Hw.setGran_eth (h : Hw) (n : Nat) (c : Gran) : (h.setGran n c).eth = h.eth := rfl
@[simp] theorem Hw.setGran_ptp (h : Hw) (n : Nat) (c : Gran) : (h.setGran n c).ptp = h.ptp := rfl
@[simp] theorem Hw.setGran_wml (h : Hw) (n : Nat) (c : Gran) : (h.setGran n c).wml = h.wml := rfl
@[simp] theorem Hw.setGran_pci (h : Hw) (n : Nat) (c : Gran) : (h.setGran n c).pci = h.pci := rfl

/-! ### `setReg` -/

@[simp] theorem Hw.setReg_reg_same (h : Hw) (n : Nat) (c : Word) : (h.setReg n c).reg n = c :=
  Tbl.get_set_same _ _ _ _

@[simp] theorem Hw.setReg_now (h : Hw) (n : Nat) (c : Word) : (h.setReg n c).now = h.now := rfl
@[simp] theorem Hw.setReg_sys (h : Hw) (n : Nat) (c : Word) : (h.setReg n c).sys = h.sys := rfl
@[simp] theorem Hw.setReg_act (h : Hw) (n : Nat) (c : Word) : (h.setReg n c).act = h.act := rfl
@[simp] theorem Hw.setReg_helds (h : Hw) (n : Nat) (c : Word) : (h.setReg n c).helds = h.helds := rfl
@[simp] theorem Hw.setReg_snaps (h : Hw) (n : Nat) (c : Word) : (h.setReg n c).snaps = h.snaps := rfl
@[simp] theorem Hw.setReg_mem (h : Hw) (n : Nat) (c : Word) : (h.setReg n c).mem = h.mem := rfl
@[simp] theorem Hw.setReg_atu (h : Hw) (n : Nat) (c : Word) : (h.setReg n c).atu = h.atu := rfl
@[simp] theorem Hw.setReg_fnRings (h : Hw) (n : Nat) (c : Word) : (h.setReg n c).fnRings = h.fnRings := rfl
@[simp] theorem Hw.setReg_ctxRings (h : Hw) (n : Nat) (c : Word) : (h.setReg n c).ctxRings = h.ctxRings := rfl
@[simp] theorem Hw.setReg_rotor (h : Hw) (n : Nat) (c : Word) : (h.setReg n c).rotor = h.rotor := rfl
@[simp] theorem Hw.setReg_ctxs (h : Hw) (n : Nat) (c : Word) : (h.setReg n c).ctxs = h.ctxs := rfl
@[simp] theorem Hw.setReg_images (h : Hw) (n : Nat) (c : Word) : (h.setReg n c).images = h.images := rfl
@[simp] theorem Hw.setReg_nextImage (h : Hw) (n : Nat) (c : Word) : (h.setReg n c).nextImage = h.nextImage := rfl
@[simp] theorem Hw.setReg_frm (h : Hw) (n : Nat) (c : Word) : (h.setReg n c).frm = h.frm := rfl
@[simp] theorem Hw.setReg_col (h : Hw) (n : Nat) (c : Word) : (h.setReg n c).col = h.col := rfl
@[simp] theorem Hw.setReg_counters (h : Hw) (n : Nat) (c : Word) : (h.setReg n c).counters = h.counters := rfl
@[simp] theorem Hw.setReg_channels (h : Hw) (n : Nat) (c : Word) : (h.setReg n c).channels = h.channels := rfl
@[simp] theorem Hw.setReg_cores (h : Hw) (n : Nat) (c : Word) : (h.setReg n c).cores = h.cores := rfl
@[simp] theorem Hw.setReg_arrays (h : Hw) (n : Nat) (c : Word) : (h.setReg n c).arrays = h.arrays := rfl
@[simp] theorem Hw.setReg_wpool (h : Hw) (n : Nat) (c : Word) : (h.setReg n c).wpool = h.wpool := rfl
@[simp] theorem Hw.setReg_wspent (h : Hw) (n : Nat) (c : Word) : (h.setReg n c).wspent = h.wspent := rfl
@[simp] theorem Hw.setReg_degraded (h : Hw) (n : Nat) (c : Word) : (h.setReg n c).degraded = h.degraded := rfl
@[simp] theorem Hw.setReg_fitDiff (h : Hw) (n : Nat) (c : Word) : (h.setReg n c).fitDiff = h.fitDiff := rfl
@[simp] theorem Hw.setReg_pairEnds (h : Hw) (n : Nat) (c : Word) : (h.setReg n c).pairEnds = h.pairEnds := rfl
@[simp] theorem Hw.setReg_win (h : Hw) (n : Nat) (c : Word) : (h.setReg n c).win = h.win := rfl
@[simp] theorem Hw.setReg_dma (h : Hw) (n : Nat) (c : Word) : (h.setReg n c).dma = h.dma := rfl
@[simp] theorem Hw.setReg_cpc (h : Hw) (n : Nat) (c : Word) : (h.setReg n c).cpc = h.cpc := rfl
@[simp] theorem Hw.setReg_cxp (h : Hw) (n : Nat) (c : Word) : (h.setReg n c).cxp = h.cxp := rfl
@[simp] theorem Hw.setReg_web (h : Hw) (n : Nat) (c : Word) : (h.setReg n c).web = h.web := rfl
@[simp] theorem Hw.setReg_eth (h : Hw) (n : Nat) (c : Word) : (h.setReg n c).eth = h.eth := rfl
@[simp] theorem Hw.setReg_ptp (h : Hw) (n : Nat) (c : Word) : (h.setReg n c).ptp = h.ptp := rfl
@[simp] theorem Hw.setReg_wml (h : Hw) (n : Nat) (c : Word) : (h.setReg n c).wml = h.wml := rfl
@[simp] theorem Hw.setReg_pci (h : Hw) (n : Nat) (c : Word) : (h.setReg n c).pci = h.pci := rfl

/-! ### `setRing` -/

@[simp] theorem Hw.setRing_ring_same (h : Hw) (r : RingId) (x : Ring) : (h.setRing r x).ring r = x := by
  cases r <;> simp [Hw.setRing, Hw.ring]

@[simp] theorem Hw.setRing_now (h : Hw) (r : RingId) (x : Ring) : (h.setRing r x).now = h.now := by cases r <;> rfl
@[simp] theorem Hw.setRing_sys (h : Hw) (r : RingId) (x : Ring) : (h.setRing r x).sys = h.sys := by cases r <;> rfl
@[simp] theorem Hw.setRing_regs (h : Hw) (r : RingId) (x : Ring) : (h.setRing r x).regs = h.regs := by cases r <;> rfl
@[simp] theorem Hw.setRing_act (h : Hw) (r : RingId) (x : Ring) : (h.setRing r x).act = h.act := by cases r <;> rfl
@[simp] theorem Hw.setRing_helds (h : Hw) (r : RingId) (x : Ring) : (h.setRing r x).helds = h.helds := by cases r <;> rfl
@[simp] theorem Hw.setRing_snaps (h : Hw) (r : RingId) (x : Ring) : (h.setRing r x).snaps = h.snaps := by cases r <;> rfl
@[simp] theorem Hw.setRing_mem (h : Hw) (r : RingId) (x : Ring) : (h.setRing r x).mem = h.mem := by cases r <;> rfl
@[simp] theorem Hw.setRing_atu (h : Hw) (r : RingId) (x : Ring) : (h.setRing r x).atu = h.atu := by cases r <;> rfl
@[simp] theorem Hw.setRing_rotor (h : Hw) (r : RingId) (x : Ring) : (h.setRing r x).rotor = h.rotor := by cases r <;> rfl
@[simp] theorem Hw.setRing_ctxs (h : Hw) (r : RingId) (x : Ring) : (h.setRing r x).ctxs = h.ctxs := by cases r <;> rfl
@[simp] theorem Hw.setRing_images (h : Hw) (r : RingId) (x : Ring) : (h.setRing r x).images = h.images := by cases r <;> rfl
@[simp] theorem Hw.setRing_nextImage (h : Hw) (r : RingId) (x : Ring) : (h.setRing r x).nextImage = h.nextImage := by cases r <;> rfl
@[simp] theorem Hw.setRing_frm (h : Hw) (r : RingId) (x : Ring) : (h.setRing r x).frm = h.frm := by cases r <;> rfl
@[simp] theorem Hw.setRing_col (h : Hw) (r : RingId) (x : Ring) : (h.setRing r x).col = h.col := by cases r <;> rfl
@[simp] theorem Hw.setRing_counters (h : Hw) (r : RingId) (x : Ring) : (h.setRing r x).counters = h.counters := by cases r <;> rfl
@[simp] theorem Hw.setRing_channels (h : Hw) (r : RingId) (x : Ring) : (h.setRing r x).channels = h.channels := by cases r <;> rfl
@[simp] theorem Hw.setRing_cores (h : Hw) (r : RingId) (x : Ring) : (h.setRing r x).cores = h.cores := by cases r <;> rfl
@[simp] theorem Hw.setRing_arrays (h : Hw) (r : RingId) (x : Ring) : (h.setRing r x).arrays = h.arrays := by cases r <;> rfl
@[simp] theorem Hw.setRing_wpool (h : Hw) (r : RingId) (x : Ring) : (h.setRing r x).wpool = h.wpool := by cases r <;> rfl
@[simp] theorem Hw.setRing_wspent (h : Hw) (r : RingId) (x : Ring) : (h.setRing r x).wspent = h.wspent := by cases r <;> rfl
@[simp] theorem Hw.setRing_degraded (h : Hw) (r : RingId) (x : Ring) : (h.setRing r x).degraded = h.degraded := by cases r <;> rfl
@[simp] theorem Hw.setRing_fitDiff (h : Hw) (r : RingId) (x : Ring) : (h.setRing r x).fitDiff = h.fitDiff := by cases r <;> rfl
@[simp] theorem Hw.setRing_pairEnds (h : Hw) (r : RingId) (x : Ring) : (h.setRing r x).pairEnds = h.pairEnds := by cases r <;> rfl
@[simp] theorem Hw.setRing_win (h : Hw) (r : RingId) (x : Ring) : (h.setRing r x).win = h.win := by cases r <;> rfl
@[simp] theorem Hw.setRing_dma (h : Hw) (r : RingId) (x : Ring) : (h.setRing r x).dma = h.dma := by cases r <;> rfl
@[simp] theorem Hw.setRing_cpc (h : Hw) (r : RingId) (x : Ring) : (h.setRing r x).cpc = h.cpc := by cases r <;> rfl
@[simp] theorem Hw.setRing_cxp (h : Hw) (r : RingId) (x : Ring) : (h.setRing r x).cxp = h.cxp := by cases r <;> rfl
@[simp] theorem Hw.setRing_web (h : Hw) (r : RingId) (x : Ring) : (h.setRing r x).web = h.web := by cases r <;> rfl
@[simp] theorem Hw.setRing_eth (h : Hw) (r : RingId) (x : Ring) : (h.setRing r x).eth = h.eth := by cases r <;> rfl
@[simp] theorem Hw.setRing_ptp (h : Hw) (r : RingId) (x : Ring) : (h.setRing r x).ptp = h.ptp := by cases r <;> rfl
@[simp] theorem Hw.setRing_wml (h : Hw) (r : RingId) (x : Ring) : (h.setRing r x).wml = h.wml := by cases r <;> rfl
@[simp] theorem Hw.setRing_pci (h : Hw) (r : RingId) (x : Ring) : (h.setRing r x).pci = h.pci := by cases r <;> rfl

/-! ### `setEngine` -/

@[simp] theorem Hw.setEngine_engine_same (h : Hw) (e : Engine) (w : WinEngine) : (h.setEngine e w).engine e = w := by
  cases e <;> simp [Hw.setEngine, Hw.engine]

@[simp] theorem Hw.setEngine_now (h : Hw) (e : Engine) (w : WinEngine) : (h.setEngine e w).now = h.now := by cases e <;> rfl
@[simp] theorem Hw.setEngine_sys (h : Hw) (e : Engine) (w : WinEngine) : (h.setEngine e w).sys = h.sys := by cases e <;> rfl
@[simp] theorem Hw.setEngine_regs (h : Hw) (e : Engine) (w : WinEngine) : (h.setEngine e w).regs = h.regs := by cases e <;> rfl
@[simp] theorem Hw.setEngine_act (h : Hw) (e : Engine) (w : WinEngine) : (h.setEngine e w).act = h.act := by cases e <;> rfl
@[simp] theorem Hw.setEngine_helds (h : Hw) (e : Engine) (w : WinEngine) : (h.setEngine e w).helds = h.helds := by cases e <;> rfl
@[simp] theorem Hw.setEngine_snaps (h : Hw) (e : Engine) (w : WinEngine) : (h.setEngine e w).snaps = h.snaps := by cases e <;> rfl
@[simp] theorem Hw.setEngine_mem (h : Hw) (e : Engine) (w : WinEngine) : (h.setEngine e w).mem = h.mem := by cases e <;> rfl
@[simp] theorem Hw.setEngine_atu (h : Hw) (e : Engine) (w : WinEngine) : (h.setEngine e w).atu = h.atu := by cases e <;> rfl
@[simp] theorem Hw.setEngine_fnRings (h : Hw) (e : Engine) (w : WinEngine) : (h.setEngine e w).fnRings = h.fnRings := by cases e <;> rfl
@[simp] theorem Hw.setEngine_ctxRings (h : Hw) (e : Engine) (w : WinEngine) : (h.setEngine e w).ctxRings = h.ctxRings := by cases e <;> rfl
@[simp] theorem Hw.setEngine_rotor (h : Hw) (e : Engine) (w : WinEngine) : (h.setEngine e w).rotor = h.rotor := by cases e <;> rfl
@[simp] theorem Hw.setEngine_ctxs (h : Hw) (e : Engine) (w : WinEngine) : (h.setEngine e w).ctxs = h.ctxs := by cases e <;> rfl
@[simp] theorem Hw.setEngine_images (h : Hw) (e : Engine) (w : WinEngine) : (h.setEngine e w).images = h.images := by cases e <;> rfl
@[simp] theorem Hw.setEngine_nextImage (h : Hw) (e : Engine) (w : WinEngine) : (h.setEngine e w).nextImage = h.nextImage := by cases e <;> rfl
@[simp] theorem Hw.setEngine_frm (h : Hw) (e : Engine) (w : WinEngine) : (h.setEngine e w).frm = h.frm := by cases e <;> rfl
@[simp] theorem Hw.setEngine_col (h : Hw) (e : Engine) (w : WinEngine) : (h.setEngine e w).col = h.col := by cases e <;> rfl
@[simp] theorem Hw.setEngine_counters (h : Hw) (e : Engine) (w : WinEngine) : (h.setEngine e w).counters = h.counters := by cases e <;> rfl
@[simp] theorem Hw.setEngine_channels (h : Hw) (e : Engine) (w : WinEngine) : (h.setEngine e w).channels = h.channels := by cases e <;> rfl
@[simp] theorem Hw.setEngine_cores (h : Hw) (e : Engine) (w : WinEngine) : (h.setEngine e w).cores = h.cores := by cases e <;> rfl
@[simp] theorem Hw.setEngine_arrays (h : Hw) (e : Engine) (w : WinEngine) : (h.setEngine e w).arrays = h.arrays := by cases e <;> rfl
@[simp] theorem Hw.setEngine_wpool (h : Hw) (e : Engine) (w : WinEngine) : (h.setEngine e w).wpool = h.wpool := by cases e <;> rfl
@[simp] theorem Hw.setEngine_wspent (h : Hw) (e : Engine) (w : WinEngine) : (h.setEngine e w).wspent = h.wspent := by cases e <;> rfl
@[simp] theorem Hw.setEngine_degraded (h : Hw) (e : Engine) (w : WinEngine) : (h.setEngine e w).degraded = h.degraded := by cases e <;> rfl
@[simp] theorem Hw.setEngine_fitDiff (h : Hw) (e : Engine) (w : WinEngine) : (h.setEngine e w).fitDiff = h.fitDiff := by cases e <;> rfl
@[simp] theorem Hw.setEngine_pairEnds (h : Hw) (e : Engine) (w : WinEngine) : (h.setEngine e w).pairEnds = h.pairEnds := by cases e <;> rfl
@[simp] theorem Hw.setEngine_dma (h : Hw) (e : Engine) (w : WinEngine) : (h.setEngine e w).dma = h.dma := by cases e <;> rfl
@[simp] theorem Hw.setEngine_cpc (h : Hw) (e : Engine) (w : WinEngine) : (h.setEngine e w).cpc = h.cpc := by cases e <;> rfl
@[simp] theorem Hw.setEngine_cxp (h : Hw) (e : Engine) (w : WinEngine) : (h.setEngine e w).cxp = h.cxp := by cases e <;> rfl
@[simp] theorem Hw.setEngine_web (h : Hw) (e : Engine) (w : WinEngine) : (h.setEngine e w).web = h.web := by cases e <;> rfl
@[simp] theorem Hw.setEngine_eth (h : Hw) (e : Engine) (w : WinEngine) : (h.setEngine e w).eth = h.eth := by cases e <;> rfl
@[simp] theorem Hw.setEngine_ptp (h : Hw) (e : Engine) (w : WinEngine) : (h.setEngine e w).ptp = h.ptp := by cases e <;> rfl
@[simp] theorem Hw.setEngine_wml (h : Hw) (e : Engine) (w : WinEngine) : (h.setEngine e w).wml = h.wml := by cases e <;> rfl
@[simp] theorem Hw.setEngine_pci (h : Hw) (e : Engine) (w : WinEngine) : (h.setEngine e w).pci = h.pci := by cases e <;> rfl

/-! ### What one update leaves of another object -/

@[simp] theorem Hw.setCtx_core_of (h : Hw) (n : Nat) (c : Ctx) (m : Nat) : (h.setCtx n c).core m = h.core m := rfl
@[simp] theorem Hw.setCtx_array_of (h : Hw) (n : Nat) (c : Ctx) (m : Nat) : (h.setCtx n c).array m = h.array m := rfl
@[simp] theorem Hw.setCtx_counter_of (h : Hw) (n : Nat) (c : Ctx) (m : Nat) : (h.setCtx n c).counter m = h.counter m := rfl
@[simp] theorem Hw.setCtx_channel_of (h : Hw) (n : Nat) (c : Ctx) (m : Nat) : (h.setCtx n c).channel m = h.channel m := rfl
@[simp] theorem Hw.setCtx_dmaChan_of (h : Hw) (n : Nat) (c : Ctx) (m : Nat) : (h.setCtx n c).dmaChan m = h.dmaChan m := rfl
@[simp] theorem Hw.setCtx_dmaEngine_of (h : Hw) (n : Nat) (c : Ctx) (m : Nat) : (h.setCtx n c).dmaEngine m = h.dmaEngine m := rfl
@[simp] theorem Hw.setCtx_lineChan_of (h : Hw) (n : Nat) (c : Ctx) (m : Nat) : (h.setCtx n c).lineChan m = h.lineChan m := rfl
@[simp] theorem Hw.setCtx_func_of (h : Hw) (n : Nat) (c : Ctx) (m : Nat) : (h.setCtx n c).func m = h.func m := rfl
@[simp] theorem Hw.setCtx_port_of (h : Hw) (n : Nat) (c : Ctx) (m : Nat) : (h.setCtx n c).port m = h.port m := rfl
@[simp] theorem Hw.setCtx_encoder_of (h : Hw) (n : Nat) (c : Ctx) (m : Nat) : (h.setCtx n c).encoder m = h.encoder m := rfl
@[simp] theorem Hw.setCtx_output_of (h : Hw) (n : Nat) (c : Ctx) (m : Nat) : (h.setCtx n c).output m = h.output m := rfl
@[simp] theorem Hw.setCtx_ethPort_of (h : Hw) (n : Nat) (c : Ctx) (m : Nat) : (h.setCtx n c).ethPort m = h.ethPort m := rfl
@[simp] theorem Hw.setCtx_link_of (h : Hw) (n : Nat) (c : Ctx) (m : Nat) : (h.setCtx n c).link m = h.link m := rfl
@[simp] theorem Hw.setCtx_unitRec_of (h : Hw) (n : Nat) (c : Ctx) (m : Nat) : (h.setCtx n c).unitRec m = h.unitRec m := rfl
@[simp] theorem Hw.setCtx_cage_of (h : Hw) (n : Nat) (c : Ctx) (m : Nat) : (h.setCtx n c).cage m = h.cage m := rfl
@[simp] theorem Hw.setCtx_gran_of (h : Hw) (n : Nat) (c : Ctx) (m : Nat) : (h.setCtx n c).gran m = h.gran m := rfl
@[simp] theorem Hw.setCtx_reg_of (h : Hw) (n : Nat) (c : Ctx) (m : Nat) : (h.setCtx n c).reg m = h.reg m := rfl
@[simp] theorem Hw.setCtx_actReg_of (h : Hw) (n : Nat) (c : Ctx) (m : Nat) : (h.setCtx n c).actReg m = h.actReg m := rfl
@[simp] theorem Hw.setCtx_ring_of (h : Hw) (n : Nat) (c : Ctx) (r : RingId) : (h.setCtx n c).ring r = h.ring r := by cases r <;> rfl
@[simp] theorem Hw.setCtx_engine_of (h : Hw) (n : Nat) (c : Ctx) (e : Engine) : (h.setCtx n c).engine e = h.engine e := by cases e <;> rfl
@[simp] theorem Hw.setCore_ctx_of (h : Hw) (n : Nat) (c : Core) (m : Nat) : (h.setCore n c).ctx m = h.ctx m := rfl
@[simp] theorem Hw.setCore_array_of (h : Hw) (n : Nat) (c : Core) (m : Nat) : (h.setCore n c).array m = h.array m := rfl
@[simp] theorem Hw.setCore_counter_of (h : Hw) (n : Nat) (c : Core) (m : Nat) : (h.setCore n c).counter m = h.counter m := rfl
@[simp] theorem Hw.setCore_channel_of (h : Hw) (n : Nat) (c : Core) (m : Nat) : (h.setCore n c).channel m = h.channel m := rfl
@[simp] theorem Hw.setCore_dmaChan_of (h : Hw) (n : Nat) (c : Core) (m : Nat) : (h.setCore n c).dmaChan m = h.dmaChan m := rfl
@[simp] theorem Hw.setCore_dmaEngine_of (h : Hw) (n : Nat) (c : Core) (m : Nat) : (h.setCore n c).dmaEngine m = h.dmaEngine m := rfl
@[simp] theorem Hw.setCore_lineChan_of (h : Hw) (n : Nat) (c : Core) (m : Nat) : (h.setCore n c).lineChan m = h.lineChan m := rfl
@[simp] theorem Hw.setCore_func_of (h : Hw) (n : Nat) (c : Core) (m : Nat) : (h.setCore n c).func m = h.func m := rfl
@[simp] theorem Hw.setCore_port_of (h : Hw) (n : Nat) (c : Core) (m : Nat) : (h.setCore n c).port m = h.port m := rfl
@[simp] theorem Hw.setCore_encoder_of (h : Hw) (n : Nat) (c : Core) (m : Nat) : (h.setCore n c).encoder m = h.encoder m := rfl
@[simp] theorem Hw.setCore_output_of (h : Hw) (n : Nat) (c : Core) (m : Nat) : (h.setCore n c).output m = h.output m := rfl
@[simp] theorem Hw.setCore_ethPort_of (h : Hw) (n : Nat) (c : Core) (m : Nat) : (h.setCore n c).ethPort m = h.ethPort m := rfl
@[simp] theorem Hw.setCore_link_of (h : Hw) (n : Nat) (c : Core) (m : Nat) : (h.setCore n c).link m = h.link m := rfl
@[simp] theorem Hw.setCore_unitRec_of (h : Hw) (n : Nat) (c : Core) (m : Nat) : (h.setCore n c).unitRec m = h.unitRec m := rfl
@[simp] theorem Hw.setCore_cage_of (h : Hw) (n : Nat) (c : Core) (m : Nat) : (h.setCore n c).cage m = h.cage m := rfl
@[simp] theorem Hw.setCore_gran_of (h : Hw) (n : Nat) (c : Core) (m : Nat) : (h.setCore n c).gran m = h.gran m := rfl
@[simp] theorem Hw.setCore_reg_of (h : Hw) (n : Nat) (c : Core) (m : Nat) : (h.setCore n c).reg m = h.reg m := rfl
@[simp] theorem Hw.setCore_actReg_of (h : Hw) (n : Nat) (c : Core) (m : Nat) : (h.setCore n c).actReg m = h.actReg m := rfl
@[simp] theorem Hw.setCore_ring_of (h : Hw) (n : Nat) (c : Core) (r : RingId) : (h.setCore n c).ring r = h.ring r := by cases r <;> rfl
@[simp] theorem Hw.setCore_engine_of (h : Hw) (n : Nat) (c : Core) (e : Engine) : (h.setCore n c).engine e = h.engine e := by cases e <;> rfl
@[simp] theorem Hw.setArray_ctx_of (h : Hw) (n : Nat) (c : BstArray) (m : Nat) : (h.setArray n c).ctx m = h.ctx m := rfl
@[simp] theorem Hw.setArray_core_of (h : Hw) (n : Nat) (c : BstArray) (m : Nat) : (h.setArray n c).core m = h.core m := rfl
@[simp] theorem Hw.setArray_counter_of (h : Hw) (n : Nat) (c : BstArray) (m : Nat) : (h.setArray n c).counter m = h.counter m := rfl
@[simp] theorem Hw.setArray_channel_of (h : Hw) (n : Nat) (c : BstArray) (m : Nat) : (h.setArray n c).channel m = h.channel m := rfl
@[simp] theorem Hw.setArray_dmaChan_of (h : Hw) (n : Nat) (c : BstArray) (m : Nat) : (h.setArray n c).dmaChan m = h.dmaChan m := rfl
@[simp] theorem Hw.setArray_dmaEngine_of (h : Hw) (n : Nat) (c : BstArray) (m : Nat) : (h.setArray n c).dmaEngine m = h.dmaEngine m := rfl
@[simp] theorem Hw.setArray_lineChan_of (h : Hw) (n : Nat) (c : BstArray) (m : Nat) : (h.setArray n c).lineChan m = h.lineChan m := rfl
@[simp] theorem Hw.setArray_func_of (h : Hw) (n : Nat) (c : BstArray) (m : Nat) : (h.setArray n c).func m = h.func m := rfl
@[simp] theorem Hw.setArray_port_of (h : Hw) (n : Nat) (c : BstArray) (m : Nat) : (h.setArray n c).port m = h.port m := rfl
@[simp] theorem Hw.setArray_encoder_of (h : Hw) (n : Nat) (c : BstArray) (m : Nat) : (h.setArray n c).encoder m = h.encoder m := rfl
@[simp] theorem Hw.setArray_output_of (h : Hw) (n : Nat) (c : BstArray) (m : Nat) : (h.setArray n c).output m = h.output m := rfl
@[simp] theorem Hw.setArray_ethPort_of (h : Hw) (n : Nat) (c : BstArray) (m : Nat) : (h.setArray n c).ethPort m = h.ethPort m := rfl
@[simp] theorem Hw.setArray_link_of (h : Hw) (n : Nat) (c : BstArray) (m : Nat) : (h.setArray n c).link m = h.link m := rfl
@[simp] theorem Hw.setArray_unitRec_of (h : Hw) (n : Nat) (c : BstArray) (m : Nat) : (h.setArray n c).unitRec m = h.unitRec m := rfl
@[simp] theorem Hw.setArray_cage_of (h : Hw) (n : Nat) (c : BstArray) (m : Nat) : (h.setArray n c).cage m = h.cage m := rfl
@[simp] theorem Hw.setArray_gran_of (h : Hw) (n : Nat) (c : BstArray) (m : Nat) : (h.setArray n c).gran m = h.gran m := rfl
@[simp] theorem Hw.setArray_reg_of (h : Hw) (n : Nat) (c : BstArray) (m : Nat) : (h.setArray n c).reg m = h.reg m := rfl
@[simp] theorem Hw.setArray_actReg_of (h : Hw) (n : Nat) (c : BstArray) (m : Nat) : (h.setArray n c).actReg m = h.actReg m := rfl
@[simp] theorem Hw.setArray_ring_of (h : Hw) (n : Nat) (c : BstArray) (r : RingId) : (h.setArray n c).ring r = h.ring r := by cases r <;> rfl
@[simp] theorem Hw.setArray_engine_of (h : Hw) (n : Nat) (c : BstArray) (e : Engine) : (h.setArray n c).engine e = h.engine e := by cases e <;> rfl
@[simp] theorem Hw.setCounter_ctx_of (h : Hw) (n : Nat) (c : Counter) (m : Nat) : (h.setCounter n c).ctx m = h.ctx m := rfl
@[simp] theorem Hw.setCounter_core_of (h : Hw) (n : Nat) (c : Counter) (m : Nat) : (h.setCounter n c).core m = h.core m := rfl
@[simp] theorem Hw.setCounter_array_of (h : Hw) (n : Nat) (c : Counter) (m : Nat) : (h.setCounter n c).array m = h.array m := rfl
@[simp] theorem Hw.setCounter_channel_of (h : Hw) (n : Nat) (c : Counter) (m : Nat) : (h.setCounter n c).channel m = h.channel m := rfl
@[simp] theorem Hw.setCounter_dmaChan_of (h : Hw) (n : Nat) (c : Counter) (m : Nat) : (h.setCounter n c).dmaChan m = h.dmaChan m := rfl
@[simp] theorem Hw.setCounter_dmaEngine_of (h : Hw) (n : Nat) (c : Counter) (m : Nat) : (h.setCounter n c).dmaEngine m = h.dmaEngine m := rfl
@[simp] theorem Hw.setCounter_lineChan_of (h : Hw) (n : Nat) (c : Counter) (m : Nat) : (h.setCounter n c).lineChan m = h.lineChan m := rfl
@[simp] theorem Hw.setCounter_func_of (h : Hw) (n : Nat) (c : Counter) (m : Nat) : (h.setCounter n c).func m = h.func m := rfl
@[simp] theorem Hw.setCounter_port_of (h : Hw) (n : Nat) (c : Counter) (m : Nat) : (h.setCounter n c).port m = h.port m := rfl
@[simp] theorem Hw.setCounter_encoder_of (h : Hw) (n : Nat) (c : Counter) (m : Nat) : (h.setCounter n c).encoder m = h.encoder m := rfl
@[simp] theorem Hw.setCounter_output_of (h : Hw) (n : Nat) (c : Counter) (m : Nat) : (h.setCounter n c).output m = h.output m := rfl
@[simp] theorem Hw.setCounter_ethPort_of (h : Hw) (n : Nat) (c : Counter) (m : Nat) : (h.setCounter n c).ethPort m = h.ethPort m := rfl
@[simp] theorem Hw.setCounter_link_of (h : Hw) (n : Nat) (c : Counter) (m : Nat) : (h.setCounter n c).link m = h.link m := rfl
@[simp] theorem Hw.setCounter_unitRec_of (h : Hw) (n : Nat) (c : Counter) (m : Nat) : (h.setCounter n c).unitRec m = h.unitRec m := rfl
@[simp] theorem Hw.setCounter_cage_of (h : Hw) (n : Nat) (c : Counter) (m : Nat) : (h.setCounter n c).cage m = h.cage m := rfl
@[simp] theorem Hw.setCounter_gran_of (h : Hw) (n : Nat) (c : Counter) (m : Nat) : (h.setCounter n c).gran m = h.gran m := rfl
@[simp] theorem Hw.setCounter_reg_of (h : Hw) (n : Nat) (c : Counter) (m : Nat) : (h.setCounter n c).reg m = h.reg m := rfl
@[simp] theorem Hw.setCounter_actReg_of (h : Hw) (n : Nat) (c : Counter) (m : Nat) : (h.setCounter n c).actReg m = h.actReg m := rfl
@[simp] theorem Hw.setCounter_ring_of (h : Hw) (n : Nat) (c : Counter) (r : RingId) : (h.setCounter n c).ring r = h.ring r := by cases r <;> rfl
@[simp] theorem Hw.setCounter_engine_of (h : Hw) (n : Nat) (c : Counter) (e : Engine) : (h.setCounter n c).engine e = h.engine e := by cases e <;> rfl
@[simp] theorem Hw.setChannel_ctx_of (h : Hw) (n : Nat) (c : Channel) (m : Nat) : (h.setChannel n c).ctx m = h.ctx m := rfl
@[simp] theorem Hw.setChannel_core_of (h : Hw) (n : Nat) (c : Channel) (m : Nat) : (h.setChannel n c).core m = h.core m := rfl
@[simp] theorem Hw.setChannel_array_of (h : Hw) (n : Nat) (c : Channel) (m : Nat) : (h.setChannel n c).array m = h.array m := rfl
@[simp] theorem Hw.setChannel_counter_of (h : Hw) (n : Nat) (c : Channel) (m : Nat) : (h.setChannel n c).counter m = h.counter m := rfl
@[simp] theorem Hw.setChannel_dmaChan_of (h : Hw) (n : Nat) (c : Channel) (m : Nat) : (h.setChannel n c).dmaChan m = h.dmaChan m := rfl
@[simp] theorem Hw.setChannel_dmaEngine_of (h : Hw) (n : Nat) (c : Channel) (m : Nat) : (h.setChannel n c).dmaEngine m = h.dmaEngine m := rfl
@[simp] theorem Hw.setChannel_lineChan_of (h : Hw) (n : Nat) (c : Channel) (m : Nat) : (h.setChannel n c).lineChan m = h.lineChan m := rfl
@[simp] theorem Hw.setChannel_func_of (h : Hw) (n : Nat) (c : Channel) (m : Nat) : (h.setChannel n c).func m = h.func m := rfl
@[simp] theorem Hw.setChannel_port_of (h : Hw) (n : Nat) (c : Channel) (m : Nat) : (h.setChannel n c).port m = h.port m := rfl
@[simp] theorem Hw.setChannel_encoder_of (h : Hw) (n : Nat) (c : Channel) (m : Nat) : (h.setChannel n c).encoder m = h.encoder m := rfl
@[simp] theorem Hw.setChannel_output_of (h : Hw) (n : Nat) (c : Channel) (m : Nat) : (h.setChannel n c).output m = h.output m := rfl
@[simp] theorem Hw.setChannel_ethPort_of (h : Hw) (n : Nat) (c : Channel) (m : Nat) : (h.setChannel n c).ethPort m = h.ethPort m := rfl
@[simp] theorem Hw.setChannel_link_of (h : Hw) (n : Nat) (c : Channel) (m : Nat) : (h.setChannel n c).link m = h.link m := rfl
@[simp] theorem Hw.setChannel_unitRec_of (h : Hw) (n : Nat) (c : Channel) (m : Nat) : (h.setChannel n c).unitRec m = h.unitRec m := rfl
@[simp] theorem Hw.setChannel_cage_of (h : Hw) (n : Nat) (c : Channel) (m : Nat) : (h.setChannel n c).cage m = h.cage m := rfl
@[simp] theorem Hw.setChannel_gran_of (h : Hw) (n : Nat) (c : Channel) (m : Nat) : (h.setChannel n c).gran m = h.gran m := rfl
@[simp] theorem Hw.setChannel_reg_of (h : Hw) (n : Nat) (c : Channel) (m : Nat) : (h.setChannel n c).reg m = h.reg m := rfl
@[simp] theorem Hw.setChannel_actReg_of (h : Hw) (n : Nat) (c : Channel) (m : Nat) : (h.setChannel n c).actReg m = h.actReg m := rfl
@[simp] theorem Hw.setChannel_ring_of (h : Hw) (n : Nat) (c : Channel) (r : RingId) : (h.setChannel n c).ring r = h.ring r := by cases r <;> rfl
@[simp] theorem Hw.setChannel_engine_of (h : Hw) (n : Nat) (c : Channel) (e : Engine) : (h.setChannel n c).engine e = h.engine e := by cases e <;> rfl
@[simp] theorem Hw.setDmaChan_ctx_of (h : Hw) (n : Nat) (c : DmaChan) (m : Nat) : (h.setDmaChan n c).ctx m = h.ctx m := rfl
@[simp] theorem Hw.setDmaChan_core_of (h : Hw) (n : Nat) (c : DmaChan) (m : Nat) : (h.setDmaChan n c).core m = h.core m := rfl
@[simp] theorem Hw.setDmaChan_array_of (h : Hw) (n : Nat) (c : DmaChan) (m : Nat) : (h.setDmaChan n c).array m = h.array m := rfl
@[simp] theorem Hw.setDmaChan_counter_of (h : Hw) (n : Nat) (c : DmaChan) (m : Nat) : (h.setDmaChan n c).counter m = h.counter m := rfl
@[simp] theorem Hw.setDmaChan_channel_of (h : Hw) (n : Nat) (c : DmaChan) (m : Nat) : (h.setDmaChan n c).channel m = h.channel m := rfl
@[simp] theorem Hw.setDmaChan_dmaEngine_of (h : Hw) (n : Nat) (c : DmaChan) (m : Nat) : (h.setDmaChan n c).dmaEngine m = h.dmaEngine m := rfl
@[simp] theorem Hw.setDmaChan_lineChan_of (h : Hw) (n : Nat) (c : DmaChan) (m : Nat) : (h.setDmaChan n c).lineChan m = h.lineChan m := rfl
@[simp] theorem Hw.setDmaChan_func_of (h : Hw) (n : Nat) (c : DmaChan) (m : Nat) : (h.setDmaChan n c).func m = h.func m := rfl
@[simp] theorem Hw.setDmaChan_port_of (h : Hw) (n : Nat) (c : DmaChan) (m : Nat) : (h.setDmaChan n c).port m = h.port m := rfl
@[simp] theorem Hw.setDmaChan_encoder_of (h : Hw) (n : Nat) (c : DmaChan) (m : Nat) : (h.setDmaChan n c).encoder m = h.encoder m := rfl
@[simp] theorem Hw.setDmaChan_output_of (h : Hw) (n : Nat) (c : DmaChan) (m : Nat) : (h.setDmaChan n c).output m = h.output m := rfl
@[simp] theorem Hw.setDmaChan_ethPort_of (h : Hw) (n : Nat) (c : DmaChan) (m : Nat) : (h.setDmaChan n c).ethPort m = h.ethPort m := rfl
@[simp] theorem Hw.setDmaChan_link_of (h : Hw) (n : Nat) (c : DmaChan) (m : Nat) : (h.setDmaChan n c).link m = h.link m := rfl
@[simp] theorem Hw.setDmaChan_unitRec_of (h : Hw) (n : Nat) (c : DmaChan) (m : Nat) : (h.setDmaChan n c).unitRec m = h.unitRec m := rfl
@[simp] theorem Hw.setDmaChan_cage_of (h : Hw) (n : Nat) (c : DmaChan) (m : Nat) : (h.setDmaChan n c).cage m = h.cage m := rfl
@[simp] theorem Hw.setDmaChan_gran_of (h : Hw) (n : Nat) (c : DmaChan) (m : Nat) : (h.setDmaChan n c).gran m = h.gran m := rfl
@[simp] theorem Hw.setDmaChan_reg_of (h : Hw) (n : Nat) (c : DmaChan) (m : Nat) : (h.setDmaChan n c).reg m = h.reg m := rfl
@[simp] theorem Hw.setDmaChan_actReg_of (h : Hw) (n : Nat) (c : DmaChan) (m : Nat) : (h.setDmaChan n c).actReg m = h.actReg m := rfl
@[simp] theorem Hw.setDmaChan_ring_of (h : Hw) (n : Nat) (c : DmaChan) (r : RingId) : (h.setDmaChan n c).ring r = h.ring r := by cases r <;> rfl
@[simp] theorem Hw.setDmaChan_engine_of (h : Hw) (n : Nat) (c : DmaChan) (e : Engine) : (h.setDmaChan n c).engine e = h.engine e := by cases e <;> rfl
@[simp] theorem Hw.setDmaEngine_ctx_of (h : Hw) (n : Nat) (c : DmaEngine) (m : Nat) : (h.setDmaEngine n c).ctx m = h.ctx m := rfl
@[simp] theorem Hw.setDmaEngine_core_of (h : Hw) (n : Nat) (c : DmaEngine) (m : Nat) : (h.setDmaEngine n c).core m = h.core m := rfl
@[simp] theorem Hw.setDmaEngine_array_of (h : Hw) (n : Nat) (c : DmaEngine) (m : Nat) : (h.setDmaEngine n c).array m = h.array m := rfl
@[simp] theorem Hw.setDmaEngine_counter_of (h : Hw) (n : Nat) (c : DmaEngine) (m : Nat) : (h.setDmaEngine n c).counter m = h.counter m := rfl
@[simp] theorem Hw.setDmaEngine_channel_of (h : Hw) (n : Nat) (c : DmaEngine) (m : Nat) : (h.setDmaEngine n c).channel m = h.channel m := rfl
@[simp] theorem Hw.setDmaEngine_dmaChan_of (h : Hw) (n : Nat) (c : DmaEngine) (m : Nat) : (h.setDmaEngine n c).dmaChan m = h.dmaChan m := rfl
@[simp] theorem Hw.setDmaEngine_lineChan_of (h : Hw) (n : Nat) (c : DmaEngine) (m : Nat) : (h.setDmaEngine n c).lineChan m = h.lineChan m := rfl
@[simp] theorem Hw.setDmaEngine_func_of (h : Hw) (n : Nat) (c : DmaEngine) (m : Nat) : (h.setDmaEngine n c).func m = h.func m := rfl
@[simp] theorem Hw.setDmaEngine_port_of (h : Hw) (n : Nat) (c : DmaEngine) (m : Nat) : (h.setDmaEngine n c).port m = h.port m := rfl
@[simp] theorem Hw.setDmaEngine_encoder_of (h : Hw) (n : Nat) (c : DmaEngine) (m : Nat) : (h.setDmaEngine n c).encoder m = h.encoder m := rfl
@[simp] theorem Hw.setDmaEngine_output_of (h : Hw) (n : Nat) (c : DmaEngine) (m : Nat) : (h.setDmaEngine n c).output m = h.output m := rfl
@[simp] theorem Hw.setDmaEngine_ethPort_of (h : Hw) (n : Nat) (c : DmaEngine) (m : Nat) : (h.setDmaEngine n c).ethPort m = h.ethPort m := rfl
@[simp] theorem Hw.setDmaEngine_link_of (h : Hw) (n : Nat) (c : DmaEngine) (m : Nat) : (h.setDmaEngine n c).link m = h.link m := rfl
@[simp] theorem Hw.setDmaEngine_unitRec_of (h : Hw) (n : Nat) (c : DmaEngine) (m : Nat) : (h.setDmaEngine n c).unitRec m = h.unitRec m := rfl
@[simp] theorem Hw.setDmaEngine_cage_of (h : Hw) (n : Nat) (c : DmaEngine) (m : Nat) : (h.setDmaEngine n c).cage m = h.cage m := rfl
@[simp] theorem Hw.setDmaEngine_gran_of (h : Hw) (n : Nat) (c : DmaEngine) (m : Nat) : (h.setDmaEngine n c).gran m = h.gran m := rfl
@[simp] theorem Hw.setDmaEngine_reg_of (h : Hw) (n : Nat) (c : DmaEngine) (m : Nat) : (h.setDmaEngine n c).reg m = h.reg m := rfl
@[simp] theorem Hw.setDmaEngine_actReg_of (h : Hw) (n : Nat) (c : DmaEngine) (m : Nat) : (h.setDmaEngine n c).actReg m = h.actReg m := rfl
@[simp] theorem Hw.setDmaEngine_ring_of (h : Hw) (n : Nat) (c : DmaEngine) (r : RingId) : (h.setDmaEngine n c).ring r = h.ring r := by cases r <;> rfl
@[simp] theorem Hw.setDmaEngine_engine_of (h : Hw) (n : Nat) (c : DmaEngine) (e : Engine) : (h.setDmaEngine n c).engine e = h.engine e := by cases e <;> rfl
@[simp] theorem Hw.setLineChan_ctx_of (h : Hw) (n : Nat) (c : LineChan) (m : Nat) : (h.setLineChan n c).ctx m = h.ctx m := rfl
@[simp] theorem Hw.setLineChan_core_of (h : Hw) (n : Nat) (c : LineChan) (m : Nat) : (h.setLineChan n c).core m = h.core m := rfl
@[simp] theorem Hw.setLineChan_array_of (h : Hw) (n : Nat) (c : LineChan) (m : Nat) : (h.setLineChan n c).array m = h.array m := rfl
@[simp] theorem Hw.setLineChan_counter_of (h : Hw) (n : Nat) (c : LineChan) (m : Nat) : (h.setLineChan n c).counter m = h.counter m := rfl
@[simp] theorem Hw.setLineChan_channel_of (h : Hw) (n : Nat) (c : LineChan) (m : Nat) : (h.setLineChan n c).channel m = h.channel m := rfl
@[simp] theorem Hw.setLineChan_dmaChan_of (h : Hw) (n : Nat) (c : LineChan) (m : Nat) : (h.setLineChan n c).dmaChan m = h.dmaChan m := rfl
@[simp] theorem Hw.setLineChan_dmaEngine_of (h : Hw) (n : Nat) (c : LineChan) (m : Nat) : (h.setLineChan n c).dmaEngine m = h.dmaEngine m := rfl
@[simp] theorem Hw.setLineChan_func_of (h : Hw) (n : Nat) (c : LineChan) (m : Nat) : (h.setLineChan n c).func m = h.func m := rfl
@[simp] theorem Hw.setLineChan_port_of (h : Hw) (n : Nat) (c : LineChan) (m : Nat) : (h.setLineChan n c).port m = h.port m := rfl
@[simp] theorem Hw.setLineChan_encoder_of (h : Hw) (n : Nat) (c : LineChan) (m : Nat) : (h.setLineChan n c).encoder m = h.encoder m := rfl
@[simp] theorem Hw.setLineChan_output_of (h : Hw) (n : Nat) (c : LineChan) (m : Nat) : (h.setLineChan n c).output m = h.output m := rfl
@[simp] theorem Hw.setLineChan_ethPort_of (h : Hw) (n : Nat) (c : LineChan) (m : Nat) : (h.setLineChan n c).ethPort m = h.ethPort m := rfl
@[simp] theorem Hw.setLineChan_link_of (h : Hw) (n : Nat) (c : LineChan) (m : Nat) : (h.setLineChan n c).link m = h.link m := rfl
@[simp] theorem Hw.setLineChan_unitRec_of (h : Hw) (n : Nat) (c : LineChan) (m : Nat) : (h.setLineChan n c).unitRec m = h.unitRec m := rfl
@[simp] theorem Hw.setLineChan_cage_of (h : Hw) (n : Nat) (c : LineChan) (m : Nat) : (h.setLineChan n c).cage m = h.cage m := rfl
@[simp] theorem Hw.setLineChan_gran_of (h : Hw) (n : Nat) (c : LineChan) (m : Nat) : (h.setLineChan n c).gran m = h.gran m := rfl
@[simp] theorem Hw.setLineChan_reg_of (h : Hw) (n : Nat) (c : LineChan) (m : Nat) : (h.setLineChan n c).reg m = h.reg m := rfl
@[simp] theorem Hw.setLineChan_actReg_of (h : Hw) (n : Nat) (c : LineChan) (m : Nat) : (h.setLineChan n c).actReg m = h.actReg m := rfl
@[simp] theorem Hw.setLineChan_ring_of (h : Hw) (n : Nat) (c : LineChan) (r : RingId) : (h.setLineChan n c).ring r = h.ring r := by cases r <;> rfl
@[simp] theorem Hw.setLineChan_engine_of (h : Hw) (n : Nat) (c : LineChan) (e : Engine) : (h.setLineChan n c).engine e = h.engine e := by cases e <;> rfl
@[simp] theorem Hw.setFunc_ctx_of (h : Hw) (n : Nat) (c : Func) (m : Nat) : (h.setFunc n c).ctx m = h.ctx m := rfl
@[simp] theorem Hw.setFunc_core_of (h : Hw) (n : Nat) (c : Func) (m : Nat) : (h.setFunc n c).core m = h.core m := rfl
@[simp] theorem Hw.setFunc_array_of (h : Hw) (n : Nat) (c : Func) (m : Nat) : (h.setFunc n c).array m = h.array m := rfl
@[simp] theorem Hw.setFunc_counter_of (h : Hw) (n : Nat) (c : Func) (m : Nat) : (h.setFunc n c).counter m = h.counter m := rfl
@[simp] theorem Hw.setFunc_channel_of (h : Hw) (n : Nat) (c : Func) (m : Nat) : (h.setFunc n c).channel m = h.channel m := rfl
@[simp] theorem Hw.setFunc_dmaChan_of (h : Hw) (n : Nat) (c : Func) (m : Nat) : (h.setFunc n c).dmaChan m = h.dmaChan m := rfl
@[simp] theorem Hw.setFunc_dmaEngine_of (h : Hw) (n : Nat) (c : Func) (m : Nat) : (h.setFunc n c).dmaEngine m = h.dmaEngine m := rfl
@[simp] theorem Hw.setFunc_lineChan_of (h : Hw) (n : Nat) (c : Func) (m : Nat) : (h.setFunc n c).lineChan m = h.lineChan m := rfl
@[simp] theorem Hw.setFunc_port_of (h : Hw) (n : Nat) (c : Func) (m : Nat) : (h.setFunc n c).port m = h.port m := rfl
@[simp] theorem Hw.setFunc_encoder_of (h : Hw) (n : Nat) (c : Func) (m : Nat) : (h.setFunc n c).encoder m = h.encoder m := rfl
@[simp] theorem Hw.setFunc_output_of (h : Hw) (n : Nat) (c : Func) (m : Nat) : (h.setFunc n c).output m = h.output m := rfl
@[simp] theorem Hw.setFunc_ethPort_of (h : Hw) (n : Nat) (c : Func) (m : Nat) : (h.setFunc n c).ethPort m = h.ethPort m := rfl
@[simp] theorem Hw.setFunc_link_of (h : Hw) (n : Nat) (c : Func) (m : Nat) : (h.setFunc n c).link m = h.link m := rfl
@[simp] theorem Hw.setFunc_unitRec_of (h : Hw) (n : Nat) (c : Func) (m : Nat) : (h.setFunc n c).unitRec m = h.unitRec m := rfl
@[simp] theorem Hw.setFunc_cage_of (h : Hw) (n : Nat) (c : Func) (m : Nat) : (h.setFunc n c).cage m = h.cage m := rfl
@[simp] theorem Hw.setFunc_gran_of (h : Hw) (n : Nat) (c : Func) (m : Nat) : (h.setFunc n c).gran m = h.gran m := rfl
@[simp] theorem Hw.setFunc_reg_of (h : Hw) (n : Nat) (c : Func) (m : Nat) : (h.setFunc n c).reg m = h.reg m := rfl
@[simp] theorem Hw.setFunc_actReg_of (h : Hw) (n : Nat) (c : Func) (m : Nat) : (h.setFunc n c).actReg m = h.actReg m := rfl
@[simp] theorem Hw.setFunc_ring_of (h : Hw) (n : Nat) (c : Func) (r : RingId) : (h.setFunc n c).ring r = h.ring r := by cases r <;> rfl
@[simp] theorem Hw.setFunc_engine_of (h : Hw) (n : Nat) (c : Func) (e : Engine) : (h.setFunc n c).engine e = h.engine e := by cases e <;> rfl
@[simp] theorem Hw.setPort_ctx_of (h : Hw) (n : Nat) (c : CamPort) (m : Nat) : (h.setPort n c).ctx m = h.ctx m := rfl
@[simp] theorem Hw.setPort_core_of (h : Hw) (n : Nat) (c : CamPort) (m : Nat) : (h.setPort n c).core m = h.core m := rfl
@[simp] theorem Hw.setPort_array_of (h : Hw) (n : Nat) (c : CamPort) (m : Nat) : (h.setPort n c).array m = h.array m := rfl
@[simp] theorem Hw.setPort_counter_of (h : Hw) (n : Nat) (c : CamPort) (m : Nat) : (h.setPort n c).counter m = h.counter m := rfl
@[simp] theorem Hw.setPort_channel_of (h : Hw) (n : Nat) (c : CamPort) (m : Nat) : (h.setPort n c).channel m = h.channel m := rfl
@[simp] theorem Hw.setPort_dmaChan_of (h : Hw) (n : Nat) (c : CamPort) (m : Nat) : (h.setPort n c).dmaChan m = h.dmaChan m := rfl
@[simp] theorem Hw.setPort_dmaEngine_of (h : Hw) (n : Nat) (c : CamPort) (m : Nat) : (h.setPort n c).dmaEngine m = h.dmaEngine m := rfl
@[simp] theorem Hw.setPort_lineChan_of (h : Hw) (n : Nat) (c : CamPort) (m : Nat) : (h.setPort n c).lineChan m = h.lineChan m := rfl
@[simp] theorem Hw.setPort_func_of (h : Hw) (n : Nat) (c : CamPort) (m : Nat) : (h.setPort n c).func m = h.func m := rfl
@[simp] theorem Hw.setPort_encoder_of (h : Hw) (n : Nat) (c : CamPort) (m : Nat) : (h.setPort n c).encoder m = h.encoder m := rfl
@[simp] theorem Hw.setPort_output_of (h : Hw) (n : Nat) (c : CamPort) (m : Nat) : (h.setPort n c).output m = h.output m := rfl
@[simp] theorem Hw.setPort_ethPort_of (h : Hw) (n : Nat) (c : CamPort) (m : Nat) : (h.setPort n c).ethPort m = h.ethPort m := rfl
@[simp] theorem Hw.setPort_link_of (h : Hw) (n : Nat) (c : CamPort) (m : Nat) : (h.setPort n c).link m = h.link m := rfl
@[simp] theorem Hw.setPort_unitRec_of (h : Hw) (n : Nat) (c : CamPort) (m : Nat) : (h.setPort n c).unitRec m = h.unitRec m := rfl
@[simp] theorem Hw.setPort_cage_of (h : Hw) (n : Nat) (c : CamPort) (m : Nat) : (h.setPort n c).cage m = h.cage m := rfl
@[simp] theorem Hw.setPort_gran_of (h : Hw) (n : Nat) (c : CamPort) (m : Nat) : (h.setPort n c).gran m = h.gran m := rfl
@[simp] theorem Hw.setPort_reg_of (h : Hw) (n : Nat) (c : CamPort) (m : Nat) : (h.setPort n c).reg m = h.reg m := rfl
@[simp] theorem Hw.setPort_actReg_of (h : Hw) (n : Nat) (c : CamPort) (m : Nat) : (h.setPort n c).actReg m = h.actReg m := rfl
@[simp] theorem Hw.setPort_ring_of (h : Hw) (n : Nat) (c : CamPort) (r : RingId) : (h.setPort n c).ring r = h.ring r := by cases r <;> rfl
@[simp] theorem Hw.setPort_engine_of (h : Hw) (n : Nat) (c : CamPort) (e : Engine) : (h.setPort n c).engine e = h.engine e := by cases e <;> rfl
@[simp] theorem Hw.setEncoder_ctx_of (h : Hw) (n : Nat) (c : Encoder) (m : Nat) : (h.setEncoder n c).ctx m = h.ctx m := rfl
@[simp] theorem Hw.setEncoder_core_of (h : Hw) (n : Nat) (c : Encoder) (m : Nat) : (h.setEncoder n c).core m = h.core m := rfl
@[simp] theorem Hw.setEncoder_array_of (h : Hw) (n : Nat) (c : Encoder) (m : Nat) : (h.setEncoder n c).array m = h.array m := rfl
@[simp] theorem Hw.setEncoder_counter_of (h : Hw) (n : Nat) (c : Encoder) (m : Nat) : (h.setEncoder n c).counter m = h.counter m := rfl
@[simp] theorem Hw.setEncoder_channel_of (h : Hw) (n : Nat) (c : Encoder) (m : Nat) : (h.setEncoder n c).channel m = h.channel m := rfl
@[simp] theorem Hw.setEncoder_dmaChan_of (h : Hw) (n : Nat) (c : Encoder) (m : Nat) : (h.setEncoder n c).dmaChan m = h.dmaChan m := rfl
@[simp] theorem Hw.setEncoder_dmaEngine_of (h : Hw) (n : Nat) (c : Encoder) (m : Nat) : (h.setEncoder n c).dmaEngine m = h.dmaEngine m := rfl
@[simp] theorem Hw.setEncoder_lineChan_of (h : Hw) (n : Nat) (c : Encoder) (m : Nat) : (h.setEncoder n c).lineChan m = h.lineChan m := rfl
@[simp] theorem Hw.setEncoder_func_of (h : Hw) (n : Nat) (c : Encoder) (m : Nat) : (h.setEncoder n c).func m = h.func m := rfl
@[simp] theorem Hw.setEncoder_port_of (h : Hw) (n : Nat) (c : Encoder) (m : Nat) : (h.setEncoder n c).port m = h.port m := rfl
@[simp] theorem Hw.setEncoder_output_of (h : Hw) (n : Nat) (c : Encoder) (m : Nat) : (h.setEncoder n c).output m = h.output m := rfl
@[simp] theorem Hw.setEncoder_ethPort_of (h : Hw) (n : Nat) (c : Encoder) (m : Nat) : (h.setEncoder n c).ethPort m = h.ethPort m := rfl
@[simp] theorem Hw.setEncoder_link_of (h : Hw) (n : Nat) (c : Encoder) (m : Nat) : (h.setEncoder n c).link m = h.link m := rfl
@[simp] theorem Hw.setEncoder_unitRec_of (h : Hw) (n : Nat) (c : Encoder) (m : Nat) : (h.setEncoder n c).unitRec m = h.unitRec m := rfl
@[simp] theorem Hw.setEncoder_cage_of (h : Hw) (n : Nat) (c : Encoder) (m : Nat) : (h.setEncoder n c).cage m = h.cage m := rfl
@[simp] theorem Hw.setEncoder_gran_of (h : Hw) (n : Nat) (c : Encoder) (m : Nat) : (h.setEncoder n c).gran m = h.gran m := rfl
@[simp] theorem Hw.setEncoder_reg_of (h : Hw) (n : Nat) (c : Encoder) (m : Nat) : (h.setEncoder n c).reg m = h.reg m := rfl
@[simp] theorem Hw.setEncoder_actReg_of (h : Hw) (n : Nat) (c : Encoder) (m : Nat) : (h.setEncoder n c).actReg m = h.actReg m := rfl
@[simp] theorem Hw.setEncoder_ring_of (h : Hw) (n : Nat) (c : Encoder) (r : RingId) : (h.setEncoder n c).ring r = h.ring r := by cases r <;> rfl
@[simp] theorem Hw.setEncoder_engine_of (h : Hw) (n : Nat) (c : Encoder) (e : Engine) : (h.setEncoder n c).engine e = h.engine e := by cases e <;> rfl
@[simp] theorem Hw.setOutput_ctx_of (h : Hw) (n : Nat) (c : Output) (m : Nat) : (h.setOutput n c).ctx m = h.ctx m := rfl
@[simp] theorem Hw.setOutput_core_of (h : Hw) (n : Nat) (c : Output) (m : Nat) : (h.setOutput n c).core m = h.core m := rfl
@[simp] theorem Hw.setOutput_array_of (h : Hw) (n : Nat) (c : Output) (m : Nat) : (h.setOutput n c).array m = h.array m := rfl
@[simp] theorem Hw.setOutput_counter_of (h : Hw) (n : Nat) (c : Output) (m : Nat) : (h.setOutput n c).counter m = h.counter m := rfl
@[simp] theorem Hw.setOutput_channel_of (h : Hw) (n : Nat) (c : Output) (m : Nat) : (h.setOutput n c).channel m = h.channel m := rfl
@[simp] theorem Hw.setOutput_dmaChan_of (h : Hw) (n : Nat) (c : Output) (m : Nat) : (h.setOutput n c).dmaChan m = h.dmaChan m := rfl
@[simp] theorem Hw.setOutput_dmaEngine_of (h : Hw) (n : Nat) (c : Output) (m : Nat) : (h.setOutput n c).dmaEngine m = h.dmaEngine m := rfl
@[simp] theorem Hw.setOutput_lineChan_of (h : Hw) (n : Nat) (c : Output) (m : Nat) : (h.setOutput n c).lineChan m = h.lineChan m := rfl
@[simp] theorem Hw.setOutput_func_of (h : Hw) (n : Nat) (c : Output) (m : Nat) : (h.setOutput n c).func m = h.func m := rfl
@[simp] theorem Hw.setOutput_port_of (h : Hw) (n : Nat) (c : Output) (m : Nat) : (h.setOutput n c).port m = h.port m := rfl
@[simp] theorem Hw.setOutput_encoder_of (h : Hw) (n : Nat) (c : Output) (m : Nat) : (h.setOutput n c).encoder m = h.encoder m := rfl
@[simp] theorem Hw.setOutput_ethPort_of (h : Hw) (n : Nat) (c : Output) (m : Nat) : (h.setOutput n c).ethPort m = h.ethPort m := rfl
@[simp] theorem Hw.setOutput_link_of (h : Hw) (n : Nat) (c : Output) (m : Nat) : (h.setOutput n c).link m = h.link m := rfl
@[simp] theorem Hw.setOutput_unitRec_of (h : Hw) (n : Nat) (c : Output) (m : Nat) : (h.setOutput n c).unitRec m = h.unitRec m := rfl
@[simp] theorem Hw.setOutput_cage_of (h : Hw) (n : Nat) (c : Output) (m : Nat) : (h.setOutput n c).cage m = h.cage m := rfl
@[simp] theorem Hw.setOutput_gran_of (h : Hw) (n : Nat) (c : Output) (m : Nat) : (h.setOutput n c).gran m = h.gran m := rfl
@[simp] theorem Hw.setOutput_reg_of (h : Hw) (n : Nat) (c : Output) (m : Nat) : (h.setOutput n c).reg m = h.reg m := rfl
@[simp] theorem Hw.setOutput_actReg_of (h : Hw) (n : Nat) (c : Output) (m : Nat) : (h.setOutput n c).actReg m = h.actReg m := rfl
@[simp] theorem Hw.setOutput_ring_of (h : Hw) (n : Nat) (c : Output) (r : RingId) : (h.setOutput n c).ring r = h.ring r := by cases r <;> rfl
@[simp] theorem Hw.setOutput_engine_of (h : Hw) (n : Nat) (c : Output) (e : Engine) : (h.setOutput n c).engine e = h.engine e := by cases e <;> rfl
@[simp] theorem Hw.setEthPort_ctx_of (h : Hw) (n : Nat) (c : EthPort) (m : Nat) : (h.setEthPort n c).ctx m = h.ctx m := rfl
@[simp] theorem Hw.setEthPort_core_of (h : Hw) (n : Nat) (c : EthPort) (m : Nat) : (h.setEthPort n c).core m = h.core m := rfl
@[simp] theorem Hw.setEthPort_array_of (h : Hw) (n : Nat) (c : EthPort) (m : Nat) : (h.setEthPort n c).array m = h.array m := rfl
@[simp] theorem Hw.setEthPort_counter_of (h : Hw) (n : Nat) (c : EthPort) (m : Nat) : (h.setEthPort n c).counter m = h.counter m := rfl
@[simp] theorem Hw.setEthPort_channel_of (h : Hw) (n : Nat) (c : EthPort) (m : Nat) : (h.setEthPort n c).channel m = h.channel m := rfl
@[simp] theorem Hw.setEthPort_dmaChan_of (h : Hw) (n : Nat) (c : EthPort) (m : Nat) : (h.setEthPort n c).dmaChan m = h.dmaChan m := rfl
@[simp] theorem Hw.setEthPort_dmaEngine_of (h : Hw) (n : Nat) (c : EthPort) (m : Nat) : (h.setEthPort n c).dmaEngine m = h.dmaEngine m := rfl
@[simp] theorem Hw.setEthPort_lineChan_of (h : Hw) (n : Nat) (c : EthPort) (m : Nat) : (h.setEthPort n c).lineChan m = h.lineChan m := rfl
@[simp] theorem Hw.setEthPort_func_of (h : Hw) (n : Nat) (c : EthPort) (m : Nat) : (h.setEthPort n c).func m = h.func m := rfl
@[simp] theorem Hw.setEthPort_port_of (h : Hw) (n : Nat) (c : EthPort) (m : Nat) : (h.setEthPort n c).port m = h.port m := rfl
@[simp] theorem Hw.setEthPort_encoder_of (h : Hw) (n : Nat) (c : EthPort) (m : Nat) : (h.setEthPort n c).encoder m = h.encoder m := rfl
@[simp] theorem Hw.setEthPort_output_of (h : Hw) (n : Nat) (c : EthPort) (m : Nat) : (h.setEthPort n c).output m = h.output m := rfl
@[simp] theorem Hw.setEthPort_link_of (h : Hw) (n : Nat) (c : EthPort) (m : Nat) : (h.setEthPort n c).link m = h.link m := rfl
@[simp] theorem Hw.setEthPort_unitRec_of (h : Hw) (n : Nat) (c : EthPort) (m : Nat) : (h.setEthPort n c).unitRec m = h.unitRec m := rfl
@[simp] theorem Hw.setEthPort_cage_of (h : Hw) (n : Nat) (c : EthPort) (m : Nat) : (h.setEthPort n c).cage m = h.cage m := rfl
@[simp] theorem Hw.setEthPort_gran_of (h : Hw) (n : Nat) (c : EthPort) (m : Nat) : (h.setEthPort n c).gran m = h.gran m := rfl
@[simp] theorem Hw.setEthPort_reg_of (h : Hw) (n : Nat) (c : EthPort) (m : Nat) : (h.setEthPort n c).reg m = h.reg m := rfl
@[simp] theorem Hw.setEthPort_actReg_of (h : Hw) (n : Nat) (c : EthPort) (m : Nat) : (h.setEthPort n c).actReg m = h.actReg m := rfl
@[simp] theorem Hw.setEthPort_ring_of (h : Hw) (n : Nat) (c : EthPort) (r : RingId) : (h.setEthPort n c).ring r = h.ring r := by cases r <;> rfl
@[simp] theorem Hw.setEthPort_engine_of (h : Hw) (n : Nat) (c : EthPort) (e : Engine) : (h.setEthPort n c).engine e = h.engine e := by cases e <;> rfl
@[simp] theorem Hw.setLink_ctx_of (h : Hw) (n : Nat) (c : Link) (m : Nat) : (h.setLink n c).ctx m = h.ctx m := rfl
@[simp] theorem Hw.setLink_core_of (h : Hw) (n : Nat) (c : Link) (m : Nat) : (h.setLink n c).core m = h.core m := rfl
@[simp] theorem Hw.setLink_array_of (h : Hw) (n : Nat) (c : Link) (m : Nat) : (h.setLink n c).array m = h.array m := rfl
@[simp] theorem Hw.setLink_counter_of (h : Hw) (n : Nat) (c : Link) (m : Nat) : (h.setLink n c).counter m = h.counter m := rfl
@[simp] theorem Hw.setLink_channel_of (h : Hw) (n : Nat) (c : Link) (m : Nat) : (h.setLink n c).channel m = h.channel m := rfl
@[simp] theorem Hw.setLink_dmaChan_of (h : Hw) (n : Nat) (c : Link) (m : Nat) : (h.setLink n c).dmaChan m = h.dmaChan m := rfl
@[simp] theorem Hw.setLink_dmaEngine_of (h : Hw) (n : Nat) (c : Link) (m : Nat) : (h.setLink n c).dmaEngine m = h.dmaEngine m := rfl
@[simp] theorem Hw.setLink_lineChan_of (h : Hw) (n : Nat) (c : Link) (m : Nat) : (h.setLink n c).lineChan m = h.lineChan m := rfl
@[simp] theorem Hw.setLink_func_of (h : Hw) (n : Nat) (c : Link) (m : Nat) : (h.setLink n c).func m = h.func m := rfl
@[simp] theorem Hw.setLink_port_of (h : Hw) (n : Nat) (c : Link) (m : Nat) : (h.setLink n c).port m = h.port m := rfl
@[simp] theorem Hw.setLink_encoder_of (h : Hw) (n : Nat) (c : Link) (m : Nat) : (h.setLink n c).encoder m = h.encoder m := rfl
@[simp] theorem Hw.setLink_output_of (h : Hw) (n : Nat) (c : Link) (m : Nat) : (h.setLink n c).output m = h.output m := rfl
@[simp] theorem Hw.setLink_ethPort_of (h : Hw) (n : Nat) (c : Link) (m : Nat) : (h.setLink n c).ethPort m = h.ethPort m := rfl
@[simp] theorem Hw.setLink_unitRec_of (h : Hw) (n : Nat) (c : Link) (m : Nat) : (h.setLink n c).unitRec m = h.unitRec m := rfl
@[simp] theorem Hw.setLink_cage_of (h : Hw) (n : Nat) (c : Link) (m : Nat) : (h.setLink n c).cage m = h.cage m := rfl
@[simp] theorem Hw.setLink_gran_of (h : Hw) (n : Nat) (c : Link) (m : Nat) : (h.setLink n c).gran m = h.gran m := rfl
@[simp] theorem Hw.setLink_reg_of (h : Hw) (n : Nat) (c : Link) (m : Nat) : (h.setLink n c).reg m = h.reg m := rfl
@[simp] theorem Hw.setLink_actReg_of (h : Hw) (n : Nat) (c : Link) (m : Nat) : (h.setLink n c).actReg m = h.actReg m := rfl
@[simp] theorem Hw.setLink_ring_of (h : Hw) (n : Nat) (c : Link) (r : RingId) : (h.setLink n c).ring r = h.ring r := by cases r <;> rfl
@[simp] theorem Hw.setLink_engine_of (h : Hw) (n : Nat) (c : Link) (e : Engine) : (h.setLink n c).engine e = h.engine e := by cases e <;> rfl
@[simp] theorem Hw.setUnitRec_ctx_of (h : Hw) (n : Nat) (c : UnitRec) (m : Nat) : (h.setUnitRec n c).ctx m = h.ctx m := rfl
@[simp] theorem Hw.setUnitRec_core_of (h : Hw) (n : Nat) (c : UnitRec) (m : Nat) : (h.setUnitRec n c).core m = h.core m := rfl
@[simp] theorem Hw.setUnitRec_array_of (h : Hw) (n : Nat) (c : UnitRec) (m : Nat) : (h.setUnitRec n c).array m = h.array m := rfl
@[simp] theorem Hw.setUnitRec_counter_of (h : Hw) (n : Nat) (c : UnitRec) (m : Nat) : (h.setUnitRec n c).counter m = h.counter m := rfl
@[simp] theorem Hw.setUnitRec_channel_of (h : Hw) (n : Nat) (c : UnitRec) (m : Nat) : (h.setUnitRec n c).channel m = h.channel m := rfl
@[simp] theorem Hw.setUnitRec_dmaChan_of (h : Hw) (n : Nat) (c : UnitRec) (m : Nat) : (h.setUnitRec n c).dmaChan m = h.dmaChan m := rfl
@[simp] theorem Hw.setUnitRec_dmaEngine_of (h : Hw) (n : Nat) (c : UnitRec) (m : Nat) : (h.setUnitRec n c).dmaEngine m = h.dmaEngine m := rfl
@[simp] theorem Hw.setUnitRec_lineChan_of (h : Hw) (n : Nat) (c : UnitRec) (m : Nat) : (h.setUnitRec n c).lineChan m = h.lineChan m := rfl
@[simp] theorem Hw.setUnitRec_func_of (h : Hw) (n : Nat) (c : UnitRec) (m : Nat) : (h.setUnitRec n c).func m = h.func m := rfl
@[simp] theorem Hw.setUnitRec_port_of (h : Hw) (n : Nat) (c : UnitRec) (m : Nat) : (h.setUnitRec n c).port m = h.port m := rfl
@[simp] theorem Hw.setUnitRec_encoder_of (h : Hw) (n : Nat) (c : UnitRec) (m : Nat) : (h.setUnitRec n c).encoder m = h.encoder m := rfl
@[simp] theorem Hw.setUnitRec_output_of (h : Hw) (n : Nat) (c : UnitRec) (m : Nat) : (h.setUnitRec n c).output m = h.output m := rfl
@[simp] theorem Hw.setUnitRec_ethPort_of (h : Hw) (n : Nat) (c : UnitRec) (m : Nat) : (h.setUnitRec n c).ethPort m = h.ethPort m := rfl
@[simp] theorem Hw.setUnitRec_link_of (h : Hw) (n : Nat) (c : UnitRec) (m : Nat) : (h.setUnitRec n c).link m = h.link m := rfl
@[simp] theorem Hw.setUnitRec_cage_of (h : Hw) (n : Nat) (c : UnitRec) (m : Nat) : (h.setUnitRec n c).cage m = h.cage m := rfl
@[simp] theorem Hw.setUnitRec_gran_of (h : Hw) (n : Nat) (c : UnitRec) (m : Nat) : (h.setUnitRec n c).gran m = h.gran m := rfl
@[simp] theorem Hw.setUnitRec_reg_of (h : Hw) (n : Nat) (c : UnitRec) (m : Nat) : (h.setUnitRec n c).reg m = h.reg m := rfl
@[simp] theorem Hw.setUnitRec_actReg_of (h : Hw) (n : Nat) (c : UnitRec) (m : Nat) : (h.setUnitRec n c).actReg m = h.actReg m := rfl
@[simp] theorem Hw.setUnitRec_ring_of (h : Hw) (n : Nat) (c : UnitRec) (r : RingId) : (h.setUnitRec n c).ring r = h.ring r := by cases r <;> rfl
@[simp] theorem Hw.setUnitRec_engine_of (h : Hw) (n : Nat) (c : UnitRec) (e : Engine) : (h.setUnitRec n c).engine e = h.engine e := by cases e <;> rfl
@[simp] theorem Hw.setCage_ctx_of (h : Hw) (n : Nat) (c : Cage) (m : Nat) : (h.setCage n c).ctx m = h.ctx m := rfl
@[simp] theorem Hw.setCage_core_of (h : Hw) (n : Nat) (c : Cage) (m : Nat) : (h.setCage n c).core m = h.core m := rfl
@[simp] theorem Hw.setCage_array_of (h : Hw) (n : Nat) (c : Cage) (m : Nat) : (h.setCage n c).array m = h.array m := rfl
@[simp] theorem Hw.setCage_counter_of (h : Hw) (n : Nat) (c : Cage) (m : Nat) : (h.setCage n c).counter m = h.counter m := rfl
@[simp] theorem Hw.setCage_channel_of (h : Hw) (n : Nat) (c : Cage) (m : Nat) : (h.setCage n c).channel m = h.channel m := rfl
@[simp] theorem Hw.setCage_dmaChan_of (h : Hw) (n : Nat) (c : Cage) (m : Nat) : (h.setCage n c).dmaChan m = h.dmaChan m := rfl
@[simp] theorem Hw.setCage_dmaEngine_of (h : Hw) (n : Nat) (c : Cage) (m : Nat) : (h.setCage n c).dmaEngine m = h.dmaEngine m := rfl
@[simp] theorem Hw.setCage_lineChan_of (h : Hw) (n : Nat) (c : Cage) (m : Nat) : (h.setCage n c).lineChan m = h.lineChan m := rfl
@[simp] theorem Hw.setCage_func_of (h : Hw) (n : Nat) (c : Cage) (m : Nat) : (h.setCage n c).func m = h.func m := rfl
@[simp] theorem Hw.setCage_port_of (h : Hw) (n : Nat) (c : Cage) (m : Nat) : (h.setCage n c).port m = h.port m := rfl
@[simp] theorem Hw.setCage_encoder_of (h : Hw) (n : Nat) (c : Cage) (m : Nat) : (h.setCage n c).encoder m = h.encoder m := rfl
@[simp] theorem Hw.setCage_output_of (h : Hw) (n : Nat) (c : Cage) (m : Nat) : (h.setCage n c).output m = h.output m := rfl
@[simp] theorem Hw.setCage_ethPort_of (h : Hw) (n : Nat) (c : Cage) (m : Nat) : (h.setCage n c).ethPort m = h.ethPort m := rfl
@[simp] theorem Hw.setCage_link_of (h : Hw) (n : Nat) (c : Cage) (m : Nat) : (h.setCage n c).link m = h.link m := rfl
@[simp] theorem Hw.setCage_unitRec_of (h : Hw) (n : Nat) (c : Cage) (m : Nat) : (h.setCage n c).unitRec m = h.unitRec m := rfl
@[simp] theorem Hw.setCage_gran_of (h : Hw) (n : Nat) (c : Cage) (m : Nat) : (h.setCage n c).gran m = h.gran m := rfl
@[simp] theorem Hw.setCage_reg_of (h : Hw) (n : Nat) (c : Cage) (m : Nat) : (h.setCage n c).reg m = h.reg m := rfl
@[simp] theorem Hw.setCage_actReg_of (h : Hw) (n : Nat) (c : Cage) (m : Nat) : (h.setCage n c).actReg m = h.actReg m := rfl
@[simp] theorem Hw.setCage_ring_of (h : Hw) (n : Nat) (c : Cage) (r : RingId) : (h.setCage n c).ring r = h.ring r := by cases r <;> rfl
@[simp] theorem Hw.setCage_engine_of (h : Hw) (n : Nat) (c : Cage) (e : Engine) : (h.setCage n c).engine e = h.engine e := by cases e <;> rfl
@[simp] theorem Hw.setGran_ctx_of (h : Hw) (n : Nat) (c : Gran) (m : Nat) : (h.setGran n c).ctx m = h.ctx m := rfl
@[simp] theorem Hw.setGran_core_of (h : Hw) (n : Nat) (c : Gran) (m : Nat) : (h.setGran n c).core m = h.core m := rfl
@[simp] theorem Hw.setGran_array_of (h : Hw) (n : Nat) (c : Gran) (m : Nat) : (h.setGran n c).array m = h.array m := rfl
@[simp] theorem Hw.setGran_counter_of (h : Hw) (n : Nat) (c : Gran) (m : Nat) : (h.setGran n c).counter m = h.counter m := rfl
@[simp] theorem Hw.setGran_channel_of (h : Hw) (n : Nat) (c : Gran) (m : Nat) : (h.setGran n c).channel m = h.channel m := rfl
@[simp] theorem Hw.setGran_dmaChan_of (h : Hw) (n : Nat) (c : Gran) (m : Nat) : (h.setGran n c).dmaChan m = h.dmaChan m := rfl
@[simp] theorem Hw.setGran_dmaEngine_of (h : Hw) (n : Nat) (c : Gran) (m : Nat) : (h.setGran n c).dmaEngine m = h.dmaEngine m := rfl
@[simp] theorem Hw.setGran_lineChan_of (h : Hw) (n : Nat) (c : Gran) (m : Nat) : (h.setGran n c).lineChan m = h.lineChan m := rfl
@[simp] theorem Hw.setGran_func_of (h : Hw) (n : Nat) (c : Gran) (m : Nat) : (h.setGran n c).func m = h.func m := rfl
@[simp] theorem Hw.setGran_port_of (h : Hw) (n : Nat) (c : Gran) (m : Nat) : (h.setGran n c).port m = h.port m := rfl
@[simp] theorem Hw.setGran_encoder_of (h : Hw) (n : Nat) (c : Gran) (m : Nat) : (h.setGran n c).encoder m = h.encoder m := rfl
@[simp] theorem Hw.setGran_output_of (h : Hw) (n : Nat) (c : Gran) (m : Nat) : (h.setGran n c).output m = h.output m := rfl
@[simp] theorem Hw.setGran_ethPort_of (h : Hw) (n : Nat) (c : Gran) (m : Nat) : (h.setGran n c).ethPort m = h.ethPort m := rfl
@[simp] theorem Hw.setGran_link_of (h : Hw) (n : Nat) (c : Gran) (m : Nat) : (h.setGran n c).link m = h.link m := rfl
@[simp] theorem Hw.setGran_unitRec_of (h : Hw) (n : Nat) (c : Gran) (m : Nat) : (h.setGran n c).unitRec m = h.unitRec m := rfl
@[simp] theorem Hw.setGran_cage_of (h : Hw) (n : Nat) (c : Gran) (m : Nat) : (h.setGran n c).cage m = h.cage m := rfl
@[simp] theorem Hw.setGran_reg_of (h : Hw) (n : Nat) (c : Gran) (m : Nat) : (h.setGran n c).reg m = h.reg m := rfl
@[simp] theorem Hw.setGran_actReg_of (h : Hw) (n : Nat) (c : Gran) (m : Nat) : (h.setGran n c).actReg m = h.actReg m := rfl
@[simp] theorem Hw.setGran_ring_of (h : Hw) (n : Nat) (c : Gran) (r : RingId) : (h.setGran n c).ring r = h.ring r := by cases r <;> rfl
@[simp] theorem Hw.setGran_engine_of (h : Hw) (n : Nat) (c : Gran) (e : Engine) : (h.setGran n c).engine e = h.engine e := by cases e <;> rfl
@[simp] theorem Hw.setReg_ctx_of (h : Hw) (n : Nat) (c : Word) (m : Nat) : (h.setReg n c).ctx m = h.ctx m := rfl
@[simp] theorem Hw.setReg_core_of (h : Hw) (n : Nat) (c : Word) (m : Nat) : (h.setReg n c).core m = h.core m := rfl
@[simp] theorem Hw.setReg_array_of (h : Hw) (n : Nat) (c : Word) (m : Nat) : (h.setReg n c).array m = h.array m := rfl
@[simp] theorem Hw.setReg_counter_of (h : Hw) (n : Nat) (c : Word) (m : Nat) : (h.setReg n c).counter m = h.counter m := rfl
@[simp] theorem Hw.setReg_channel_of (h : Hw) (n : Nat) (c : Word) (m : Nat) : (h.setReg n c).channel m = h.channel m := rfl
@[simp] theorem Hw.setReg_dmaChan_of (h : Hw) (n : Nat) (c : Word) (m : Nat) : (h.setReg n c).dmaChan m = h.dmaChan m := rfl
@[simp] theorem Hw.setReg_dmaEngine_of (h : Hw) (n : Nat) (c : Word) (m : Nat) : (h.setReg n c).dmaEngine m = h.dmaEngine m := rfl
@[simp] theorem Hw.setReg_lineChan_of (h : Hw) (n : Nat) (c : Word) (m : Nat) : (h.setReg n c).lineChan m = h.lineChan m := rfl
@[simp] theorem Hw.setReg_func_of (h : Hw) (n : Nat) (c : Word) (m : Nat) : (h.setReg n c).func m = h.func m := rfl
@[simp] theorem Hw.setReg_port_of (h : Hw) (n : Nat) (c : Word) (m : Nat) : (h.setReg n c).port m = h.port m := rfl
@[simp] theorem Hw.setReg_encoder_of (h : Hw) (n : Nat) (c : Word) (m : Nat) : (h.setReg n c).encoder m = h.encoder m := rfl
@[simp] theorem Hw.setReg_output_of (h : Hw) (n : Nat) (c : Word) (m : Nat) : (h.setReg n c).output m = h.output m := rfl
@[simp] theorem Hw.setReg_ethPort_of (h : Hw) (n : Nat) (c : Word) (m : Nat) : (h.setReg n c).ethPort m = h.ethPort m := rfl
@[simp] theorem Hw.setReg_link_of (h : Hw) (n : Nat) (c : Word) (m : Nat) : (h.setReg n c).link m = h.link m := rfl
@[simp] theorem Hw.setReg_unitRec_of (h : Hw) (n : Nat) (c : Word) (m : Nat) : (h.setReg n c).unitRec m = h.unitRec m := rfl
@[simp] theorem Hw.setReg_cage_of (h : Hw) (n : Nat) (c : Word) (m : Nat) : (h.setReg n c).cage m = h.cage m := rfl
@[simp] theorem Hw.setReg_gran_of (h : Hw) (n : Nat) (c : Word) (m : Nat) : (h.setReg n c).gran m = h.gran m := rfl
@[simp] theorem Hw.setReg_actReg_of (h : Hw) (n : Nat) (c : Word) (m : Nat) : (h.setReg n c).actReg m = h.actReg m := rfl
@[simp] theorem Hw.setReg_ring_of (h : Hw) (n : Nat) (c : Word) (r : RingId) : (h.setReg n c).ring r = h.ring r := by cases r <;> rfl
@[simp] theorem Hw.setReg_engine_of (h : Hw) (n : Nat) (c : Word) (e : Engine) : (h.setReg n c).engine e = h.engine e := by cases e <;> rfl
@[simp] theorem Hw.setRing_ctx_of (h : Hw) (r : RingId) (x : Ring) (m : Nat) : (h.setRing r x).ctx m = h.ctx m := by cases r <;> rfl
@[simp] theorem Hw.setEngine_ctx_of (h : Hw) (e : Engine) (w : WinEngine) (m : Nat) : (h.setEngine e w).ctx m = h.ctx m := by cases e <;> rfl
@[simp] theorem Hw.setRing_core_of (h : Hw) (r : RingId) (x : Ring) (m : Nat) : (h.setRing r x).core m = h.core m := by cases r <;> rfl
@[simp] theorem Hw.setEngine_core_of (h : Hw) (e : Engine) (w : WinEngine) (m : Nat) : (h.setEngine e w).core m = h.core m := by cases e <;> rfl
@[simp] theorem Hw.setRing_array_of (h : Hw) (r : RingId) (x : Ring) (m : Nat) : (h.setRing r x).array m = h.array m := by cases r <;> rfl
@[simp] theorem Hw.setEngine_array_of (h : Hw) (e : Engine) (w : WinEngine) (m : Nat) : (h.setEngine e w).array m = h.array m := by cases e <;> rfl
@[simp] theorem Hw.setRing_counter_of (h : Hw) (r : RingId) (x : Ring) (m : Nat) : (h.setRing r x).counter m = h.counter m := by cases r <;> rfl
@[simp] theorem Hw.setEngine_counter_of (h : Hw) (e : Engine) (w : WinEngine) (m : Nat) : (h.setEngine e w).counter m = h.counter m := by cases e <;> rfl
@[simp] theorem Hw.setRing_channel_of (h : Hw) (r : RingId) (x : Ring) (m : Nat) : (h.setRing r x).channel m = h.channel m := by cases r <;> rfl
@[simp] theorem Hw.setEngine_channel_of (h : Hw) (e : Engine) (w : WinEngine) (m : Nat) : (h.setEngine e w).channel m = h.channel m := by cases e <;> rfl
@[simp] theorem Hw.setRing_dmaChan_of (h : Hw) (r : RingId) (x : Ring) (m : Nat) : (h.setRing r x).dmaChan m = h.dmaChan m := by cases r <;> rfl
@[simp] theorem Hw.setEngine_dmaChan_of (h : Hw) (e : Engine) (w : WinEngine) (m : Nat) : (h.setEngine e w).dmaChan m = h.dmaChan m := by cases e <;> rfl
@[simp] theorem Hw.setRing_dmaEngine_of (h : Hw) (r : RingId) (x : Ring) (m : Nat) : (h.setRing r x).dmaEngine m = h.dmaEngine m := by cases r <;> rfl
@[simp] theorem Hw.setEngine_dmaEngine_of (h : Hw) (e : Engine) (w : WinEngine) (m : Nat) : (h.setEngine e w).dmaEngine m = h.dmaEngine m := by cases e <;> rfl
@[simp] theorem Hw.setRing_lineChan_of (h : Hw) (r : RingId) (x : Ring) (m : Nat) : (h.setRing r x).lineChan m = h.lineChan m := by cases r <;> rfl
@[simp] theorem Hw.setEngine_lineChan_of (h : Hw) (e : Engine) (w : WinEngine) (m : Nat) : (h.setEngine e w).lineChan m = h.lineChan m := by cases e <;> rfl
@[simp] theorem Hw.setRing_func_of (h : Hw) (r : RingId) (x : Ring) (m : Nat) : (h.setRing r x).func m = h.func m := by cases r <;> rfl
@[simp] theorem Hw.setEngine_func_of (h : Hw) (e : Engine) (w : WinEngine) (m : Nat) : (h.setEngine e w).func m = h.func m := by cases e <;> rfl
@[simp] theorem Hw.setRing_port_of (h : Hw) (r : RingId) (x : Ring) (m : Nat) : (h.setRing r x).port m = h.port m := by cases r <;> rfl
@[simp] theorem Hw.setEngine_port_of (h : Hw) (e : Engine) (w : WinEngine) (m : Nat) : (h.setEngine e w).port m = h.port m := by cases e <;> rfl
@[simp] theorem Hw.setRing_encoder_of (h : Hw) (r : RingId) (x : Ring) (m : Nat) : (h.setRing r x).encoder m = h.encoder m := by cases r <;> rfl
@[simp] theorem Hw.setEngine_encoder_of (h : Hw) (e : Engine) (w : WinEngine) (m : Nat) : (h.setEngine e w).encoder m = h.encoder m := by cases e <;> rfl
@[simp] theorem Hw.setRing_output_of (h : Hw) (r : RingId) (x : Ring) (m : Nat) : (h.setRing r x).output m = h.output m := by cases r <;> rfl
@[simp] theorem Hw.setEngine_output_of (h : Hw) (e : Engine) (w : WinEngine) (m : Nat) : (h.setEngine e w).output m = h.output m := by cases e <;> rfl
@[simp] theorem Hw.setRing_ethPort_of (h : Hw) (r : RingId) (x : Ring) (m : Nat) : (h.setRing r x).ethPort m = h.ethPort m := by cases r <;> rfl
@[simp] theorem Hw.setEngine_ethPort_of (h : Hw) (e : Engine) (w : WinEngine) (m : Nat) : (h.setEngine e w).ethPort m = h.ethPort m := by cases e <;> rfl
@[simp] theorem Hw.setRing_link_of (h : Hw) (r : RingId) (x : Ring) (m : Nat) : (h.setRing r x).link m = h.link m := by cases r <;> rfl
@[simp] theorem Hw.setEngine_link_of (h : Hw) (e : Engine) (w : WinEngine) (m : Nat) : (h.setEngine e w).link m = h.link m := by cases e <;> rfl
@[simp] theorem Hw.setRing_unitRec_of (h : Hw) (r : RingId) (x : Ring) (m : Nat) : (h.setRing r x).unitRec m = h.unitRec m := by cases r <;> rfl
@[simp] theorem Hw.setEngine_unitRec_of (h : Hw) (e : Engine) (w : WinEngine) (m : Nat) : (h.setEngine e w).unitRec m = h.unitRec m := by cases e <;> rfl
@[simp] theorem Hw.setRing_cage_of (h : Hw) (r : RingId) (x : Ring) (m : Nat) : (h.setRing r x).cage m = h.cage m := by cases r <;> rfl
@[simp] theorem Hw.setEngine_cage_of (h : Hw) (e : Engine) (w : WinEngine) (m : Nat) : (h.setEngine e w).cage m = h.cage m := by cases e <;> rfl
@[simp] theorem Hw.setRing_gran_of (h : Hw) (r : RingId) (x : Ring) (m : Nat) : (h.setRing r x).gran m = h.gran m := by cases r <;> rfl
@[simp] theorem Hw.setEngine_gran_of (h : Hw) (e : Engine) (w : WinEngine) (m : Nat) : (h.setEngine e w).gran m = h.gran m := by cases e <;> rfl
@[simp] theorem Hw.setRing_reg_of (h : Hw) (r : RingId) (x : Ring) (m : Nat) : (h.setRing r x).reg m = h.reg m := by cases r <;> rfl
@[simp] theorem Hw.setEngine_reg_of (h : Hw) (e : Engine) (w : WinEngine) (m : Nat) : (h.setEngine e w).reg m = h.reg m := by cases e <;> rfl
@[simp] theorem Hw.setRing_actReg_of (h : Hw) (r : RingId) (x : Ring) (m : Nat) : (h.setRing r x).actReg m = h.actReg m := by cases r <;> rfl
@[simp] theorem Hw.setEngine_actReg_of (h : Hw) (e : Engine) (w : WinEngine) (m : Nat) : (h.setEngine e w).actReg m = h.actReg m := by cases e <;> rfl

/-! ### `Core.putS` -/

@[simp] theorem Core.putS_getS_same (c : Core) (i : Nat) (v : Word) : (c.putS i v).getS i = v :=
  Tbl.get_set_same _ _ _ _

theorem Core.putS_getS_other (c : Core) (i j : Nat) (v : Word) (hj : j ≠ i) : (c.putS i v).getS j = c.getS j :=
  Tbl.get_set_other _ _ _ hj

@[simp] theorem Core.putS_run (c : Core) (i : Nat) (v : Word) : (c.putS i v).run = c.run := rfl
@[simp] theorem Core.putS_ran (c : Core) (i : Nat) (v : Word) : (c.putS i v).ran = c.ran := rfl
@[simp] theorem Core.putS_halted (c : Core) (i : Nat) (v : Word) : (c.putS i v).halted = c.halted := rfl
@[simp] theorem Core.putS_slot (c : Core) (i : Nat) (v : Word) : (c.putS i v).slot = c.slot := rfl
@[simp] theorem Core.putS_job (c : Core) (i : Nat) (v : Word) : (c.putS i v).job = c.job := rfl
@[simp] theorem Core.putS_half (c : Core) (i : Nat) (v : Word) : (c.putS i v).half = c.half := rfl
@[simp] theorem Core.putS_rank (c : Core) (i : Nat) (v : Word) : (c.putS i v).rank = c.rank := rfl
@[simp] theorem Core.putS_cores (c : Core) (i : Nat) (v : Word) : (c.putS i v).cores = c.cores := rfl
@[simp] theorem Core.putS_pc (c : Core) (i : Nat) (v : Word) : (c.putS i v).pc = c.pc := rfl
@[simp] theorem Core.putS_p (c : Core) (i : Nat) (v : Word) : (c.putS i v).p = c.p := rfl
@[simp] theorem Core.putS_g (c : Core) (i : Nat) (v : Word) : (c.putS i v).g = c.g := rfl
@[simp] theorem Core.putS_m (c : Core) (i : Nat) (v : Word) : (c.putS i v).m = c.m := rfl
@[simp] theorem Core.putS_a (c : Core) (i : Nat) (v : Word) : (c.putS i v).a = c.a := rfl
@[simp] theorem Core.putS_lc0 (c : Core) (i : Nat) (v : Word) : (c.putS i v).lc0 = c.lc0 := rfl
@[simp] theorem Core.putS_lc1 (c : Core) (i : Nat) (v : Word) : (c.putS i v).lc1 = c.lc1 := rfl
@[simp] theorem Core.putS_ls0 (c : Core) (i : Nat) (v : Word) : (c.putS i v).ls0 = c.ls0 := rfl
@[simp] theorem Core.putS_ls1 (c : Core) (i : Nat) (v : Word) : (c.putS i v).ls1 = c.ls1 := rfl
@[simp] theorem Core.putS_le0 (c : Core) (i : Nat) (v : Word) : (c.putS i v).le0 = c.le0 := rfl
@[simp] theorem Core.putS_le1 (c : Core) (i : Nat) (v : Word) : (c.putS i v).le1 = c.le1 := rfl
@[simp] theorem Core.putS_late (c : Core) (i : Nat) (v : Word) : (c.putS i v).late = c.late := rfl
@[simp] theorem Core.putS_v (c : Core) (i : Nat) (v : Word) : (c.putS i v).v = c.v := rfl
@[simp] theorem Core.putS_k (c : Core) (i : Nat) (v : Word) : (c.putS i v).k = c.k := rfl
@[simp] theorem Core.putS_w (c : Core) (i : Nat) (v : Word) : (c.putS i v).w = c.w := rfl
@[simp] theorem Core.putS_shadow (c : Core) (i : Nat) (v : Word) : (c.putS i v).shadow = c.shadow := rfl
@[simp] theorem Core.putS_cr (c : Core) (i : Nat) (v : Word) : (c.putS i v).cr = c.cr := rfl
@[simp] theorem Core.putS_ctlNew (c : Core) (i : Nat) (v : Word) : (c.putS i v).ctlNew = c.ctlNew := rfl
@[simp] theorem Core.putS_winNew (c : Core) (i : Nat) (v : Word) : (c.putS i v).winNew = c.winNew := rfl
@[simp] theorem Core.putS_crSnap (c : Core) (i : Nat) (v : Word) : (c.putS i v).crSnap = c.crSnap := rfl
@[simp] theorem Core.putS_crHeld (c : Core) (i : Nat) (v : Word) : (c.putS i v).crHeld = c.crHeld := rfl
@[simp] theorem Core.putS_x (c : Core) (i : Nat) (v : Word) : (c.putS i v).x = c.x := rfl
@[simp] theorem Core.putS_y (c : Core) (i : Nat) (v : Word) : (c.putS i v).y = c.y := rfl
@[simp] theorem Core.putS_pm (c : Core) (i : Nat) (v : Word) : (c.putS i v).pm = c.pm := rfl
@[simp] theorem Core.putS_fetch (c : Core) (i : Nat) (v : Word) : (c.putS i v).fetch = c.fetch := rfl
@[simp] theorem Core.putS_image (c : Core) (i : Nat) (v : Word) : (c.putS i v).image = c.image := rfl
@[simp] theorem Core.putS_rcLoop (c : Core) (i : Nat) (v : Word) : (c.putS i v).rcLoop = c.rcLoop := rfl
@[simp] theorem Core.putS_rcCount (c : Core) (i : Nat) (v : Word) : (c.putS i v).rcCount = c.rcCount := rfl
@[simp] theorem Core.putS_rcFull (c : Core) (i : Nat) (v : Word) : (c.putS i v).rcFull = c.rcFull := rfl
@[simp] theorem Core.putS_tags (c : Core) (i : Nat) (v : Word) : (c.putS i v).tags = c.tags := rfl
@[simp] theorem Core.putS_queue (c : Core) (i : Nat) (v : Word) : (c.putS i v).queue = c.queue := rfl
@[simp] theorem Core.putS_orders (c : Core) (i : Nat) (v : Word) : (c.putS i v).orders = c.orders := rfl
@[simp] theorem Core.putS_tagIssues (c : Core) (i : Nat) (v : Word) : (c.putS i v).tagIssues = c.tagIssues := rfl
@[simp] theorem Core.putS_doneOrders (c : Core) (i : Nat) (v : Word) : (c.putS i v).doneOrders = c.doneOrders := rfl
@[simp] theorem Core.putS_waits (c : Core) (i : Nat) (v : Word) : (c.putS i v).waits = c.waits := rfl
@[simp] theorem Core.putS_synWait (c : Core) (i : Nat) (v : Word) : (c.putS i v).synWait = c.synWait := rfl
@[simp] theorem Core.putS_synEnded (c : Core) (i : Nat) (v : Word) : (c.putS i v).synEnded = c.synEnded := rfl
@[simp] theorem Core.putS_slots (c : Core) (i : Nat) (v : Word) : (c.putS i v).slots = c.slots := rfl
@[simp] theorem Core.putS_stall (c : Core) (i : Nat) (v : Word) : (c.putS i v).stall = c.stall := rfl
@[simp] theorem Core.putS_vrun (c : Core) (i : Nat) (v : Word) : (c.putS i v).vrun = c.vrun := rfl
@[simp] theorem Core.putS_digest (c : Core) (i : Nat) (v : Word) : (c.putS i v).digest = c.digest := rfl
@[simp] theorem Core.putS_cycleFrac (c : Core) (i : Nat) (v : Word) : (c.putS i v).cycleFrac = c.cycleFrac := rfl
@[simp] theorem Core.putS_dbgPc (c : Core) (i : Nat) (v : Word) : (c.putS i v).dbgPc = c.dbgPc := rfl
@[simp] theorem Core.putS_trapped (c : Core) (i : Nat) (v : Word) : (c.putS i v).trapped = c.trapped := rfl
@[simp] theorem Core.putS_waking (c : Core) (i : Nat) (v : Word) : (c.putS i v).waking = c.waking := rfl

/-! ### `Core.putG` -/

@[simp] theorem Core.putG_getG_same (c : Core) (i : Nat) (v : Word) : (c.putG i v).getG i = v :=
  Tbl.get_set_same _ _ _ _

theorem Core.putG_getG_other (c : Core) (i j : Nat) (v : Word) (hj : j ≠ i) : (c.putG i v).getG j = c.getG j :=
  Tbl.get_set_other _ _ _ hj

@[simp] theorem Core.putG_run (c : Core) (i : Nat) (v : Word) : (c.putG i v).run = c.run := rfl
@[simp] theorem Core.putG_ran (c : Core) (i : Nat) (v : Word) : (c.putG i v).ran = c.ran := rfl
@[simp] theorem Core.putG_halted (c : Core) (i : Nat) (v : Word) : (c.putG i v).halted = c.halted := rfl
@[simp] theorem Core.putG_slot (c : Core) (i : Nat) (v : Word) : (c.putG i v).slot = c.slot := rfl
@[simp] theorem Core.putG_job (c : Core) (i : Nat) (v : Word) : (c.putG i v).job = c.job := rfl
@[simp] theorem Core.putG_half (c : Core) (i : Nat) (v : Word) : (c.putG i v).half = c.half := rfl
@[simp] theorem Core.putG_rank (c : Core) (i : Nat) (v : Word) : (c.putG i v).rank = c.rank := rfl
@[simp] theorem Core.putG_cores (c : Core) (i : Nat) (v : Word) : (c.putG i v).cores = c.cores := rfl
@[simp] theorem Core.putG_pc (c : Core) (i : Nat) (v : Word) : (c.putG i v).pc = c.pc := rfl
@[simp] theorem Core.putG_s (c : Core) (i : Nat) (v : Word) : (c.putG i v).s = c.s := rfl
@[simp] theorem Core.putG_p (c : Core) (i : Nat) (v : Word) : (c.putG i v).p = c.p := rfl
@[simp] theorem Core.putG_m (c : Core) (i : Nat) (v : Word) : (c.putG i v).m = c.m := rfl
@[simp] theorem Core.putG_a (c : Core) (i : Nat) (v : Word) : (c.putG i v).a = c.a := rfl
@[simp] theorem Core.putG_lc0 (c : Core) (i : Nat) (v : Word) : (c.putG i v).lc0 = c.lc0 := rfl
@[simp] theorem Core.putG_lc1 (c : Core) (i : Nat) (v : Word) : (c.putG i v).lc1 = c.lc1 := rfl
@[simp] theorem Core.putG_ls0 (c : Core) (i : Nat) (v : Word) : (c.putG i v).ls0 = c.ls0 := rfl
@[simp] theorem Core.putG_ls1 (c : Core) (i : Nat) (v : Word) : (c.putG i v).ls1 = c.ls1 := rfl
@[simp] theorem Core.putG_le0 (c : Core) (i : Nat) (v : Word) : (c.putG i v).le0 = c.le0 := rfl
@[simp] theorem Core.putG_le1 (c : Core) (i : Nat) (v : Word) : (c.putG i v).le1 = c.le1 := rfl
@[simp] theorem Core.putG_late (c : Core) (i : Nat) (v : Word) : (c.putG i v).late = c.late := rfl
@[simp] theorem Core.putG_v (c : Core) (i : Nat) (v : Word) : (c.putG i v).v = c.v := rfl
@[simp] theorem Core.putG_k (c : Core) (i : Nat) (v : Word) : (c.putG i v).k = c.k := rfl
@[simp] theorem Core.putG_w (c : Core) (i : Nat) (v : Word) : (c.putG i v).w = c.w := rfl
@[simp] theorem Core.putG_shadow (c : Core) (i : Nat) (v : Word) : (c.putG i v).shadow = c.shadow := rfl
@[simp] theorem Core.putG_cr (c : Core) (i : Nat) (v : Word) : (c.putG i v).cr = c.cr := rfl
@[simp] theorem Core.putG_ctlNew (c : Core) (i : Nat) (v : Word) : (c.putG i v).ctlNew = c.ctlNew := rfl
@[simp] theorem Core.putG_winNew (c : Core) (i : Nat) (v : Word) : (c.putG i v).winNew = c.winNew := rfl
@[simp] theorem Core.putG_crSnap (c : Core) (i : Nat) (v : Word) : (c.putG i v).crSnap = c.crSnap := rfl
@[simp] theorem Core.putG_crHeld (c : Core) (i : Nat) (v : Word) : (c.putG i v).crHeld = c.crHeld := rfl
@[simp] theorem Core.putG_x (c : Core) (i : Nat) (v : Word) : (c.putG i v).x = c.x := rfl
@[simp] theorem Core.putG_y (c : Core) (i : Nat) (v : Word) : (c.putG i v).y = c.y := rfl
@[simp] theorem Core.putG_pm (c : Core) (i : Nat) (v : Word) : (c.putG i v).pm = c.pm := rfl
@[simp] theorem Core.putG_fetch (c : Core) (i : Nat) (v : Word) : (c.putG i v).fetch = c.fetch := rfl
@[simp] theorem Core.putG_image (c : Core) (i : Nat) (v : Word) : (c.putG i v).image = c.image := rfl
@[simp] theorem Core.putG_rcLoop (c : Core) (i : Nat) (v : Word) : (c.putG i v).rcLoop = c.rcLoop := rfl
@[simp] theorem Core.putG_rcCount (c : Core) (i : Nat) (v : Word) : (c.putG i v).rcCount = c.rcCount := rfl
@[simp] theorem Core.putG_rcFull (c : Core) (i : Nat) (v : Word) : (c.putG i v).rcFull = c.rcFull := rfl
@[simp] theorem Core.putG_tags (c : Core) (i : Nat) (v : Word) : (c.putG i v).tags = c.tags := rfl
@[simp] theorem Core.putG_queue (c : Core) (i : Nat) (v : Word) : (c.putG i v).queue = c.queue := rfl
@[simp] theorem Core.putG_orders (c : Core) (i : Nat) (v : Word) : (c.putG i v).orders = c.orders := rfl
@[simp] theorem Core.putG_tagIssues (c : Core) (i : Nat) (v : Word) : (c.putG i v).tagIssues = c.tagIssues := rfl
@[simp] theorem Core.putG_doneOrders (c : Core) (i : Nat) (v : Word) : (c.putG i v).doneOrders = c.doneOrders := rfl
@[simp] theorem Core.putG_waits (c : Core) (i : Nat) (v : Word) : (c.putG i v).waits = c.waits := rfl
@[simp] theorem Core.putG_synWait (c : Core) (i : Nat) (v : Word) : (c.putG i v).synWait = c.synWait := rfl
@[simp] theorem Core.putG_synEnded (c : Core) (i : Nat) (v : Word) : (c.putG i v).synEnded = c.synEnded := rfl
@[simp] theorem Core.putG_slots (c : Core) (i : Nat) (v : Word) : (c.putG i v).slots = c.slots := rfl
@[simp] theorem Core.putG_stall (c : Core) (i : Nat) (v : Word) : (c.putG i v).stall = c.stall := rfl
@[simp] theorem Core.putG_vrun (c : Core) (i : Nat) (v : Word) : (c.putG i v).vrun = c.vrun := rfl
@[simp] theorem Core.putG_digest (c : Core) (i : Nat) (v : Word) : (c.putG i v).digest = c.digest := rfl
@[simp] theorem Core.putG_cycleFrac (c : Core) (i : Nat) (v : Word) : (c.putG i v).cycleFrac = c.cycleFrac := rfl
@[simp] theorem Core.putG_dbgPc (c : Core) (i : Nat) (v : Word) : (c.putG i v).dbgPc = c.dbgPc := rfl
@[simp] theorem Core.putG_trapped (c : Core) (i : Nat) (v : Word) : (c.putG i v).trapped = c.trapped := rfl
@[simp] theorem Core.putG_waking (c : Core) (i : Nat) (v : Word) : (c.putG i v).waking = c.waking := rfl

/-! ### `Core.putM` -/

@[simp] theorem Core.putM_getM_same (c : Core) (i : Nat) (v : Word) : (c.putM i v).getM i = v :=
  Tbl.get_set_same _ _ _ _

theorem Core.putM_getM_other (c : Core) (i j : Nat) (v : Word) (hj : j ≠ i) : (c.putM i v).getM j = c.getM j :=
  Tbl.get_set_other _ _ _ hj

@[simp] theorem Core.putM_run (c : Core) (i : Nat) (v : Word) : (c.putM i v).run = c.run := rfl
@[simp] theorem Core.putM_ran (c : Core) (i : Nat) (v : Word) : (c.putM i v).ran = c.ran := rfl
@[simp] theorem Core.putM_halted (c : Core) (i : Nat) (v : Word) : (c.putM i v).halted = c.halted := rfl
@[simp] theorem Core.putM_slot (c : Core) (i : Nat) (v : Word) : (c.putM i v).slot = c.slot := rfl
@[simp] theorem Core.putM_job (c : Core) (i : Nat) (v : Word) : (c.putM i v).job = c.job := rfl
@[simp] theorem Core.putM_half (c : Core) (i : Nat) (v : Word) : (c.putM i v).half = c.half := rfl
@[simp] theorem Core.putM_rank (c : Core) (i : Nat) (v : Word) : (c.putM i v).rank = c.rank := rfl
@[simp] theorem Core.putM_cores (c : Core) (i : Nat) (v : Word) : (c.putM i v).cores = c.cores := rfl
@[simp] theorem Core.putM_pc (c : Core) (i : Nat) (v : Word) : (c.putM i v).pc = c.pc := rfl
@[simp] theorem Core.putM_s (c : Core) (i : Nat) (v : Word) : (c.putM i v).s = c.s := rfl
@[simp] theorem Core.putM_p (c : Core) (i : Nat) (v : Word) : (c.putM i v).p = c.p := rfl
@[simp] theorem Core.putM_g (c : Core) (i : Nat) (v : Word) : (c.putM i v).g = c.g := rfl
@[simp] theorem Core.putM_a (c : Core) (i : Nat) (v : Word) : (c.putM i v).a = c.a := rfl
@[simp] theorem Core.putM_lc0 (c : Core) (i : Nat) (v : Word) : (c.putM i v).lc0 = c.lc0 := rfl
@[simp] theorem Core.putM_lc1 (c : Core) (i : Nat) (v : Word) : (c.putM i v).lc1 = c.lc1 := rfl
@[simp] theorem Core.putM_ls0 (c : Core) (i : Nat) (v : Word) : (c.putM i v).ls0 = c.ls0 := rfl
@[simp] theorem Core.putM_ls1 (c : Core) (i : Nat) (v : Word) : (c.putM i v).ls1 = c.ls1 := rfl
@[simp] theorem Core.putM_le0 (c : Core) (i : Nat) (v : Word) : (c.putM i v).le0 = c.le0 := rfl
@[simp] theorem Core.putM_le1 (c : Core) (i : Nat) (v : Word) : (c.putM i v).le1 = c.le1 := rfl
@[simp] theorem Core.putM_late (c : Core) (i : Nat) (v : Word) : (c.putM i v).late = c.late := rfl
@[simp] theorem Core.putM_v (c : Core) (i : Nat) (v : Word) : (c.putM i v).v = c.v := rfl
@[simp] theorem Core.putM_k (c : Core) (i : Nat) (v : Word) : (c.putM i v).k = c.k := rfl
@[simp] theorem Core.putM_w (c : Core) (i : Nat) (v : Word) : (c.putM i v).w = c.w := rfl
@[simp] theorem Core.putM_shadow (c : Core) (i : Nat) (v : Word) : (c.putM i v).shadow = c.shadow := rfl
@[simp] theorem Core.putM_cr (c : Core) (i : Nat) (v : Word) : (c.putM i v).cr = c.cr := rfl
@[simp] theorem Core.putM_ctlNew (c : Core) (i : Nat) (v : Word) : (c.putM i v).ctlNew = c.ctlNew := rfl
@[simp] theorem Core.putM_winNew (c : Core) (i : Nat) (v : Word) : (c.putM i v).winNew = c.winNew := rfl
@[simp] theorem Core.putM_crSnap (c : Core) (i : Nat) (v : Word) : (c.putM i v).crSnap = c.crSnap := rfl
@[simp] theorem Core.putM_crHeld (c : Core) (i : Nat) (v : Word) : (c.putM i v).crHeld = c.crHeld := rfl
@[simp] theorem Core.putM_x (c : Core) (i : Nat) (v : Word) : (c.putM i v).x = c.x := rfl
@[simp] theorem Core.putM_y (c : Core) (i : Nat) (v : Word) : (c.putM i v).y = c.y := rfl
@[simp] theorem Core.putM_pm (c : Core) (i : Nat) (v : Word) : (c.putM i v).pm = c.pm := rfl
@[simp] theorem Core.putM_fetch (c : Core) (i : Nat) (v : Word) : (c.putM i v).fetch = c.fetch := rfl
@[simp] theorem Core.putM_image (c : Core) (i : Nat) (v : Word) : (c.putM i v).image = c.image := rfl
@[simp] theorem Core.putM_rcLoop (c : Core) (i : Nat) (v : Word) : (c.putM i v).rcLoop = c.rcLoop := rfl
@[simp] theorem Core.putM_rcCount (c : Core) (i : Nat) (v : Word) : (c.putM i v).rcCount = c.rcCount := rfl
@[simp] theorem Core.putM_rcFull (c : Core) (i : Nat) (v : Word) : (c.putM i v).rcFull = c.rcFull := rfl
@[simp] theorem Core.putM_tags (c : Core) (i : Nat) (v : Word) : (c.putM i v).tags = c.tags := rfl
@[simp] theorem Core.putM_queue (c : Core) (i : Nat) (v : Word) : (c.putM i v).queue = c.queue := rfl
@[simp] theorem Core.putM_orders (c : Core) (i : Nat) (v : Word) : (c.putM i v).orders = c.orders := rfl
@[simp] theorem Core.putM_tagIssues (c : Core) (i : Nat) (v : Word) : (c.putM i v).tagIssues = c.tagIssues := rfl
@[simp] theorem Core.putM_doneOrders (c : Core) (i : Nat) (v : Word) : (c.putM i v).doneOrders = c.doneOrders := rfl
@[simp] theorem Core.putM_waits (c : Core) (i : Nat) (v : Word) : (c.putM i v).waits = c.waits := rfl
@[simp] theorem Core.putM_synWait (c : Core) (i : Nat) (v : Word) : (c.putM i v).synWait = c.synWait := rfl
@[simp] theorem Core.putM_synEnded (c : Core) (i : Nat) (v : Word) : (c.putM i v).synEnded = c.synEnded := rfl
@[simp] theorem Core.putM_slots (c : Core) (i : Nat) (v : Word) : (c.putM i v).slots = c.slots := rfl
@[simp] theorem Core.putM_stall (c : Core) (i : Nat) (v : Word) : (c.putM i v).stall = c.stall := rfl
@[simp] theorem Core.putM_vrun (c : Core) (i : Nat) (v : Word) : (c.putM i v).vrun = c.vrun := rfl
@[simp] theorem Core.putM_digest (c : Core) (i : Nat) (v : Word) : (c.putM i v).digest = c.digest := rfl
@[simp] theorem Core.putM_cycleFrac (c : Core) (i : Nat) (v : Word) : (c.putM i v).cycleFrac = c.cycleFrac := rfl
@[simp] theorem Core.putM_dbgPc (c : Core) (i : Nat) (v : Word) : (c.putM i v).dbgPc = c.dbgPc := rfl
@[simp] theorem Core.putM_trapped (c : Core) (i : Nat) (v : Word) : (c.putM i v).trapped = c.trapped := rfl
@[simp] theorem Core.putM_waking (c : Core) (i : Nat) (v : Word) : (c.putM i v).waking = c.waking := rfl

/-! ### `Core.putA` -/

@[simp] theorem Core.putA_run (c : Core) (i : Nat) (v : Int) : (c.putA i v).run = c.run := rfl
@[simp] theorem Core.putA_ran (c : Core) (i : Nat) (v : Int) : (c.putA i v).ran = c.ran := rfl
@[simp] theorem Core.putA_halted (c : Core) (i : Nat) (v : Int) : (c.putA i v).halted = c.halted := rfl
@[simp] theorem Core.putA_slot (c : Core) (i : Nat) (v : Int) : (c.putA i v).slot = c.slot := rfl
@[simp] theorem Core.putA_job (c : Core) (i : Nat) (v : Int) : (c.putA i v).job = c.job := rfl
@[simp] theorem Core.putA_half (c : Core) (i : Nat) (v : Int) : (c.putA i v).half = c.half := rfl
@[simp] theorem Core.putA_rank (c : Core) (i : Nat) (v : Int) : (c.putA i v).rank = c.rank := rfl
@[simp] theorem Core.putA_cores (c : Core) (i : Nat) (v : Int) : (c.putA i v).cores = c.cores := rfl
@[simp] theorem Core.putA_pc (c : Core) (i : Nat) (v : Int) : (c.putA i v).pc = c.pc := rfl
@[simp] theorem Core.putA_s (c : Core) (i : Nat) (v : Int) : (c.putA i v).s = c.s := rfl
@[simp] theorem Core.putA_p (c : Core) (i : Nat) (v : Int) : (c.putA i v).p = c.p := rfl
@[simp] theorem Core.putA_g (c : Core) (i : Nat) (v : Int) : (c.putA i v).g = c.g := rfl
@[simp] theorem Core.putA_m (c : Core) (i : Nat) (v : Int) : (c.putA i v).m = c.m := rfl
@[simp] theorem Core.putA_lc0 (c : Core) (i : Nat) (v : Int) : (c.putA i v).lc0 = c.lc0 := rfl
@[simp] theorem Core.putA_lc1 (c : Core) (i : Nat) (v : Int) : (c.putA i v).lc1 = c.lc1 := rfl
@[simp] theorem Core.putA_ls0 (c : Core) (i : Nat) (v : Int) : (c.putA i v).ls0 = c.ls0 := rfl
@[simp] theorem Core.putA_ls1 (c : Core) (i : Nat) (v : Int) : (c.putA i v).ls1 = c.ls1 := rfl
@[simp] theorem Core.putA_le0 (c : Core) (i : Nat) (v : Int) : (c.putA i v).le0 = c.le0 := rfl
@[simp] theorem Core.putA_le1 (c : Core) (i : Nat) (v : Int) : (c.putA i v).le1 = c.le1 := rfl
@[simp] theorem Core.putA_late (c : Core) (i : Nat) (v : Int) : (c.putA i v).late = c.late := rfl
@[simp] theorem Core.putA_v (c : Core) (i : Nat) (v : Int) : (c.putA i v).v = c.v := rfl
@[simp] theorem Core.putA_k (c : Core) (i : Nat) (v : Int) : (c.putA i v).k = c.k := rfl
@[simp] theorem Core.putA_w (c : Core) (i : Nat) (v : Int) : (c.putA i v).w = c.w := rfl
@[simp] theorem Core.putA_shadow (c : Core) (i : Nat) (v : Int) : (c.putA i v).shadow = c.shadow := rfl
@[simp] theorem Core.putA_cr (c : Core) (i : Nat) (v : Int) : (c.putA i v).cr = c.cr := rfl
@[simp] theorem Core.putA_ctlNew (c : Core) (i : Nat) (v : Int) : (c.putA i v).ctlNew = c.ctlNew := rfl
@[simp] theorem Core.putA_winNew (c : Core) (i : Nat) (v : Int) : (c.putA i v).winNew = c.winNew := rfl
@[simp] theorem Core.putA_crSnap (c : Core) (i : Nat) (v : Int) : (c.putA i v).crSnap = c.crSnap := rfl
@[simp] theorem Core.putA_crHeld (c : Core) (i : Nat) (v : Int) : (c.putA i v).crHeld = c.crHeld := rfl
@[simp] theorem Core.putA_x (c : Core) (i : Nat) (v : Int) : (c.putA i v).x = c.x := rfl
@[simp] theorem Core.putA_y (c : Core) (i : Nat) (v : Int) : (c.putA i v).y = c.y := rfl
@[simp] theorem Core.putA_pm (c : Core) (i : Nat) (v : Int) : (c.putA i v).pm = c.pm := rfl
@[simp] theorem Core.putA_fetch (c : Core) (i : Nat) (v : Int) : (c.putA i v).fetch = c.fetch := rfl
@[simp] theorem Core.putA_image (c : Core) (i : Nat) (v : Int) : (c.putA i v).image = c.image := rfl
@[simp] theorem Core.putA_rcLoop (c : Core) (i : Nat) (v : Int) : (c.putA i v).rcLoop = c.rcLoop := rfl
@[simp] theorem Core.putA_rcCount (c : Core) (i : Nat) (v : Int) : (c.putA i v).rcCount = c.rcCount := rfl
@[simp] theorem Core.putA_rcFull (c : Core) (i : Nat) (v : Int) : (c.putA i v).rcFull = c.rcFull := rfl
@[simp] theorem Core.putA_tags (c : Core) (i : Nat) (v : Int) : (c.putA i v).tags = c.tags := rfl
@[simp] theorem Core.putA_queue (c : Core) (i : Nat) (v : Int) : (c.putA i v).queue = c.queue := rfl
@[simp] theorem Core.putA_orders (c : Core) (i : Nat) (v : Int) : (c.putA i v).orders = c.orders := rfl
@[simp] theorem Core.putA_tagIssues (c : Core) (i : Nat) (v : Int) : (c.putA i v).tagIssues = c.tagIssues := rfl
@[simp] theorem Core.putA_doneOrders (c : Core) (i : Nat) (v : Int) : (c.putA i v).doneOrders = c.doneOrders := rfl
@[simp] theorem Core.putA_waits (c : Core) (i : Nat) (v : Int) : (c.putA i v).waits = c.waits := rfl
@[simp] theorem Core.putA_synWait (c : Core) (i : Nat) (v : Int) : (c.putA i v).synWait = c.synWait := rfl
@[simp] theorem Core.putA_synEnded (c : Core) (i : Nat) (v : Int) : (c.putA i v).synEnded = c.synEnded := rfl
@[simp] theorem Core.putA_slots (c : Core) (i : Nat) (v : Int) : (c.putA i v).slots = c.slots := rfl
@[simp] theorem Core.putA_stall (c : Core) (i : Nat) (v : Int) : (c.putA i v).stall = c.stall := rfl
@[simp] theorem Core.putA_vrun (c : Core) (i : Nat) (v : Int) : (c.putA i v).vrun = c.vrun := rfl
@[simp] theorem Core.putA_digest (c : Core) (i : Nat) (v : Int) : (c.putA i v).digest = c.digest := rfl
@[simp] theorem Core.putA_cycleFrac (c : Core) (i : Nat) (v : Int) : (c.putA i v).cycleFrac = c.cycleFrac := rfl
@[simp] theorem Core.putA_dbgPc (c : Core) (i : Nat) (v : Int) : (c.putA i v).dbgPc = c.dbgPc := rfl
@[simp] theorem Core.putA_trapped (c : Core) (i : Nat) (v : Int) : (c.putA i v).trapped = c.trapped := rfl
@[simp] theorem Core.putA_waking (c : Core) (i : Nat) (v : Int) : (c.putA i v).waking = c.waking := rfl

/-! ### `Core.putV` -/

@[simp] theorem Core.putV_getV_same (c : Core) (i : Nat) (v : Vec) : (c.putV i v).getV i = v :=
  Tbl.get_set_same _ _ _ _

theorem Core.putV_getV_other (c : Core) (i j : Nat) (v : Vec) (hj : j ≠ i) : (c.putV i v).getV j = c.getV j :=
  Tbl.get_set_other _ _ _ hj

@[simp] theorem Core.putV_run (c : Core) (i : Nat) (v : Vec) : (c.putV i v).run = c.run := rfl
@[simp] theorem Core.putV_ran (c : Core) (i : Nat) (v : Vec) : (c.putV i v).ran = c.ran := rfl
@[simp] theorem Core.putV_halted (c : Core) (i : Nat) (v : Vec) : (c.putV i v).halted = c.halted := rfl
@[simp] theorem Core.putV_slot (c : Core) (i : Nat) (v : Vec) : (c.putV i v).slot = c.slot := rfl
@[simp] theorem Core.putV_job (c : Core) (i : Nat) (v : Vec) : (c.putV i v).job = c.job := rfl
@[simp] theorem Core.putV_half (c : Core) (i : Nat) (v : Vec) : (c.putV i v).half = c.half := rfl
@[simp] theorem Core.putV_rank (c : Core) (i : Nat) (v : Vec) : (c.putV i v).rank = c.rank := rfl
@[simp] theorem Core.putV_cores (c : Core) (i : Nat) (v : Vec) : (c.putV i v).cores = c.cores := rfl
@[simp] theorem Core.putV_pc (c : Core) (i : Nat) (v : Vec) : (c.putV i v).pc = c.pc := rfl
@[simp] theorem Core.putV_s (c : Core) (i : Nat) (v : Vec) : (c.putV i v).s = c.s := rfl
@[simp] theorem Core.putV_p (c : Core) (i : Nat) (v : Vec) : (c.putV i v).p = c.p := rfl
@[simp] theorem Core.putV_g (c : Core) (i : Nat) (v : Vec) : (c.putV i v).g = c.g := rfl
@[simp] theorem Core.putV_m (c : Core) (i : Nat) (v : Vec) : (c.putV i v).m = c.m := rfl
@[simp] theorem Core.putV_a (c : Core) (i : Nat) (v : Vec) : (c.putV i v).a = c.a := rfl
@[simp] theorem Core.putV_lc0 (c : Core) (i : Nat) (v : Vec) : (c.putV i v).lc0 = c.lc0 := rfl
@[simp] theorem Core.putV_lc1 (c : Core) (i : Nat) (v : Vec) : (c.putV i v).lc1 = c.lc1 := rfl
@[simp] theorem Core.putV_ls0 (c : Core) (i : Nat) (v : Vec) : (c.putV i v).ls0 = c.ls0 := rfl
@[simp] theorem Core.putV_ls1 (c : Core) (i : Nat) (v : Vec) : (c.putV i v).ls1 = c.ls1 := rfl
@[simp] theorem Core.putV_le0 (c : Core) (i : Nat) (v : Vec) : (c.putV i v).le0 = c.le0 := rfl
@[simp] theorem Core.putV_le1 (c : Core) (i : Nat) (v : Vec) : (c.putV i v).le1 = c.le1 := rfl
@[simp] theorem Core.putV_late (c : Core) (i : Nat) (v : Vec) : (c.putV i v).late = c.late := rfl
@[simp] theorem Core.putV_k (c : Core) (i : Nat) (v : Vec) : (c.putV i v).k = c.k := rfl
@[simp] theorem Core.putV_w (c : Core) (i : Nat) (v : Vec) : (c.putV i v).w = c.w := rfl
@[simp] theorem Core.putV_shadow (c : Core) (i : Nat) (v : Vec) : (c.putV i v).shadow = c.shadow := rfl
@[simp] theorem Core.putV_cr (c : Core) (i : Nat) (v : Vec) : (c.putV i v).cr = c.cr := rfl
@[simp] theorem Core.putV_ctlNew (c : Core) (i : Nat) (v : Vec) : (c.putV i v).ctlNew = c.ctlNew := rfl
@[simp] theorem Core.putV_winNew (c : Core) (i : Nat) (v : Vec) : (c.putV i v).winNew = c.winNew := rfl
@[simp] theorem Core.putV_crSnap (c : Core) (i : Nat) (v : Vec) : (c.putV i v).crSnap = c.crSnap := rfl
@[simp] theorem Core.putV_crHeld (c : Core) (i : Nat) (v : Vec) : (c.putV i v).crHeld = c.crHeld := rfl
@[simp] theorem Core.putV_x (c : Core) (i : Nat) (v : Vec) : (c.putV i v).x = c.x := rfl
@[simp] theorem Core.putV_y (c : Core) (i : Nat) (v : Vec) : (c.putV i v).y = c.y := rfl
@[simp] theorem Core.putV_pm (c : Core) (i : Nat) (v : Vec) : (c.putV i v).pm = c.pm := rfl
@[simp] theorem Core.putV_fetch (c : Core) (i : Nat) (v : Vec) : (c.putV i v).fetch = c.fetch := rfl
@[simp] theorem Core.putV_image (c : Core) (i : Nat) (v : Vec) : (c.putV i v).image = c.image := rfl
@[simp] theorem Core.putV_rcLoop (c : Core) (i : Nat) (v : Vec) : (c.putV i v).rcLoop = c.rcLoop := rfl
@[simp] theorem Core.putV_rcCount (c : Core) (i : Nat) (v : Vec) : (c.putV i v).rcCount = c.rcCount := rfl
@[simp] theorem Core.putV_rcFull (c : Core) (i : Nat) (v : Vec) : (c.putV i v).rcFull = c.rcFull := rfl
@[simp] theorem Core.putV_tags (c : Core) (i : Nat) (v : Vec) : (c.putV i v).tags = c.tags := rfl
@[simp] theorem Core.putV_queue (c : Core) (i : Nat) (v : Vec) : (c.putV i v).queue = c.queue := rfl
@[simp] theorem Core.putV_orders (c : Core) (i : Nat) (v : Vec) : (c.putV i v).orders = c.orders := rfl
@[simp] theorem Core.putV_tagIssues (c : Core) (i : Nat) (v : Vec) : (c.putV i v).tagIssues = c.tagIssues := rfl
@[simp] theorem Core.putV_doneOrders (c : Core) (i : Nat) (v : Vec) : (c.putV i v).doneOrders = c.doneOrders := rfl
@[simp] theorem Core.putV_waits (c : Core) (i : Nat) (v : Vec) : (c.putV i v).waits = c.waits := rfl
@[simp] theorem Core.putV_synWait (c : Core) (i : Nat) (v : Vec) : (c.putV i v).synWait = c.synWait := rfl
@[simp] theorem Core.putV_synEnded (c : Core) (i : Nat) (v : Vec) : (c.putV i v).synEnded = c.synEnded := rfl
@[simp] theorem Core.putV_slots (c : Core) (i : Nat) (v : Vec) : (c.putV i v).slots = c.slots := rfl
@[simp] theorem Core.putV_stall (c : Core) (i : Nat) (v : Vec) : (c.putV i v).stall = c.stall := rfl
@[simp] theorem Core.putV_vrun (c : Core) (i : Nat) (v : Vec) : (c.putV i v).vrun = c.vrun := rfl
@[simp] theorem Core.putV_digest (c : Core) (i : Nat) (v : Vec) : (c.putV i v).digest = c.digest := rfl
@[simp] theorem Core.putV_cycleFrac (c : Core) (i : Nat) (v : Vec) : (c.putV i v).cycleFrac = c.cycleFrac := rfl
@[simp] theorem Core.putV_dbgPc (c : Core) (i : Nat) (v : Vec) : (c.putV i v).dbgPc = c.dbgPc := rfl
@[simp] theorem Core.putV_trapped (c : Core) (i : Nat) (v : Vec) : (c.putV i v).trapped = c.trapped := rfl
@[simp] theorem Core.putV_waking (c : Core) (i : Nat) (v : Vec) : (c.putV i v).waking = c.waking := rfl

/-! ### `Core.putK` -/

@[simp] theorem Core.putK_getK_same (c : Core) (i : Nat) (v : BitVec 128) : (c.putK i v).getK i = v :=
  Tbl.get_set_same _ _ _ _

theorem Core.putK_getK_other (c : Core) (i j : Nat) (v : BitVec 128) (hj : j ≠ i) : (c.putK i v).getK j = c.getK j :=
  Tbl.get_set_other _ _ _ hj

@[simp] theorem Core.putK_run (c : Core) (i : Nat) (v : BitVec 128) : (c.putK i v).run = c.run := rfl
@[simp] theorem Core.putK_ran (c : Core) (i : Nat) (v : BitVec 128) : (c.putK i v).ran = c.ran := rfl
@[simp] theorem Core.putK_halted (c : Core) (i : Nat) (v : BitVec 128) : (c.putK i v).halted = c.halted := rfl
@[simp] theorem Core.putK_slot (c : Core) (i : Nat) (v : BitVec 128) : (c.putK i v).slot = c.slot := rfl
@[simp] theorem Core.putK_job (c : Core) (i : Nat) (v : BitVec 128) : (c.putK i v).job = c.job := rfl
@[simp] theorem Core.putK_half (c : Core) (i : Nat) (v : BitVec 128) : (c.putK i v).half = c.half := rfl
@[simp] theorem Core.putK_rank (c : Core) (i : Nat) (v : BitVec 128) : (c.putK i v).rank = c.rank := rfl
@[simp] theorem Core.putK_cores (c : Core) (i : Nat) (v : BitVec 128) : (c.putK i v).cores = c.cores := rfl
@[simp] theorem Core.putK_pc (c : Core) (i : Nat) (v : BitVec 128) : (c.putK i v).pc = c.pc := rfl
@[simp] theorem Core.putK_s (c : Core) (i : Nat) (v : BitVec 128) : (c.putK i v).s = c.s := rfl
@[simp] theorem Core.putK_p (c : Core) (i : Nat) (v : BitVec 128) : (c.putK i v).p = c.p := rfl
@[simp] theorem Core.putK_g (c : Core) (i : Nat) (v : BitVec 128) : (c.putK i v).g = c.g := rfl
@[simp] theorem Core.putK_m (c : Core) (i : Nat) (v : BitVec 128) : (c.putK i v).m = c.m := rfl
@[simp] theorem Core.putK_a (c : Core) (i : Nat) (v : BitVec 128) : (c.putK i v).a = c.a := rfl
@[simp] theorem Core.putK_lc0 (c : Core) (i : Nat) (v : BitVec 128) : (c.putK i v).lc0 = c.lc0 := rfl
@[simp] theorem Core.putK_lc1 (c : Core) (i : Nat) (v : BitVec 128) : (c.putK i v).lc1 = c.lc1 := rfl
@[simp] theorem Core.putK_ls0 (c : Core) (i : Nat) (v : BitVec 128) : (c.putK i v).ls0 = c.ls0 := rfl
@[simp] theorem Core.putK_ls1 (c : Core) (i : Nat) (v : BitVec 128) : (c.putK i v).ls1 = c.ls1 := rfl
@[simp] theorem Core.putK_le0 (c : Core) (i : Nat) (v : BitVec 128) : (c.putK i v).le0 = c.le0 := rfl
@[simp] theorem Core.putK_le1 (c : Core) (i : Nat) (v : BitVec 128) : (c.putK i v).le1 = c.le1 := rfl
@[simp] theorem Core.putK_late (c : Core) (i : Nat) (v : BitVec 128) : (c.putK i v).late = c.late := rfl
@[simp] theorem Core.putK_v (c : Core) (i : Nat) (v : BitVec 128) : (c.putK i v).v = c.v := rfl
@[simp] theorem Core.putK_w (c : Core) (i : Nat) (v : BitVec 128) : (c.putK i v).w = c.w := rfl
@[simp] theorem Core.putK_shadow (c : Core) (i : Nat) (v : BitVec 128) : (c.putK i v).shadow = c.shadow := rfl
@[simp] theorem Core.putK_cr (c : Core) (i : Nat) (v : BitVec 128) : (c.putK i v).cr = c.cr := rfl
@[simp] theorem Core.putK_ctlNew (c : Core) (i : Nat) (v : BitVec 128) : (c.putK i v).ctlNew = c.ctlNew := rfl
@[simp] theorem Core.putK_winNew (c : Core) (i : Nat) (v : BitVec 128) : (c.putK i v).winNew = c.winNew := rfl
@[simp] theorem Core.putK_crSnap (c : Core) (i : Nat) (v : BitVec 128) : (c.putK i v).crSnap = c.crSnap := rfl
@[simp] theorem Core.putK_crHeld (c : Core) (i : Nat) (v : BitVec 128) : (c.putK i v).crHeld = c.crHeld := rfl
@[simp] theorem Core.putK_x (c : Core) (i : Nat) (v : BitVec 128) : (c.putK i v).x = c.x := rfl
@[simp] theorem Core.putK_y (c : Core) (i : Nat) (v : BitVec 128) : (c.putK i v).y = c.y := rfl
@[simp] theorem Core.putK_pm (c : Core) (i : Nat) (v : BitVec 128) : (c.putK i v).pm = c.pm := rfl
@[simp] theorem Core.putK_fetch (c : Core) (i : Nat) (v : BitVec 128) : (c.putK i v).fetch = c.fetch := rfl
@[simp] theorem Core.putK_image (c : Core) (i : Nat) (v : BitVec 128) : (c.putK i v).image = c.image := rfl
@[simp] theorem Core.putK_rcLoop (c : Core) (i : Nat) (v : BitVec 128) : (c.putK i v).rcLoop = c.rcLoop := rfl
@[simp] theorem Core.putK_rcCount (c : Core) (i : Nat) (v : BitVec 128) : (c.putK i v).rcCount = c.rcCount := rfl
@[simp] theorem Core.putK_rcFull (c : Core) (i : Nat) (v : BitVec 128) : (c.putK i v).rcFull = c.rcFull := rfl
@[simp] theorem Core.putK_tags (c : Core) (i : Nat) (v : BitVec 128) : (c.putK i v).tags = c.tags := rfl
@[simp] theorem Core.putK_queue (c : Core) (i : Nat) (v : BitVec 128) : (c.putK i v).queue = c.queue := rfl
@[simp] theorem Core.putK_orders (c : Core) (i : Nat) (v : BitVec 128) : (c.putK i v).orders = c.orders := rfl
@[simp] theorem Core.putK_tagIssues (c : Core) (i : Nat) (v : BitVec 128) : (c.putK i v).tagIssues = c.tagIssues := rfl
@[simp] theorem Core.putK_doneOrders (c : Core) (i : Nat) (v : BitVec 128) : (c.putK i v).doneOrders = c.doneOrders := rfl
@[simp] theorem Core.putK_waits (c : Core) (i : Nat) (v : BitVec 128) : (c.putK i v).waits = c.waits := rfl
@[simp] theorem Core.putK_synWait (c : Core) (i : Nat) (v : BitVec 128) : (c.putK i v).synWait = c.synWait := rfl
@[simp] theorem Core.putK_synEnded (c : Core) (i : Nat) (v : BitVec 128) : (c.putK i v).synEnded = c.synEnded := rfl
@[simp] theorem Core.putK_slots (c : Core) (i : Nat) (v : BitVec 128) : (c.putK i v).slots = c.slots := rfl
@[simp] theorem Core.putK_stall (c : Core) (i : Nat) (v : BitVec 128) : (c.putK i v).stall = c.stall := rfl
@[simp] theorem Core.putK_vrun (c : Core) (i : Nat) (v : BitVec 128) : (c.putK i v).vrun = c.vrun := rfl
@[simp] theorem Core.putK_digest (c : Core) (i : Nat) (v : BitVec 128) : (c.putK i v).digest = c.digest := rfl
@[simp] theorem Core.putK_cycleFrac (c : Core) (i : Nat) (v : BitVec 128) : (c.putK i v).cycleFrac = c.cycleFrac := rfl
@[simp] theorem Core.putK_dbgPc (c : Core) (i : Nat) (v : BitVec 128) : (c.putK i v).dbgPc = c.dbgPc := rfl
@[simp] theorem Core.putK_trapped (c : Core) (i : Nat) (v : BitVec 128) : (c.putK i v).trapped = c.trapped := rfl
@[simp] theorem Core.putK_waking (c : Core) (i : Nat) (v : BitVec 128) : (c.putK i v).waking = c.waking := rfl

/-! ### `Core.putW` -/

@[simp] theorem Core.putW_getW_same (c : Core) (i : Nat) (v : BitVec 3072) : (c.putW i v).getW i = v :=
  Tbl.get_set_same _ _ _ _

theorem Core.putW_getW_other (c : Core) (i j : Nat) (v : BitVec 3072) (hj : j ≠ i) : (c.putW i v).getW j = c.getW j :=
  Tbl.get_set_other _ _ _ hj

@[simp] theorem Core.putW_run (c : Core) (i : Nat) (v : BitVec 3072) : (c.putW i v).run = c.run := rfl
@[simp] theorem Core.putW_ran (c : Core) (i : Nat) (v : BitVec 3072) : (c.putW i v).ran = c.ran := rfl
@[simp] theorem Core.putW_halted (c : Core) (i : Nat) (v : BitVec 3072) : (c.putW i v).halted = c.halted := rfl
@[simp] theorem Core.putW_slot (c : Core) (i : Nat) (v : BitVec 3072) : (c.putW i v).slot = c.slot := rfl
@[simp] theorem Core.putW_job (c : Core) (i : Nat) (v : BitVec 3072) : (c.putW i v).job = c.job := rfl
@[simp] theorem Core.putW_half (c : Core) (i : Nat) (v : BitVec 3072) : (c.putW i v).half = c.half := rfl
@[simp] theorem Core.putW_rank (c : Core) (i : Nat) (v : BitVec 3072) : (c.putW i v).rank = c.rank := rfl
@[simp] theorem Core.putW_cores (c : Core) (i : Nat) (v : BitVec 3072) : (c.putW i v).cores = c.cores := rfl
@[simp] theorem Core.putW_pc (c : Core) (i : Nat) (v : BitVec 3072) : (c.putW i v).pc = c.pc := rfl
@[simp] theorem Core.putW_s (c : Core) (i : Nat) (v : BitVec 3072) : (c.putW i v).s = c.s := rfl
@[simp] theorem Core.putW_p (c : Core) (i : Nat) (v : BitVec 3072) : (c.putW i v).p = c.p := rfl
@[simp] theorem Core.putW_g (c : Core) (i : Nat) (v : BitVec 3072) : (c.putW i v).g = c.g := rfl
@[simp] theorem Core.putW_m (c : Core) (i : Nat) (v : BitVec 3072) : (c.putW i v).m = c.m := rfl
@[simp] theorem Core.putW_a (c : Core) (i : Nat) (v : BitVec 3072) : (c.putW i v).a = c.a := rfl
@[simp] theorem Core.putW_lc0 (c : Core) (i : Nat) (v : BitVec 3072) : (c.putW i v).lc0 = c.lc0 := rfl
@[simp] theorem Core.putW_lc1 (c : Core) (i : Nat) (v : BitVec 3072) : (c.putW i v).lc1 = c.lc1 := rfl
@[simp] theorem Core.putW_ls0 (c : Core) (i : Nat) (v : BitVec 3072) : (c.putW i v).ls0 = c.ls0 := rfl
@[simp] theorem Core.putW_ls1 (c : Core) (i : Nat) (v : BitVec 3072) : (c.putW i v).ls1 = c.ls1 := rfl
@[simp] theorem Core.putW_le0 (c : Core) (i : Nat) (v : BitVec 3072) : (c.putW i v).le0 = c.le0 := rfl
@[simp] theorem Core.putW_le1 (c : Core) (i : Nat) (v : BitVec 3072) : (c.putW i v).le1 = c.le1 := rfl
@[simp] theorem Core.putW_late (c : Core) (i : Nat) (v : BitVec 3072) : (c.putW i v).late = c.late := rfl
@[simp] theorem Core.putW_v (c : Core) (i : Nat) (v : BitVec 3072) : (c.putW i v).v = c.v := rfl
@[simp] theorem Core.putW_k (c : Core) (i : Nat) (v : BitVec 3072) : (c.putW i v).k = c.k := rfl
@[simp] theorem Core.putW_shadow (c : Core) (i : Nat) (v : BitVec 3072) : (c.putW i v).shadow = c.shadow := rfl
@[simp] theorem Core.putW_cr (c : Core) (i : Nat) (v : BitVec 3072) : (c.putW i v).cr = c.cr := rfl
@[simp] theorem Core.putW_ctlNew (c : Core) (i : Nat) (v : BitVec 3072) : (c.putW i v).ctlNew = c.ctlNew := rfl
@[simp] theorem Core.putW_winNew (c : Core) (i : Nat) (v : BitVec 3072) : (c.putW i v).winNew = c.winNew := rfl
@[simp] theorem Core.putW_crSnap (c : Core) (i : Nat) (v : BitVec 3072) : (c.putW i v).crSnap = c.crSnap := rfl
@[simp] theorem Core.putW_crHeld (c : Core) (i : Nat) (v : BitVec 3072) : (c.putW i v).crHeld = c.crHeld := rfl
@[simp] theorem Core.putW_x (c : Core) (i : Nat) (v : BitVec 3072) : (c.putW i v).x = c.x := rfl
@[simp] theorem Core.putW_y (c : Core) (i : Nat) (v : BitVec 3072) : (c.putW i v).y = c.y := rfl
@[simp] theorem Core.putW_pm (c : Core) (i : Nat) (v : BitVec 3072) : (c.putW i v).pm = c.pm := rfl
@[simp] theorem Core.putW_fetch (c : Core) (i : Nat) (v : BitVec 3072) : (c.putW i v).fetch = c.fetch := rfl
@[simp] theorem Core.putW_image (c : Core) (i : Nat) (v : BitVec 3072) : (c.putW i v).image = c.image := rfl
@[simp] theorem Core.putW_rcLoop (c : Core) (i : Nat) (v : BitVec 3072) : (c.putW i v).rcLoop = c.rcLoop := rfl
@[simp] theorem Core.putW_rcCount (c : Core) (i : Nat) (v : BitVec 3072) : (c.putW i v).rcCount = c.rcCount := rfl
@[simp] theorem Core.putW_rcFull (c : Core) (i : Nat) (v : BitVec 3072) : (c.putW i v).rcFull = c.rcFull := rfl
@[simp] theorem Core.putW_tags (c : Core) (i : Nat) (v : BitVec 3072) : (c.putW i v).tags = c.tags := rfl
@[simp] theorem Core.putW_queue (c : Core) (i : Nat) (v : BitVec 3072) : (c.putW i v).queue = c.queue := rfl
@[simp] theorem Core.putW_orders (c : Core) (i : Nat) (v : BitVec 3072) : (c.putW i v).orders = c.orders := rfl
@[simp] theorem Core.putW_tagIssues (c : Core) (i : Nat) (v : BitVec 3072) : (c.putW i v).tagIssues = c.tagIssues := rfl
@[simp] theorem Core.putW_doneOrders (c : Core) (i : Nat) (v : BitVec 3072) : (c.putW i v).doneOrders = c.doneOrders := rfl
@[simp] theorem Core.putW_waits (c : Core) (i : Nat) (v : BitVec 3072) : (c.putW i v).waits = c.waits := rfl
@[simp] theorem Core.putW_synWait (c : Core) (i : Nat) (v : BitVec 3072) : (c.putW i v).synWait = c.synWait := rfl
@[simp] theorem Core.putW_synEnded (c : Core) (i : Nat) (v : BitVec 3072) : (c.putW i v).synEnded = c.synEnded := rfl
@[simp] theorem Core.putW_slots (c : Core) (i : Nat) (v : BitVec 3072) : (c.putW i v).slots = c.slots := rfl
@[simp] theorem Core.putW_stall (c : Core) (i : Nat) (v : BitVec 3072) : (c.putW i v).stall = c.stall := rfl
@[simp] theorem Core.putW_vrun (c : Core) (i : Nat) (v : BitVec 3072) : (c.putW i v).vrun = c.vrun := rfl
@[simp] theorem Core.putW_digest (c : Core) (i : Nat) (v : BitVec 3072) : (c.putW i v).digest = c.digest := rfl
@[simp] theorem Core.putW_cycleFrac (c : Core) (i : Nat) (v : BitVec 3072) : (c.putW i v).cycleFrac = c.cycleFrac := rfl
@[simp] theorem Core.putW_dbgPc (c : Core) (i : Nat) (v : BitVec 3072) : (c.putW i v).dbgPc = c.dbgPc := rfl
@[simp] theorem Core.putW_trapped (c : Core) (i : Nat) (v : BitVec 3072) : (c.putW i v).trapped = c.trapped := rfl
@[simp] theorem Core.putW_waking (c : Core) (i : Nat) (v : BitVec 3072) : (c.putW i v).waking = c.waking := rfl

/-! ### `Core.setCr` -/

@[simp] theorem Core.setCr_getCr_same (c : Core) (i : Nat) (v : Word) : (c.setCr i v).getCr i = v :=
  Tbl.get_set_same _ _ _ _

theorem Core.setCr_getCr_other (c : Core) (i j : Nat) (v : Word) (hj : j ≠ i) : (c.setCr i v).getCr j = c.getCr j :=
  Tbl.get_set_other _ _ _ hj

@[simp] theorem Core.setCr_run (c : Core) (i : Nat) (v : Word) : (c.setCr i v).run = c.run := rfl
@[simp] theorem Core.setCr_ran (c : Core) (i : Nat) (v : Word) : (c.setCr i v).ran = c.ran := rfl
@[simp] theorem Core.setCr_halted (c : Core) (i : Nat) (v : Word) : (c.setCr i v).halted = c.halted := rfl
@[simp] theorem Core.setCr_slot (c : Core) (i : Nat) (v : Word) : (c.setCr i v).slot = c.slot := rfl
@[simp] theorem Core.setCr_job (c : Core) (i : Nat) (v : Word) : (c.setCr i v).job = c.job := rfl
@[simp] theorem Core.setCr_half (c : Core) (i : Nat) (v : Word) : (c.setCr i v).half = c.half := rfl
@[simp] theorem Core.setCr_rank (c : Core) (i : Nat) (v : Word) : (c.setCr i v).rank = c.rank := rfl
@[simp] theorem Core.setCr_cores (c : Core) (i : Nat) (v : Word) : (c.setCr i v).cores = c.cores := rfl
@[simp] theorem Core.setCr_pc (c : Core) (i : Nat) (v : Word) : (c.setCr i v).pc = c.pc := rfl
@[simp] theorem Core.setCr_s (c : Core) (i : Nat) (v : Word) : (c.setCr i v).s = c.s := rfl
@[simp] theorem Core.setCr_p (c : Core) (i : Nat) (v : Word) : (c.setCr i v).p = c.p := rfl
@[simp] theorem Core.setCr_g (c : Core) (i : Nat) (v : Word) : (c.setCr i v).g = c.g := rfl
@[simp] theorem Core.setCr_m (c : Core) (i : Nat) (v : Word) : (c.setCr i v).m = c.m := rfl
@[simp] theorem Core.setCr_a (c : Core) (i : Nat) (v : Word) : (c.setCr i v).a = c.a := rfl
@[simp] theorem Core.setCr_lc0 (c : Core) (i : Nat) (v : Word) : (c.setCr i v).lc0 = c.lc0 := rfl
@[simp] theorem Core.setCr_lc1 (c : Core) (i : Nat) (v : Word) : (c.setCr i v).lc1 = c.lc1 := rfl
@[simp] theorem Core.setCr_ls0 (c : Core) (i : Nat) (v : Word) : (c.setCr i v).ls0 = c.ls0 := rfl
@[simp] theorem Core.setCr_ls1 (c : Core) (i : Nat) (v : Word) : (c.setCr i v).ls1 = c.ls1 := rfl
@[simp] theorem Core.setCr_le0 (c : Core) (i : Nat) (v : Word) : (c.setCr i v).le0 = c.le0 := rfl
@[simp] theorem Core.setCr_le1 (c : Core) (i : Nat) (v : Word) : (c.setCr i v).le1 = c.le1 := rfl
@[simp] theorem Core.setCr_late (c : Core) (i : Nat) (v : Word) : (c.setCr i v).late = c.late := rfl
@[simp] theorem Core.setCr_v (c : Core) (i : Nat) (v : Word) : (c.setCr i v).v = c.v := rfl
@[simp] theorem Core.setCr_k (c : Core) (i : Nat) (v : Word) : (c.setCr i v).k = c.k := rfl
@[simp] theorem Core.setCr_w (c : Core) (i : Nat) (v : Word) : (c.setCr i v).w = c.w := rfl
@[simp] theorem Core.setCr_shadow (c : Core) (i : Nat) (v : Word) : (c.setCr i v).shadow = c.shadow := rfl
@[simp] theorem Core.setCr_ctlNew (c : Core) (i : Nat) (v : Word) : (c.setCr i v).ctlNew = c.ctlNew := rfl
@[simp] theorem Core.setCr_winNew (c : Core) (i : Nat) (v : Word) : (c.setCr i v).winNew = c.winNew := rfl
@[simp] theorem Core.setCr_crSnap (c : Core) (i : Nat) (v : Word) : (c.setCr i v).crSnap = c.crSnap := rfl
@[simp] theorem Core.setCr_crHeld (c : Core) (i : Nat) (v : Word) : (c.setCr i v).crHeld = c.crHeld := rfl
@[simp] theorem Core.setCr_x (c : Core) (i : Nat) (v : Word) : (c.setCr i v).x = c.x := rfl
@[simp] theorem Core.setCr_y (c : Core) (i : Nat) (v : Word) : (c.setCr i v).y = c.y := rfl
@[simp] theorem Core.setCr_pm (c : Core) (i : Nat) (v : Word) : (c.setCr i v).pm = c.pm := rfl
@[simp] theorem Core.setCr_fetch (c : Core) (i : Nat) (v : Word) : (c.setCr i v).fetch = c.fetch := rfl
@[simp] theorem Core.setCr_image (c : Core) (i : Nat) (v : Word) : (c.setCr i v).image = c.image := rfl
@[simp] theorem Core.setCr_rcLoop (c : Core) (i : Nat) (v : Word) : (c.setCr i v).rcLoop = c.rcLoop := rfl
@[simp] theorem Core.setCr_rcCount (c : Core) (i : Nat) (v : Word) : (c.setCr i v).rcCount = c.rcCount := rfl
@[simp] theorem Core.setCr_rcFull (c : Core) (i : Nat) (v : Word) : (c.setCr i v).rcFull = c.rcFull := rfl
@[simp] theorem Core.setCr_tags (c : Core) (i : Nat) (v : Word) : (c.setCr i v).tags = c.tags := rfl
@[simp] theorem Core.setCr_queue (c : Core) (i : Nat) (v : Word) : (c.setCr i v).queue = c.queue := rfl
@[simp] theorem Core.setCr_orders (c : Core) (i : Nat) (v : Word) : (c.setCr i v).orders = c.orders := rfl
@[simp] theorem Core.setCr_tagIssues (c : Core) (i : Nat) (v : Word) : (c.setCr i v).tagIssues = c.tagIssues := rfl
@[simp] theorem Core.setCr_doneOrders (c : Core) (i : Nat) (v : Word) : (c.setCr i v).doneOrders = c.doneOrders := rfl
@[simp] theorem Core.setCr_waits (c : Core) (i : Nat) (v : Word) : (c.setCr i v).waits = c.waits := rfl
@[simp] theorem Core.setCr_synWait (c : Core) (i : Nat) (v : Word) : (c.setCr i v).synWait = c.synWait := rfl
@[simp] theorem Core.setCr_synEnded (c : Core) (i : Nat) (v : Word) : (c.setCr i v).synEnded = c.synEnded := rfl
@[simp] theorem Core.setCr_slots (c : Core) (i : Nat) (v : Word) : (c.setCr i v).slots = c.slots := rfl
@[simp] theorem Core.setCr_stall (c : Core) (i : Nat) (v : Word) : (c.setCr i v).stall = c.stall := rfl
@[simp] theorem Core.setCr_vrun (c : Core) (i : Nat) (v : Word) : (c.setCr i v).vrun = c.vrun := rfl
@[simp] theorem Core.setCr_digest (c : Core) (i : Nat) (v : Word) : (c.setCr i v).digest = c.digest := rfl
@[simp] theorem Core.setCr_cycleFrac (c : Core) (i : Nat) (v : Word) : (c.setCr i v).cycleFrac = c.cycleFrac := rfl
@[simp] theorem Core.setCr_dbgPc (c : Core) (i : Nat) (v : Word) : (c.setCr i v).dbgPc = c.dbgPc := rfl
@[simp] theorem Core.setCr_trapped (c : Core) (i : Nat) (v : Word) : (c.setCr i v).trapped = c.trapped := rfl
@[simp] theorem Core.setCr_waking (c : Core) (i : Nat) (v : Word) : (c.setCr i v).waking = c.waking := rfl

/-! ### `Core.putP` -/

@[simp] theorem Core.putP_run (c : Core) (i : Nat) (v : Bool) : (c.putP i v).run = c.run := by unfold Core.putP; split <;> rfl
@[simp] theorem Core.putP_ran (c : Core) (i : Nat) (v : Bool) : (c.putP i v).ran = c.ran := by unfold Core.putP; split <;> rfl
@[simp] theorem Core.putP_halted (c : Core) (i : Nat) (v : Bool) : (c.putP i v).halted = c.halted := by unfold Core.putP; split <;> rfl
@[simp] theorem Core.putP_slot (c : Core) (i : Nat) (v : Bool) : (c.putP i v).slot = c.slot := by unfold Core.putP; split <;> rfl
@[simp] theorem Core.putP_job (c : Core) (i : Nat) (v : Bool) : (c.putP i v).job = c.job := by unfold Core.putP; split <;> rfl
@[simp] theorem Core.putP_half (c : Core) (i : Nat) (v : Bool) : (c.putP i v).half = c.half := by unfold Core.putP; split <;> rfl
@[simp] theorem Core.putP_rank (c : Core) (i : Nat) (v : Bool) : (c.putP i v).rank = c.rank := by unfold Core.putP; split <;> rfl
@[simp] theorem Core.putP_cores (c : Core) (i : Nat) (v : Bool) : (c.putP i v).cores = c.cores := by unfold Core.putP; split <;> rfl
@[simp] theorem Core.putP_pc (c : Core) (i : Nat) (v : Bool) : (c.putP i v).pc = c.pc := by unfold Core.putP; split <;> rfl
@[simp] theorem Core.putP_s (c : Core) (i : Nat) (v : Bool) : (c.putP i v).s = c.s := by unfold Core.putP; split <;> rfl
@[simp] theorem Core.putP_g (c : Core) (i : Nat) (v : Bool) : (c.putP i v).g = c.g := by unfold Core.putP; split <;> rfl
@[simp] theorem Core.putP_m (c : Core) (i : Nat) (v : Bool) : (c.putP i v).m = c.m := by unfold Core.putP; split <;> rfl
@[simp] theorem Core.putP_a (c : Core) (i : Nat) (v : Bool) : (c.putP i v).a = c.a := by unfold Core.putP; split <;> rfl
@[simp] theorem Core.putP_lc0 (c : Core) (i : Nat) (v : Bool) : (c.putP i v).lc0 = c.lc0 := by unfold Core.putP; split <;> rfl
@[simp] theorem Core.putP_lc1 (c : Core) (i : Nat) (v : Bool) : (c.putP i v).lc1 = c.lc1 := by unfold Core.putP; split <;> rfl
@[simp] theorem Core.putP_ls0 (c : Core) (i : Nat) (v : Bool) : (c.putP i v).ls0 = c.ls0 := by unfold Core.putP; split <;> rfl
@[simp] theorem Core.putP_ls1 (c : Core) (i : Nat) (v : Bool) : (c.putP i v).ls1 = c.ls1 := by unfold Core.putP; split <;> rfl
@[simp] theorem Core.putP_le0 (c : Core) (i : Nat) (v : Bool) : (c.putP i v).le0 = c.le0 := by unfold Core.putP; split <;> rfl
@[simp] theorem Core.putP_le1 (c : Core) (i : Nat) (v : Bool) : (c.putP i v).le1 = c.le1 := by unfold Core.putP; split <;> rfl
@[simp] theorem Core.putP_late (c : Core) (i : Nat) (v : Bool) : (c.putP i v).late = c.late := by unfold Core.putP; split <;> rfl
@[simp] theorem Core.putP_v (c : Core) (i : Nat) (v : Bool) : (c.putP i v).v = c.v := by unfold Core.putP; split <;> rfl
@[simp] theorem Core.putP_k (c : Core) (i : Nat) (v : Bool) : (c.putP i v).k = c.k := by unfold Core.putP; split <;> rfl
@[simp] theorem Core.putP_w (c : Core) (i : Nat) (v : Bool) : (c.putP i v).w = c.w := by unfold Core.putP; split <;> rfl
@[simp] theorem Core.putP_shadow (c : Core) (i : Nat) (v : Bool) : (c.putP i v).shadow = c.shadow := by unfold Core.putP; split <;> rfl
@[simp] theorem Core.putP_cr (c : Core) (i : Nat) (v : Bool) : (c.putP i v).cr = c.cr := by unfold Core.putP; split <;> rfl
@[simp] theorem Core.putP_ctlNew (c : Core) (i : Nat) (v : Bool) : (c.putP i v).ctlNew = c.ctlNew := by unfold Core.putP; split <;> rfl
@[simp] theorem Core.putP_winNew (c : Core) (i : Nat) (v : Bool) : (c.putP i v).winNew = c.winNew := by unfold Core.putP; split <;> rfl
@[simp] theorem Core.putP_crSnap (c : Core) (i : Nat) (v : Bool) : (c.putP i v).crSnap = c.crSnap := by unfold Core.putP; split <;> rfl
@[simp] theorem Core.putP_crHeld (c : Core) (i : Nat) (v : Bool) : (c.putP i v).crHeld = c.crHeld := by unfold Core.putP; split <;> rfl
@[simp] theorem Core.putP_x (c : Core) (i : Nat) (v : Bool) : (c.putP i v).x = c.x := by unfold Core.putP; split <;> rfl
@[simp] theorem Core.putP_y (c : Core) (i : Nat) (v : Bool) : (c.putP i v).y = c.y := by unfold Core.putP; split <;> rfl
@[simp] theorem Core.putP_pm (c : Core) (i : Nat) (v : Bool) : (c.putP i v).pm = c.pm := by unfold Core.putP; split <;> rfl
@[simp] theorem Core.putP_fetch (c : Core) (i : Nat) (v : Bool) : (c.putP i v).fetch = c.fetch := by unfold Core.putP; split <;> rfl
@[simp] theorem Core.putP_image (c : Core) (i : Nat) (v : Bool) : (c.putP i v).image = c.image := by unfold Core.putP; split <;> rfl
@[simp] theorem Core.putP_rcLoop (c : Core) (i : Nat) (v : Bool) : (c.putP i v).rcLoop = c.rcLoop := by unfold Core.putP; split <;> rfl
@[simp] theorem Core.putP_rcCount (c : Core) (i : Nat) (v : Bool) : (c.putP i v).rcCount = c.rcCount := by unfold Core.putP; split <;> rfl
@[simp] theorem Core.putP_rcFull (c : Core) (i : Nat) (v : Bool) : (c.putP i v).rcFull = c.rcFull := by unfold Core.putP; split <;> rfl
@[simp] theorem Core.putP_tags (c : Core) (i : Nat) (v : Bool) : (c.putP i v).tags = c.tags := by unfold Core.putP; split <;> rfl
@[simp] theorem Core.putP_queue (c : Core) (i : Nat) (v : Bool) : (c.putP i v).queue = c.queue := by unfold Core.putP; split <;> rfl
@[simp] theorem Core.putP_orders (c : Core) (i : Nat) (v : Bool) : (c.putP i v).orders = c.orders := by unfold Core.putP; split <;> rfl
@[simp] theorem Core.putP_tagIssues (c : Core) (i : Nat) (v : Bool) : (c.putP i v).tagIssues = c.tagIssues := by unfold Core.putP; split <;> rfl
@[simp] theorem Core.putP_doneOrders (c : Core) (i : Nat) (v : Bool) : (c.putP i v).doneOrders = c.doneOrders := by unfold Core.putP; split <;> rfl
@[simp] theorem Core.putP_waits (c : Core) (i : Nat) (v : Bool) : (c.putP i v).waits = c.waits := by unfold Core.putP; split <;> rfl
@[simp] theorem Core.putP_synWait (c : Core) (i : Nat) (v : Bool) : (c.putP i v).synWait = c.synWait := by unfold Core.putP; split <;> rfl
@[simp] theorem Core.putP_synEnded (c : Core) (i : Nat) (v : Bool) : (c.putP i v).synEnded = c.synEnded := by unfold Core.putP; split <;> rfl
@[simp] theorem Core.putP_slots (c : Core) (i : Nat) (v : Bool) : (c.putP i v).slots = c.slots := by unfold Core.putP; split <;> rfl
@[simp] theorem Core.putP_stall (c : Core) (i : Nat) (v : Bool) : (c.putP i v).stall = c.stall := by unfold Core.putP; split <;> rfl
@[simp] theorem Core.putP_vrun (c : Core) (i : Nat) (v : Bool) : (c.putP i v).vrun = c.vrun := by unfold Core.putP; split <;> rfl
@[simp] theorem Core.putP_digest (c : Core) (i : Nat) (v : Bool) : (c.putP i v).digest = c.digest := by unfold Core.putP; split <;> rfl
@[simp] theorem Core.putP_cycleFrac (c : Core) (i : Nat) (v : Bool) : (c.putP i v).cycleFrac = c.cycleFrac := by unfold Core.putP; split <;> rfl
@[simp] theorem Core.putP_dbgPc (c : Core) (i : Nat) (v : Bool) : (c.putP i v).dbgPc = c.dbgPc := by unfold Core.putP; split <;> rfl
@[simp] theorem Core.putP_trapped (c : Core) (i : Nat) (v : Bool) : (c.putP i v).trapped = c.trapped := by unfold Core.putP; split <;> rfl
@[simp] theorem Core.putP_waking (c : Core) (i : Nat) (v : Bool) : (c.putP i v).waking = c.waking := by unfold Core.putP; split <;> rfl

/-! ### Writing one object twice -/

@[simp] theorem Hw.setCtx_setCtx (h : Hw) (n : Nat) (c d : Ctx) : (h.setCtx n c).setCtx n d = h.setCtx n d := by
  simp [Hw.setCtx]
@[simp] theorem Hw.setCore_setCore (h : Hw) (n : Nat) (c d : Core) : (h.setCore n c).setCore n d = h.setCore n d := by
  simp [Hw.setCore]
@[simp] theorem Hw.setArray_setArray (h : Hw) (n : Nat) (c d : BstArray) : (h.setArray n c).setArray n d = h.setArray n d := by
  simp [Hw.setArray]
@[simp] theorem Hw.setCounter_setCounter (h : Hw) (n : Nat) (c d : Counter) : (h.setCounter n c).setCounter n d = h.setCounter n d := by
  simp [Hw.setCounter]
@[simp] theorem Hw.setChannel_setChannel (h : Hw) (n : Nat) (c d : Channel) : (h.setChannel n c).setChannel n d = h.setChannel n d := by
  simp [Hw.setChannel]
@[simp] theorem Hw.setDmaChan_setDmaChan (h : Hw) (n : Nat) (c d : DmaChan) : (h.setDmaChan n c).setDmaChan n d = h.setDmaChan n d := by
  simp [Hw.setDmaChan]
@[simp] theorem Hw.setDmaEngine_setDmaEngine (h : Hw) (n : Nat) (c d : DmaEngine) : (h.setDmaEngine n c).setDmaEngine n d = h.setDmaEngine n d := by
  simp [Hw.setDmaEngine]
@[simp] theorem Hw.setLineChan_setLineChan (h : Hw) (n : Nat) (c d : LineChan) : (h.setLineChan n c).setLineChan n d = h.setLineChan n d := by
  simp [Hw.setLineChan]
@[simp] theorem Hw.setFunc_setFunc (h : Hw) (n : Nat) (c d : Func) : (h.setFunc n c).setFunc n d = h.setFunc n d := by
  simp [Hw.setFunc]
@[simp] theorem Hw.setPort_setPort (h : Hw) (n : Nat) (c d : CamPort) : (h.setPort n c).setPort n d = h.setPort n d := by
  simp [Hw.setPort]
@[simp] theorem Hw.setEncoder_setEncoder (h : Hw) (n : Nat) (c d : Encoder) : (h.setEncoder n c).setEncoder n d = h.setEncoder n d := by
  simp [Hw.setEncoder]
@[simp] theorem Hw.setOutput_setOutput (h : Hw) (n : Nat) (c d : Output) : (h.setOutput n c).setOutput n d = h.setOutput n d := by
  simp [Hw.setOutput]
@[simp] theorem Hw.setEthPort_setEthPort (h : Hw) (n : Nat) (c d : EthPort) : (h.setEthPort n c).setEthPort n d = h.setEthPort n d := by
  simp [Hw.setEthPort]
@[simp] theorem Hw.setLink_setLink (h : Hw) (n : Nat) (c d : Link) : (h.setLink n c).setLink n d = h.setLink n d := by
  simp [Hw.setLink]
@[simp] theorem Hw.setUnitRec_setUnitRec (h : Hw) (n : Nat) (c d : UnitRec) : (h.setUnitRec n c).setUnitRec n d = h.setUnitRec n d := by
  simp [Hw.setUnitRec]
@[simp] theorem Hw.setCage_setCage (h : Hw) (n : Nat) (c d : Cage) : (h.setCage n c).setCage n d = h.setCage n d := by
  simp [Hw.setCage]
@[simp] theorem Hw.setGran_setGran (h : Hw) (n : Nat) (c d : Gran) : (h.setGran n c).setGran n d = h.setGran n d := by
  simp [Hw.setGran]
@[simp] theorem Hw.setReg_setReg (h : Hw) (n : Nat) (c d : Word) : (h.setReg n c).setReg n d = h.setReg n d := by
  simp [Hw.setReg]

end Sys2Proof.Machine
end

