-- ==== Sys2Proof/Laws/Finish.lean ====
section
/-! SUPPORT. What the end of a bundle leaves alone: it moves the program counter and the loop and repeat-cache state, and no
register, memory, tag or wait of the core. -/

namespace Sys2Proof.Machine

theorem foldl_keeps {α β : Type} (get : Core → β) (f : Core → α → Core) (hf : ∀ c x, get (f c x) = get c) (l : List α) (c : Core) :
    get (l.foldl f c) = get c := by
  induction l generalizing c with
  | nil => rfl
  | cons x t ih => rw [List.foldl_cons, ih, hf]

@[simp] theorem Core.goto_run (c : Core) (pc : BitVec 16) : (c.goto pc).run = c.run := rfl
@[simp] theorem Core.setLoop_run (c : Core) (sel : Nat) (v : Word) : (c.setLoop sel v).run = c.run := by unfold Core.setLoop; split <;> rfl
@[simp] theorem Core.fill_run (c : Core) : c.fill.run = c.run := by
  unfold Core.fill; split
  · split <;> rfl
  · rfl
@[simp] theorem Core.stepLate_run (c : Core) : c.stepLate.run = c.run := by
  unfold Core.stepLate; exact foldl_keeps (·.run) _ (fun c x => Core.setLoop_run c _ _) _ c
@[simp] theorem Core.loopBack_run (c : Core) (a b : BitVec 16) : (c.loopBack a b).run = c.run := by
  unfold Core.loopBack; simp only [Core.goto_run]; split <;> rfl
@[simp] theorem Core.endCheck_run (c : Core) (n : Nat) : (c.endCheck n).run = c.run := by
  unfold Core.endCheck; simp only; repeat' split
  all_goals simp
@[simp] theorem Core.finish_run (c : Core) (n : Nat) (t : Option (BitVec 16)) : (c.finish n t).run = c.run := by
  unfold Core.finish; split <;> simp

@[simp] theorem Core.goto_ran (c : Core) (pc : BitVec 16) : (c.goto pc).ran = c.ran := rfl
@[simp] theorem Core.setLoop_ran (c : Core) (sel : Nat) (v : Word) : (c.setLoop sel v).ran = c.ran := by unfold Core.setLoop; split <;> rfl
@[simp] theorem Core.fill_ran (c : Core) : c.fill.ran = c.ran := by
  unfold Core.fill; split
  · split <;> rfl
  · rfl
@[simp] theorem Core.stepLate_ran (c : Core) : c.stepLate.ran = c.ran := by
  unfold Core.stepLate; exact foldl_keeps (·.ran) _ (fun c x => Core.setLoop_ran c _ _) _ c
@[simp] theorem Core.loopBack_ran (c : Core) (a b : BitVec 16) : (c.loopBack a b).ran = c.ran := by
  unfold Core.loopBack; simp only [Core.goto_ran]; split <;> rfl
@[simp] theorem Core.endCheck_ran (c : Core) (n : Nat) : (c.endCheck n).ran = c.ran := by
  unfold Core.endCheck; simp only; repeat' split
  all_goals simp
@[simp] theorem Core.finish_ran (c : Core) (n : Nat) (t : Option (BitVec 16)) : (c.finish n t).ran = c.ran := by
  unfold Core.finish; split <;> simp

@[simp] theorem Core.goto_halted (c : Core) (pc : BitVec 16) : (c.goto pc).halted = c.halted := rfl
@[simp] theorem Core.setLoop_halted (c : Core) (sel : Nat) (v : Word) : (c.setLoop sel v).halted = c.halted := by unfold Core.setLoop; split <;> rfl
@[simp] theorem Core.fill_halted (c : Core) : c.fill.halted = c.halted := by
  unfold Core.fill; split
  · split <;> rfl
  · rfl
@[simp] theorem Core.stepLate_halted (c : Core) : c.stepLate.halted = c.halted := by
  unfold Core.stepLate; exact foldl_keeps (·.halted) _ (fun c x => Core.setLoop_halted c _ _) _ c
@[simp] theorem Core.loopBack_halted (c : Core) (a b : BitVec 16) : (c.loopBack a b).halted = c.halted := by
  unfold Core.loopBack; simp only [Core.goto_halted]; split <;> rfl
@[simp] theorem Core.endCheck_halted (c : Core) (n : Nat) : (c.endCheck n).halted = c.halted := by
  unfold Core.endCheck; simp only; repeat' split
  all_goals simp
@[simp] theorem Core.finish_halted (c : Core) (n : Nat) (t : Option (BitVec 16)) : (c.finish n t).halted = c.halted := by
  unfold Core.finish; split <;> simp

@[simp] theorem Core.goto_slot (c : Core) (pc : BitVec 16) : (c.goto pc).slot = c.slot := rfl
@[simp] theorem Core.setLoop_slot (c : Core) (sel : Nat) (v : Word) : (c.setLoop sel v).slot = c.slot := by unfold Core.setLoop; split <;> rfl
@[simp] theorem Core.fill_slot (c : Core) : c.fill.slot = c.slot := by
  unfold Core.fill; split
  · split <;> rfl
  · rfl
@[simp] theorem Core.stepLate_slot (c : Core) : c.stepLate.slot = c.slot := by
  unfold Core.stepLate; exact foldl_keeps (·.slot) _ (fun c x => Core.setLoop_slot c _ _) _ c
@[simp] theorem Core.loopBack_slot (c : Core) (a b : BitVec 16) : (c.loopBack a b).slot = c.slot := by
  unfold Core.loopBack; simp only [Core.goto_slot]; split <;> rfl
@[simp] theorem Core.endCheck_slot (c : Core) (n : Nat) : (c.endCheck n).slot = c.slot := by
  unfold Core.endCheck; simp only; repeat' split
  all_goals simp
@[simp] theorem Core.finish_slot (c : Core) (n : Nat) (t : Option (BitVec 16)) : (c.finish n t).slot = c.slot := by
  unfold Core.finish; split <;> simp

@[simp] theorem Core.goto_job (c : Core) (pc : BitVec 16) : (c.goto pc).job = c.job := rfl
@[simp] theorem Core.setLoop_job (c : Core) (sel : Nat) (v : Word) : (c.setLoop sel v).job = c.job := by unfold Core.setLoop; split <;> rfl
@[simp] theorem Core.fill_job (c : Core) : c.fill.job = c.job := by
  unfold Core.fill; split
  · split <;> rfl
  · rfl
@[simp] theorem Core.stepLate_job (c : Core) : c.stepLate.job = c.job := by
  unfold Core.stepLate; exact foldl_keeps (·.job) _ (fun c x => Core.setLoop_job c _ _) _ c
@[simp] theorem Core.loopBack_job (c : Core) (a b : BitVec 16) : (c.loopBack a b).job = c.job := by
  unfold Core.loopBack; simp only [Core.goto_job]; split <;> rfl
@[simp] theorem Core.endCheck_job (c : Core) (n : Nat) : (c.endCheck n).job = c.job := by
  unfold Core.endCheck; simp only; repeat' split
  all_goals simp
@[simp] theorem Core.finish_job (c : Core) (n : Nat) (t : Option (BitVec 16)) : (c.finish n t).job = c.job := by
  unfold Core.finish; split <;> simp

@[simp] theorem Core.goto_half (c : Core) (pc : BitVec 16) : (c.goto pc).half = c.half := rfl
@[simp] theorem Core.setLoop_half (c : Core) (sel : Nat) (v : Word) : (c.setLoop sel v).half = c.half := by unfold Core.setLoop; split <;> rfl
@[simp] theorem Core.fill_half (c : Core) : c.fill.half = c.half := by
  unfold Core.fill; split
  · split <;> rfl
  · rfl
@[simp] theorem Core.stepLate_half (c : Core) : c.stepLate.half = c.half := by
  unfold Core.stepLate; exact foldl_keeps (·.half) _ (fun c x => Core.setLoop_half c _ _) _ c
@[simp] theorem Core.loopBack_half (c : Core) (a b : BitVec 16) : (c.loopBack a b).half = c.half := by
  unfold Core.loopBack; simp only [Core.goto_half]; split <;> rfl
@[simp] theorem Core.endCheck_half (c : Core) (n : Nat) : (c.endCheck n).half = c.half := by
  unfold Core.endCheck; simp only; repeat' split
  all_goals simp
@[simp] theorem Core.finish_half (c : Core) (n : Nat) (t : Option (BitVec 16)) : (c.finish n t).half = c.half := by
  unfold Core.finish; split <;> simp

@[simp] theorem Core.goto_rank (c : Core) (pc : BitVec 16) : (c.goto pc).rank = c.rank := rfl
@[simp] theorem Core.setLoop_rank (c : Core) (sel : Nat) (v : Word) : (c.setLoop sel v).rank = c.rank := by unfold Core.setLoop; split <;> rfl
@[simp] theorem Core.fill_rank (c : Core) : c.fill.rank = c.rank := by
  unfold Core.fill; split
  · split <;> rfl
  · rfl
@[simp] theorem Core.stepLate_rank (c : Core) : c.stepLate.rank = c.rank := by
  unfold Core.stepLate; exact foldl_keeps (·.rank) _ (fun c x => Core.setLoop_rank c _ _) _ c
@[simp] theorem Core.loopBack_rank (c : Core) (a b : BitVec 16) : (c.loopBack a b).rank = c.rank := by
  unfold Core.loopBack; simp only [Core.goto_rank]; split <;> rfl
@[simp] theorem Core.endCheck_rank (c : Core) (n : Nat) : (c.endCheck n).rank = c.rank := by
  unfold Core.endCheck; simp only; repeat' split
  all_goals simp
@[simp] theorem Core.finish_rank (c : Core) (n : Nat) (t : Option (BitVec 16)) : (c.finish n t).rank = c.rank := by
  unfold Core.finish; split <;> simp

@[simp] theorem Core.goto_cores (c : Core) (pc : BitVec 16) : (c.goto pc).cores = c.cores := rfl
@[simp] theorem Core.setLoop_cores (c : Core) (sel : Nat) (v : Word) : (c.setLoop sel v).cores = c.cores := by unfold Core.setLoop; split <;> rfl
@[simp] theorem Core.fill_cores (c : Core) : c.fill.cores = c.cores := by
  unfold Core.fill; split
  · split <;> rfl
  · rfl
@[simp] theorem Core.stepLate_cores (c : Core) : c.stepLate.cores = c.cores := by
  unfold Core.stepLate; exact foldl_keeps (·.cores) _ (fun c x => Core.setLoop_cores c _ _) _ c
@[simp] theorem Core.loopBack_cores (c : Core) (a b : BitVec 16) : (c.loopBack a b).cores = c.cores := by
  unfold Core.loopBack; simp only [Core.goto_cores]; split <;> rfl
@[simp] theorem Core.endCheck_cores (c : Core) (n : Nat) : (c.endCheck n).cores = c.cores := by
  unfold Core.endCheck; simp only; repeat' split
  all_goals simp
@[simp] theorem Core.finish_cores (c : Core) (n : Nat) (t : Option (BitVec 16)) : (c.finish n t).cores = c.cores := by
  unfold Core.finish; split <;> simp

@[simp] theorem Core.goto_s (c : Core) (pc : BitVec 16) : (c.goto pc).s = c.s := rfl
@[simp] theorem Core.setLoop_s (c : Core) (sel : Nat) (v : Word) : (c.setLoop sel v).s = c.s := by unfold Core.setLoop; split <;> rfl
@[simp] theorem Core.fill_s (c : Core) : c.fill.s = c.s := by
  unfold Core.fill; split
  · split <;> rfl
  · rfl
@[simp] theorem Core.stepLate_s (c : Core) : c.stepLate.s = c.s := by
  unfold Core.stepLate; exact foldl_keeps (·.s) _ (fun c x => Core.setLoop_s c _ _) _ c
@[simp] theorem Core.loopBack_s (c : Core) (a b : BitVec 16) : (c.loopBack a b).s = c.s := by
  unfold Core.loopBack; simp only [Core.goto_s]; split <;> rfl
@[simp] theorem Core.endCheck_s (c : Core) (n : Nat) : (c.endCheck n).s = c.s := by
  unfold Core.endCheck; simp only; repeat' split
  all_goals simp
@[simp] theorem Core.finish_s (c : Core) (n : Nat) (t : Option (BitVec 16)) : (c.finish n t).s = c.s := by
  unfold Core.finish; split <;> simp

@[simp] theorem Core.goto_p (c : Core) (pc : BitVec 16) : (c.goto pc).p = c.p := rfl
@[simp] theorem Core.setLoop_p (c : Core) (sel : Nat) (v : Word) : (c.setLoop sel v).p = c.p := by unfold Core.setLoop; split <;> rfl
@[simp] theorem Core.fill_p (c : Core) : c.fill.p = c.p := by
  unfold Core.fill; split
  · split <;> rfl
  · rfl
@[simp] theorem Core.stepLate_p (c : Core) : c.stepLate.p = c.p := by
  unfold Core.stepLate; exact foldl_keeps (·.p) _ (fun c x => Core.setLoop_p c _ _) _ c
@[simp] theorem Core.loopBack_p (c : Core) (a b : BitVec 16) : (c.loopBack a b).p = c.p := by
  unfold Core.loopBack; simp only [Core.goto_p]; split <;> rfl
@[simp] theorem Core.endCheck_p (c : Core) (n : Nat) : (c.endCheck n).p = c.p := by
  unfold Core.endCheck; simp only; repeat' split
  all_goals simp
@[simp] theorem Core.finish_p (c : Core) (n : Nat) (t : Option (BitVec 16)) : (c.finish n t).p = c.p := by
  unfold Core.finish; split <;> simp

@[simp] theorem Core.goto_g (c : Core) (pc : BitVec 16) : (c.goto pc).g = c.g := rfl
@[simp] theorem Core.setLoop_g (c : Core) (sel : Nat) (v : Word) : (c.setLoop sel v).g = c.g := by unfold Core.setLoop; split <;> rfl
@[simp] theorem Core.fill_g (c : Core) : c.fill.g = c.g := by
  unfold Core.fill; split
  · split <;> rfl
  · rfl
@[simp] theorem Core.stepLate_g (c : Core) : c.stepLate.g = c.g := by
  unfold Core.stepLate; exact foldl_keeps (·.g) _ (fun c x => Core.setLoop_g c _ _) _ c
@[simp] theorem Core.loopBack_g (c : Core) (a b : BitVec 16) : (c.loopBack a b).g = c.g := by
  unfold Core.loopBack; simp only [Core.goto_g]; split <;> rfl
@[simp] theorem Core.endCheck_g (c : Core) (n : Nat) : (c.endCheck n).g = c.g := by
  unfold Core.endCheck; simp only; repeat' split
  all_goals simp
@[simp] theorem Core.finish_g (c : Core) (n : Nat) (t : Option (BitVec 16)) : (c.finish n t).g = c.g := by
  unfold Core.finish; split <;> simp

@[simp] theorem Core.goto_m (c : Core) (pc : BitVec 16) : (c.goto pc).m = c.m := rfl
@[simp] theorem Core.setLoop_m (c : Core) (sel : Nat) (v : Word) : (c.setLoop sel v).m = c.m := by unfold Core.setLoop; split <;> rfl
@[simp] theorem Core.fill_m (c : Core) : c.fill.m = c.m := by
  unfold Core.fill; split
  · split <;> rfl
  · rfl
@[simp] theorem Core.stepLate_m (c : Core) : c.stepLate.m = c.m := by
  unfold Core.stepLate; exact foldl_keeps (·.m) _ (fun c x => Core.setLoop_m c _ _) _ c
@[simp] theorem Core.loopBack_m (c : Core) (a b : BitVec 16) : (c.loopBack a b).m = c.m := by
  unfold Core.loopBack; simp only [Core.goto_m]; split <;> rfl
@[simp] theorem Core.endCheck_m (c : Core) (n : Nat) : (c.endCheck n).m = c.m := by
  unfold Core.endCheck; simp only; repeat' split
  all_goals simp
@[simp] theorem Core.finish_m (c : Core) (n : Nat) (t : Option (BitVec 16)) : (c.finish n t).m = c.m := by
  unfold Core.finish; split <;> simp

@[simp] theorem Core.goto_a (c : Core) (pc : BitVec 16) : (c.goto pc).a = c.a := rfl
@[simp] theorem Core.setLoop_a (c : Core) (sel : Nat) (v : Word) : (c.setLoop sel v).a = c.a := by unfold Core.setLoop; split <;> rfl
@[simp] theorem Core.fill_a (c : Core) : c.fill.a = c.a := by
  unfold Core.fill; split
  · split <;> rfl
  · rfl
@[simp] theorem Core.stepLate_a (c : Core) : c.stepLate.a = c.a := by
  unfold Core.stepLate; exact foldl_keeps (·.a) _ (fun c x => Core.setLoop_a c _ _) _ c
@[simp] theorem Core.loopBack_a (c : Core) (a b : BitVec 16) : (c.loopBack a b).a = c.a := by
  unfold Core.loopBack; simp only [Core.goto_a]; split <;> rfl
@[simp] theorem Core.endCheck_a (c : Core) (n : Nat) : (c.endCheck n).a = c.a := by
  unfold Core.endCheck; simp only; repeat' split
  all_goals simp
@[simp] theorem Core.finish_a (c : Core) (n : Nat) (t : Option (BitVec 16)) : (c.finish n t).a = c.a := by
  unfold Core.finish; split <;> simp

@[simp] theorem Core.goto_v (c : Core) (pc : BitVec 16) : (c.goto pc).v = c.v := rfl
@[simp] theorem Core.setLoop_v (c : Core) (sel : Nat) (v : Word) : (c.setLoop sel v).v = c.v := by unfold Core.setLoop; split <;> rfl
@[simp] theorem Core.fill_v (c : Core) : c.fill.v = c.v := by
  unfold Core.fill; split
  · split <;> rfl
  · rfl
@[simp] theorem Core.stepLate_v (c : Core) : c.stepLate.v = c.v := by
  unfold Core.stepLate; exact foldl_keeps (·.v) _ (fun c x => Core.setLoop_v c _ _) _ c
@[simp] theorem Core.loopBack_v (c : Core) (a b : BitVec 16) : (c.loopBack a b).v = c.v := by
  unfold Core.loopBack; simp only [Core.goto_v]; split <;> rfl
@[simp] theorem Core.endCheck_v (c : Core) (n : Nat) : (c.endCheck n).v = c.v := by
  unfold Core.endCheck; simp only; repeat' split
  all_goals simp
@[simp] theorem Core.finish_v (c : Core) (n : Nat) (t : Option (BitVec 16)) : (c.finish n t).v = c.v := by
  unfold Core.finish; split <;> simp

@[simp] theorem Core.goto_k (c : Core) (pc : BitVec 16) : (c.goto pc).k = c.k := rfl
@[simp] theorem Core.setLoop_k (c : Core) (sel : Nat) (v : Word) : (c.setLoop sel v).k = c.k := by unfold Core.setLoop; split <;> rfl
@[simp] theorem Core.fill_k (c : Core) : c.fill.k = c.k := by
  unfold Core.fill; split
  · split <;> rfl
  · rfl
@[simp] theorem Core.stepLate_k (c : Core) : c.stepLate.k = c.k := by
  unfold Core.stepLate; exact foldl_keeps (·.k) _ (fun c x => Core.setLoop_k c _ _) _ c
@[simp] theorem Core.loopBack_k (c : Core) (a b : BitVec 16) : (c.loopBack a b).k = c.k := by
  unfold Core.loopBack; simp only [Core.goto_k]; split <;> rfl
@[simp] theorem Core.endCheck_k (c : Core) (n : Nat) : (c.endCheck n).k = c.k := by
  unfold Core.endCheck; simp only; repeat' split
  all_goals simp
@[simp] theorem Core.finish_k (c : Core) (n : Nat) (t : Option (BitVec 16)) : (c.finish n t).k = c.k := by
  unfold Core.finish; split <;> simp

@[simp] theorem Core.goto_w (c : Core) (pc : BitVec 16) : (c.goto pc).w = c.w := rfl
@[simp] theorem Core.setLoop_w (c : Core) (sel : Nat) (v : Word) : (c.setLoop sel v).w = c.w := by unfold Core.setLoop; split <;> rfl
@[simp] theorem Core.fill_w (c : Core) : c.fill.w = c.w := by
  unfold Core.fill; split
  · split <;> rfl
  · rfl
@[simp] theorem Core.stepLate_w (c : Core) : c.stepLate.w = c.w := by
  unfold Core.stepLate; exact foldl_keeps (·.w) _ (fun c x => Core.setLoop_w c _ _) _ c
@[simp] theorem Core.loopBack_w (c : Core) (a b : BitVec 16) : (c.loopBack a b).w = c.w := by
  unfold Core.loopBack; simp only [Core.goto_w]; split <;> rfl
@[simp] theorem Core.endCheck_w (c : Core) (n : Nat) : (c.endCheck n).w = c.w := by
  unfold Core.endCheck; simp only; repeat' split
  all_goals simp
@[simp] theorem Core.finish_w (c : Core) (n : Nat) (t : Option (BitVec 16)) : (c.finish n t).w = c.w := by
  unfold Core.finish; split <;> simp

@[simp] theorem Core.goto_shadow (c : Core) (pc : BitVec 16) : (c.goto pc).shadow = c.shadow := rfl
@[simp] theorem Core.setLoop_shadow (c : Core) (sel : Nat) (v : Word) : (c.setLoop sel v).shadow = c.shadow := by unfold Core.setLoop; split <;> rfl
@[simp] theorem Core.fill_shadow (c : Core) : c.fill.shadow = c.shadow := by
  unfold Core.fill; split
  · split <;> rfl
  · rfl
@[simp] theorem Core.stepLate_shadow (c : Core) : c.stepLate.shadow = c.shadow := by
  unfold Core.stepLate; exact foldl_keeps (·.shadow) _ (fun c x => Core.setLoop_shadow c _ _) _ c
@[simp] theorem Core.loopBack_shadow (c : Core) (a b : BitVec 16) : (c.loopBack a b).shadow = c.shadow := by
  unfold Core.loopBack; simp only [Core.goto_shadow]; split <;> rfl
@[simp] theorem Core.endCheck_shadow (c : Core) (n : Nat) : (c.endCheck n).shadow = c.shadow := by
  unfold Core.endCheck; simp only; repeat' split
  all_goals simp
@[simp] theorem Core.finish_shadow (c : Core) (n : Nat) (t : Option (BitVec 16)) : (c.finish n t).shadow = c.shadow := by
  unfold Core.finish; split <;> simp

@[simp] theorem Core.goto_ctlNew (c : Core) (pc : BitVec 16) : (c.goto pc).ctlNew = c.ctlNew := rfl
@[simp] theorem Core.setLoop_ctlNew (c : Core) (sel : Nat) (v : Word) : (c.setLoop sel v).ctlNew = c.ctlNew := by unfold Core.setLoop; split <;> rfl
@[simp] theorem Core.fill_ctlNew (c : Core) : c.fill.ctlNew = c.ctlNew := by
  unfold Core.fill; split
  · split <;> rfl
  · rfl
@[simp] theorem Core.stepLate_ctlNew (c : Core) : c.stepLate.ctlNew = c.ctlNew := by
  unfold Core.stepLate; exact foldl_keeps (·.ctlNew) _ (fun c x => Core.setLoop_ctlNew c _ _) _ c
@[simp] theorem Core.loopBack_ctlNew (c : Core) (a b : BitVec 16) : (c.loopBack a b).ctlNew = c.ctlNew := by
  unfold Core.loopBack; simp only [Core.goto_ctlNew]; split <;> rfl
@[simp] theorem Core.endCheck_ctlNew (c : Core) (n : Nat) : (c.endCheck n).ctlNew = c.ctlNew := by
  unfold Core.endCheck; simp only; repeat' split
  all_goals simp
@[simp] theorem Core.finish_ctlNew (c : Core) (n : Nat) (t : Option (BitVec 16)) : (c.finish n t).ctlNew = c.ctlNew := by
  unfold Core.finish; split <;> simp

@[simp] theorem Core.goto_winNew (c : Core) (pc : BitVec 16) : (c.goto pc).winNew = c.winNew := rfl
@[simp] theorem Core.setLoop_winNew (c : Core) (sel : Nat) (v : Word) : (c.setLoop sel v).winNew = c.winNew := by unfold Core.setLoop; split <;> rfl
@[simp] theorem Core.fill_winNew (c : Core) : c.fill.winNew = c.winNew := by
  unfold Core.fill; split
  · split <;> rfl
  · rfl
@[simp] theorem Core.stepLate_winNew (c : Core) : c.stepLate.winNew = c.winNew := by
  unfold Core.stepLate; exact foldl_keeps (·.winNew) _ (fun c x => Core.setLoop_winNew c _ _) _ c
@[simp] theorem Core.loopBack_winNew (c : Core) (a b : BitVec 16) : (c.loopBack a b).winNew = c.winNew := by
  unfold Core.loopBack; simp only [Core.goto_winNew]; split <;> rfl
@[simp] theorem Core.endCheck_winNew (c : Core) (n : Nat) : (c.endCheck n).winNew = c.winNew := by
  unfold Core.endCheck; simp only; repeat' split
  all_goals simp
@[simp] theorem Core.finish_winNew (c : Core) (n : Nat) (t : Option (BitVec 16)) : (c.finish n t).winNew = c.winNew := by
  unfold Core.finish; split <;> simp

@[simp] theorem Core.goto_crSnap (c : Core) (pc : BitVec 16) : (c.goto pc).crSnap = c.crSnap := rfl
@[simp] theorem Core.setLoop_crSnap (c : Core) (sel : Nat) (v : Word) : (c.setLoop sel v).crSnap = c.crSnap := by unfold Core.setLoop; split <;> rfl
@[simp] theorem Core.fill_crSnap (c : Core) : c.fill.crSnap = c.crSnap := by
  unfold Core.fill; split
  · split <;> rfl
  · rfl
@[simp] theorem Core.stepLate_crSnap (c : Core) : c.stepLate.crSnap = c.crSnap := by
  unfold Core.stepLate; exact foldl_keeps (·.crSnap) _ (fun c x => Core.setLoop_crSnap c _ _) _ c
@[simp] theorem Core.loopBack_crSnap (c : Core) (a b : BitVec 16) : (c.loopBack a b).crSnap = c.crSnap := by
  unfold Core.loopBack; simp only [Core.goto_crSnap]; split <;> rfl
@[simp] theorem Core.endCheck_crSnap (c : Core) (n : Nat) : (c.endCheck n).crSnap = c.crSnap := by
  unfold Core.endCheck; simp only; repeat' split
  all_goals simp
@[simp] theorem Core.finish_crSnap (c : Core) (n : Nat) (t : Option (BitVec 16)) : (c.finish n t).crSnap = c.crSnap := by
  unfold Core.finish; split <;> simp

@[simp] theorem Core.goto_crHeld (c : Core) (pc : BitVec 16) : (c.goto pc).crHeld = c.crHeld := rfl
@[simp] theorem Core.setLoop_crHeld (c : Core) (sel : Nat) (v : Word) : (c.setLoop sel v).crHeld = c.crHeld := by unfold Core.setLoop; split <;> rfl
@[simp] theorem Core.fill_crHeld (c : Core) : c.fill.crHeld = c.crHeld := by
  unfold Core.fill; split
  · split <;> rfl
  · rfl
@[simp] theorem Core.stepLate_crHeld (c : Core) : c.stepLate.crHeld = c.crHeld := by
  unfold Core.stepLate; exact foldl_keeps (·.crHeld) _ (fun c x => Core.setLoop_crHeld c _ _) _ c
@[simp] theorem Core.loopBack_crHeld (c : Core) (a b : BitVec 16) : (c.loopBack a b).crHeld = c.crHeld := by
  unfold Core.loopBack; simp only [Core.goto_crHeld]; split <;> rfl
@[simp] theorem Core.endCheck_crHeld (c : Core) (n : Nat) : (c.endCheck n).crHeld = c.crHeld := by
  unfold Core.endCheck; simp only; repeat' split
  all_goals simp
@[simp] theorem Core.finish_crHeld (c : Core) (n : Nat) (t : Option (BitVec 16)) : (c.finish n t).crHeld = c.crHeld := by
  unfold Core.finish; split <;> simp

@[simp] theorem Core.goto_x (c : Core) (pc : BitVec 16) : (c.goto pc).x = c.x := rfl
@[simp] theorem Core.setLoop_x (c : Core) (sel : Nat) (v : Word) : (c.setLoop sel v).x = c.x := by unfold Core.setLoop; split <;> rfl
@[simp] theorem Core.fill_x (c : Core) : c.fill.x = c.x := by
  unfold Core.fill; split
  · split <;> rfl
  · rfl
@[simp] theorem Core.stepLate_x (c : Core) : c.stepLate.x = c.x := by
  unfold Core.stepLate; exact foldl_keeps (·.x) _ (fun c x => Core.setLoop_x c _ _) _ c
@[simp] theorem Core.loopBack_x (c : Core) (a b : BitVec 16) : (c.loopBack a b).x = c.x := by
  unfold Core.loopBack; simp only [Core.goto_x]; split <;> rfl
@[simp] theorem Core.endCheck_x (c : Core) (n : Nat) : (c.endCheck n).x = c.x := by
  unfold Core.endCheck; simp only; repeat' split
  all_goals simp
@[simp] theorem Core.finish_x (c : Core) (n : Nat) (t : Option (BitVec 16)) : (c.finish n t).x = c.x := by
  unfold Core.finish; split <;> simp

@[simp] theorem Core.goto_y (c : Core) (pc : BitVec 16) : (c.goto pc).y = c.y := rfl
@[simp] theorem Core.setLoop_y (c : Core) (sel : Nat) (v : Word) : (c.setLoop sel v).y = c.y := by unfold Core.setLoop; split <;> rfl
@[simp] theorem Core.fill_y (c : Core) : c.fill.y = c.y := by
  unfold Core.fill; split
  · split <;> rfl
  · rfl
@[simp] theorem Core.stepLate_y (c : Core) : c.stepLate.y = c.y := by
  unfold Core.stepLate; exact foldl_keeps (·.y) _ (fun c x => Core.setLoop_y c _ _) _ c
@[simp] theorem Core.loopBack_y (c : Core) (a b : BitVec 16) : (c.loopBack a b).y = c.y := by
  unfold Core.loopBack; simp only [Core.goto_y]; split <;> rfl
@[simp] theorem Core.endCheck_y (c : Core) (n : Nat) : (c.endCheck n).y = c.y := by
  unfold Core.endCheck; simp only; repeat' split
  all_goals simp
@[simp] theorem Core.finish_y (c : Core) (n : Nat) (t : Option (BitVec 16)) : (c.finish n t).y = c.y := by
  unfold Core.finish; split <;> simp

@[simp] theorem Core.goto_pm (c : Core) (pc : BitVec 16) : (c.goto pc).pm = c.pm := rfl
@[simp] theorem Core.setLoop_pm (c : Core) (sel : Nat) (v : Word) : (c.setLoop sel v).pm = c.pm := by unfold Core.setLoop; split <;> rfl
@[simp] theorem Core.fill_pm (c : Core) : c.fill.pm = c.pm := by
  unfold Core.fill; split
  · split <;> rfl
  · rfl
@[simp] theorem Core.stepLate_pm (c : Core) : c.stepLate.pm = c.pm := by
  unfold Core.stepLate; exact foldl_keeps (·.pm) _ (fun c x => Core.setLoop_pm c _ _) _ c
@[simp] theorem Core.loopBack_pm (c : Core) (a b : BitVec 16) : (c.loopBack a b).pm = c.pm := by
  unfold Core.loopBack; simp only [Core.goto_pm]; split <;> rfl
@[simp] theorem Core.endCheck_pm (c : Core) (n : Nat) : (c.endCheck n).pm = c.pm := by
  unfold Core.endCheck; simp only; repeat' split
  all_goals simp
@[simp] theorem Core.finish_pm (c : Core) (n : Nat) (t : Option (BitVec 16)) : (c.finish n t).pm = c.pm := by
  unfold Core.finish; split <;> simp

@[simp] theorem Core.goto_fetch (c : Core) (pc : BitVec 16) : (c.goto pc).fetch = c.fetch := rfl
@[simp] theorem Core.setLoop_fetch (c : Core) (sel : Nat) (v : Word) : (c.setLoop sel v).fetch = c.fetch := by unfold Core.setLoop; split <;> rfl
@[simp] theorem Core.fill_fetch (c : Core) : c.fill.fetch = c.fetch := by
  unfold Core.fill; split
  · split <;> rfl
  · rfl
@[simp] theorem Core.stepLate_fetch (c : Core) : c.stepLate.fetch = c.fetch := by
  unfold Core.stepLate; exact foldl_keeps (·.fetch) _ (fun c x => Core.setLoop_fetch c _ _) _ c
@[simp] theorem Core.loopBack_fetch (c : Core) (a b : BitVec 16) : (c.loopBack a b).fetch = c.fetch := by
  unfold Core.loopBack; simp only [Core.goto_fetch]; split <;> rfl
@[simp] theorem Core.endCheck_fetch (c : Core) (n : Nat) : (c.endCheck n).fetch = c.fetch := by
  unfold Core.endCheck; simp only; repeat' split
  all_goals simp
@[simp] theorem Core.finish_fetch (c : Core) (n : Nat) (t : Option (BitVec 16)) : (c.finish n t).fetch = c.fetch := by
  unfold Core.finish; split <;> simp

@[simp] theorem Core.goto_image (c : Core) (pc : BitVec 16) : (c.goto pc).image = c.image := rfl
@[simp] theorem Core.setLoop_image (c : Core) (sel : Nat) (v : Word) : (c.setLoop sel v).image = c.image := by unfold Core.setLoop; split <;> rfl
@[simp] theorem Core.fill_image (c : Core) : c.fill.image = c.image := by
  unfold Core.fill; split
  · split <;> rfl
  · rfl
@[simp] theorem Core.stepLate_image (c : Core) : c.stepLate.image = c.image := by
  unfold Core.stepLate; exact foldl_keeps (·.image) _ (fun c x => Core.setLoop_image c _ _) _ c
@[simp] theorem Core.loopBack_image (c : Core) (a b : BitVec 16) : (c.loopBack a b).image = c.image := by
  unfold Core.loopBack; simp only [Core.goto_image]; split <;> rfl
@[simp] theorem Core.endCheck_image (c : Core) (n : Nat) : (c.endCheck n).image = c.image := by
  unfold Core.endCheck; simp only; repeat' split
  all_goals simp
@[simp] theorem Core.finish_image (c : Core) (n : Nat) (t : Option (BitVec 16)) : (c.finish n t).image = c.image := by
  unfold Core.finish; split <;> simp

@[simp] theorem Core.goto_tags (c : Core) (pc : BitVec 16) : (c.goto pc).tags = c.tags := rfl
@[simp] theorem Core.setLoop_tags (c : Core) (sel : Nat) (v : Word) : (c.setLoop sel v).tags = c.tags := by unfold Core.setLoop; split <;> rfl
@[simp] theorem Core.fill_tags (c : Core) : c.fill.tags = c.tags := by
  unfold Core.fill; split
  · split <;> rfl
  · rfl
@[simp] theorem Core.stepLate_tags (c : Core) : c.stepLate.tags = c.tags := by
  unfold Core.stepLate; exact foldl_keeps (·.tags) _ (fun c x => Core.setLoop_tags c _ _) _ c
@[simp] theorem Core.loopBack_tags (c : Core) (a b : BitVec 16) : (c.loopBack a b).tags = c.tags := by
  unfold Core.loopBack; simp only [Core.goto_tags]; split <;> rfl
@[simp] theorem Core.endCheck_tags (c : Core) (n : Nat) : (c.endCheck n).tags = c.tags := by
  unfold Core.endCheck; simp only; repeat' split
  all_goals simp
@[simp] theorem Core.finish_tags (c : Core) (n : Nat) (t : Option (BitVec 16)) : (c.finish n t).tags = c.tags := by
  unfold Core.finish; split <;> simp

@[simp] theorem Core.goto_queue (c : Core) (pc : BitVec 16) : (c.goto pc).queue = c.queue := rfl
@[simp] theorem Core.setLoop_queue (c : Core) (sel : Nat) (v : Word) : (c.setLoop sel v).queue = c.queue := by unfold Core.setLoop; split <;> rfl
@[simp] theorem Core.fill_queue (c : Core) : c.fill.queue = c.queue := by
  unfold Core.fill; split
  · split <;> rfl
  · rfl
@[simp] theorem Core.stepLate_queue (c : Core) : c.stepLate.queue = c.queue := by
  unfold Core.stepLate; exact foldl_keeps (·.queue) _ (fun c x => Core.setLoop_queue c _ _) _ c
@[simp] theorem Core.loopBack_queue (c : Core) (a b : BitVec 16) : (c.loopBack a b).queue = c.queue := by
  unfold Core.loopBack; simp only [Core.goto_queue]; split <;> rfl
@[simp] theorem Core.endCheck_queue (c : Core) (n : Nat) : (c.endCheck n).queue = c.queue := by
  unfold Core.endCheck; simp only; repeat' split
  all_goals simp
@[simp] theorem Core.finish_queue (c : Core) (n : Nat) (t : Option (BitVec 16)) : (c.finish n t).queue = c.queue := by
  unfold Core.finish; split <;> simp

@[simp] theorem Core.goto_orders (c : Core) (pc : BitVec 16) : (c.goto pc).orders = c.orders := rfl
@[simp] theorem Core.setLoop_orders (c : Core) (sel : Nat) (v : Word) : (c.setLoop sel v).orders = c.orders := by unfold Core.setLoop; split <;> rfl
@[simp] theorem Core.fill_orders (c : Core) : c.fill.orders = c.orders := by
  unfold Core.fill; split
  · split <;> rfl
  · rfl
@[simp] theorem Core.stepLate_orders (c : Core) : c.stepLate.orders = c.orders := by
  unfold Core.stepLate; exact foldl_keeps (·.orders) _ (fun c x => Core.setLoop_orders c _ _) _ c
@[simp] theorem Core.loopBack_orders (c : Core) (a b : BitVec 16) : (c.loopBack a b).orders = c.orders := by
  unfold Core.loopBack; simp only [Core.goto_orders]; split <;> rfl
@[simp] theorem Core.endCheck_orders (c : Core) (n : Nat) : (c.endCheck n).orders = c.orders := by
  unfold Core.endCheck; simp only; repeat' split
  all_goals simp
@[simp] theorem Core.finish_orders (c : Core) (n : Nat) (t : Option (BitVec 16)) : (c.finish n t).orders = c.orders := by
  unfold Core.finish; split <;> simp

@[simp] theorem Core.goto_tagIssues (c : Core) (pc : BitVec 16) : (c.goto pc).tagIssues = c.tagIssues := rfl
@[simp] theorem Core.setLoop_tagIssues (c : Core) (sel : Nat) (v : Word) : (c.setLoop sel v).tagIssues = c.tagIssues := by unfold Core.setLoop; split <;> rfl
@[simp] theorem Core.fill_tagIssues (c : Core) : c.fill.tagIssues = c.tagIssues := by
  unfold Core.fill; split
  · split <;> rfl
  · rfl
@[simp] theorem Core.stepLate_tagIssues (c : Core) : c.stepLate.tagIssues = c.tagIssues := by
  unfold Core.stepLate; exact foldl_keeps (·.tagIssues) _ (fun c x => Core.setLoop_tagIssues c _ _) _ c
@[simp] theorem Core.loopBack_tagIssues (c : Core) (a b : BitVec 16) : (c.loopBack a b).tagIssues = c.tagIssues := by
  unfold Core.loopBack; simp only [Core.goto_tagIssues]; split <;> rfl
@[simp] theorem Core.endCheck_tagIssues (c : Core) (n : Nat) : (c.endCheck n).tagIssues = c.tagIssues := by
  unfold Core.endCheck; simp only; repeat' split
  all_goals simp
@[simp] theorem Core.finish_tagIssues (c : Core) (n : Nat) (t : Option (BitVec 16)) : (c.finish n t).tagIssues = c.tagIssues := by
  unfold Core.finish; split <;> simp

@[simp] theorem Core.goto_doneOrders (c : Core) (pc : BitVec 16) : (c.goto pc).doneOrders = c.doneOrders := rfl
@[simp] theorem Core.setLoop_doneOrders (c : Core) (sel : Nat) (v : Word) : (c.setLoop sel v).doneOrders = c.doneOrders := by unfold Core.setLoop; split <;> rfl
@[simp] theorem Core.fill_doneOrders (c : Core) : c.fill.doneOrders = c.doneOrders := by
  unfold Core.fill; split
  · split <;> rfl
  · rfl
@[simp] theorem Core.stepLate_doneOrders (c : Core) : c.stepLate.doneOrders = c.doneOrders := by
  unfold Core.stepLate; exact foldl_keeps (·.doneOrders) _ (fun c x => Core.setLoop_doneOrders c _ _) _ c
@[simp] theorem Core.loopBack_doneOrders (c : Core) (a b : BitVec 16) : (c.loopBack a b).doneOrders = c.doneOrders := by
  unfold Core.loopBack; simp only [Core.goto_doneOrders]; split <;> rfl
@[simp] theorem Core.endCheck_doneOrders (c : Core) (n : Nat) : (c.endCheck n).doneOrders = c.doneOrders := by
  unfold Core.endCheck; simp only; repeat' split
  all_goals simp
@[simp] theorem Core.finish_doneOrders (c : Core) (n : Nat) (t : Option (BitVec 16)) : (c.finish n t).doneOrders = c.doneOrders := by
  unfold Core.finish; split <;> simp

@[simp] theorem Core.goto_waits (c : Core) (pc : BitVec 16) : (c.goto pc).waits = c.waits := rfl
@[simp] theorem Core.setLoop_waits (c : Core) (sel : Nat) (v : Word) : (c.setLoop sel v).waits = c.waits := by unfold Core.setLoop; split <;> rfl
@[simp] theorem Core.fill_waits (c : Core) : c.fill.waits = c.waits := by
  unfold Core.fill; split
  · split <;> rfl
  · rfl
@[simp] theorem Core.stepLate_waits (c : Core) : c.stepLate.waits = c.waits := by
  unfold Core.stepLate; exact foldl_keeps (·.waits) _ (fun c x => Core.setLoop_waits c _ _) _ c
@[simp] theorem Core.loopBack_waits (c : Core) (a b : BitVec 16) : (c.loopBack a b).waits = c.waits := by
  unfold Core.loopBack; simp only [Core.goto_waits]; split <;> rfl
@[simp] theorem Core.endCheck_waits (c : Core) (n : Nat) : (c.endCheck n).waits = c.waits := by
  unfold Core.endCheck; simp only; repeat' split
  all_goals simp
@[simp] theorem Core.finish_waits (c : Core) (n : Nat) (t : Option (BitVec 16)) : (c.finish n t).waits = c.waits := by
  unfold Core.finish; split <;> simp

@[simp] theorem Core.goto_synWait (c : Core) (pc : BitVec 16) : (c.goto pc).synWait = c.synWait := rfl
@[simp] theorem Core.setLoop_synWait (c : Core) (sel : Nat) (v : Word) : (c.setLoop sel v).synWait = c.synWait := by unfold Core.setLoop; split <;> rfl
@[simp] theorem Core.fill_synWait (c : Core) : c.fill.synWait = c.synWait := by
  unfold Core.fill; split
  · split <;> rfl
  · rfl
@[simp] theorem Core.stepLate_synWait (c : Core) : c.stepLate.synWait = c.synWait := by
  unfold Core.stepLate; exact foldl_keeps (·.synWait) _ (fun c x => Core.setLoop_synWait c _ _) _ c
@[simp] theorem Core.loopBack_synWait (c : Core) (a b : BitVec 16) : (c.loopBack a b).synWait = c.synWait := by
  unfold Core.loopBack; simp only [Core.goto_synWait]; split <;> rfl
@[simp] theorem Core.endCheck_synWait (c : Core) (n : Nat) : (c.endCheck n).synWait = c.synWait := by
  unfold Core.endCheck; simp only; repeat' split
  all_goals simp
@[simp] theorem Core.finish_synWait (c : Core) (n : Nat) (t : Option (BitVec 16)) : (c.finish n t).synWait = c.synWait := by
  unfold Core.finish; split <;> simp

@[simp] theorem Core.goto_synEnded (c : Core) (pc : BitVec 16) : (c.goto pc).synEnded = c.synEnded := rfl
@[simp] theorem Core.setLoop_synEnded (c : Core) (sel : Nat) (v : Word) : (c.setLoop sel v).synEnded = c.synEnded := by unfold Core.setLoop; split <;> rfl
@[simp] theorem Core.fill_synEnded (c : Core) : c.fill.synEnded = c.synEnded := by
  unfold Core.fill; split
  · split <;> rfl
  · rfl
@[simp] theorem Core.stepLate_synEnded (c : Core) : c.stepLate.synEnded = c.synEnded := by
  unfold Core.stepLate; exact foldl_keeps (·.synEnded) _ (fun c x => Core.setLoop_synEnded c _ _) _ c
@[simp] theorem Core.loopBack_synEnded (c : Core) (a b : BitVec 16) : (c.loopBack a b).synEnded = c.synEnded := by
  unfold Core.loopBack; simp only [Core.goto_synEnded]; split <;> rfl
@[simp] theorem Core.endCheck_synEnded (c : Core) (n : Nat) : (c.endCheck n).synEnded = c.synEnded := by
  unfold Core.endCheck; simp only; repeat' split
  all_goals simp
@[simp] theorem Core.finish_synEnded (c : Core) (n : Nat) (t : Option (BitVec 16)) : (c.finish n t).synEnded = c.synEnded := by
  unfold Core.finish; split <;> simp

@[simp] theorem Core.goto_slots (c : Core) (pc : BitVec 16) : (c.goto pc).slots = c.slots := rfl
@[simp] theorem Core.setLoop_slots (c : Core) (sel : Nat) (v : Word) : (c.setLoop sel v).slots = c.slots := by unfold Core.setLoop; split <;> rfl
@[simp] theorem Core.fill_slots (c : Core) : c.fill.slots = c.slots := by
  unfold Core.fill; split
  · split <;> rfl
  · rfl
@[simp] theorem Core.stepLate_slots (c : Core) : c.stepLate.slots = c.slots := by
  unfold Core.stepLate; exact foldl_keeps (·.slots) _ (fun c x => Core.setLoop_slots c _ _) _ c
@[simp] theorem Core.loopBack_slots (c : Core) (a b : BitVec 16) : (c.loopBack a b).slots = c.slots := by
  unfold Core.loopBack; simp only [Core.goto_slots]; split <;> rfl
@[simp] theorem Core.endCheck_slots (c : Core) (n : Nat) : (c.endCheck n).slots = c.slots := by
  unfold Core.endCheck; simp only; repeat' split
  all_goals simp
@[simp] theorem Core.finish_slots (c : Core) (n : Nat) (t : Option (BitVec 16)) : (c.finish n t).slots = c.slots := by
  unfold Core.finish; split <;> simp

@[simp] theorem Core.goto_stall (c : Core) (pc : BitVec 16) : (c.goto pc).stall = c.stall := rfl
@[simp] theorem Core.setLoop_stall (c : Core) (sel : Nat) (v : Word) : (c.setLoop sel v).stall = c.stall := by unfold Core.setLoop; split <;> rfl
@[simp] theorem Core.fill_stall (c : Core) : c.fill.stall = c.stall := by
  unfold Core.fill; split
  · split <;> rfl
  · rfl
@[simp] theorem Core.stepLate_stall (c : Core) : c.stepLate.stall = c.stall := by
  unfold Core.stepLate; exact foldl_keeps (·.stall) _ (fun c x => Core.setLoop_stall c _ _) _ c
@[simp] theorem Core.loopBack_stall (c : Core) (a b : BitVec 16) : (c.loopBack a b).stall = c.stall := by
  unfold Core.loopBack; simp only [Core.goto_stall]; split <;> rfl
@[simp] theorem Core.endCheck_stall (c : Core) (n : Nat) : (c.endCheck n).stall = c.stall := by
  unfold Core.endCheck; simp only; repeat' split
  all_goals simp
@[simp] theorem Core.finish_stall (c : Core) (n : Nat) (t : Option (BitVec 16)) : (c.finish n t).stall = c.stall := by
  unfold Core.finish; split <;> simp

@[simp] theorem Core.goto_digest (c : Core) (pc : BitVec 16) : (c.goto pc).digest = c.digest := rfl
@[simp] theorem Core.setLoop_digest (c : Core) (sel : Nat) (v : Word) : (c.setLoop sel v).digest = c.digest := by unfold Core.setLoop; split <;> rfl
@[simp] theorem Core.fill_digest (c : Core) : c.fill.digest = c.digest := by
  unfold Core.fill; split
  · split <;> rfl
  · rfl
@[simp] theorem Core.stepLate_digest (c : Core) : c.stepLate.digest = c.digest := by
  unfold Core.stepLate; exact foldl_keeps (·.digest) _ (fun c x => Core.setLoop_digest c _ _) _ c
@[simp] theorem Core.loopBack_digest (c : Core) (a b : BitVec 16) : (c.loopBack a b).digest = c.digest := by
  unfold Core.loopBack; simp only [Core.goto_digest]; split <;> rfl
@[simp] theorem Core.endCheck_digest (c : Core) (n : Nat) : (c.endCheck n).digest = c.digest := by
  unfold Core.endCheck; simp only; repeat' split
  all_goals simp
@[simp] theorem Core.finish_digest (c : Core) (n : Nat) (t : Option (BitVec 16)) : (c.finish n t).digest = c.digest := by
  unfold Core.finish; split <;> simp

@[simp] theorem Core.goto_cycleFrac (c : Core) (pc : BitVec 16) : (c.goto pc).cycleFrac = c.cycleFrac := rfl
@[simp] theorem Core.setLoop_cycleFrac (c : Core) (sel : Nat) (v : Word) : (c.setLoop sel v).cycleFrac = c.cycleFrac := by unfold Core.setLoop; split <;> rfl
@[simp] theorem Core.fill_cycleFrac (c : Core) : c.fill.cycleFrac = c.cycleFrac := by
  unfold Core.fill; split
  · split <;> rfl
  · rfl
@[simp] theorem Core.stepLate_cycleFrac (c : Core) : c.stepLate.cycleFrac = c.cycleFrac := by
  unfold Core.stepLate; exact foldl_keeps (·.cycleFrac) _ (fun c x => Core.setLoop_cycleFrac c _ _) _ c
@[simp] theorem Core.loopBack_cycleFrac (c : Core) (a b : BitVec 16) : (c.loopBack a b).cycleFrac = c.cycleFrac := by
  unfold Core.loopBack; simp only [Core.goto_cycleFrac]; split <;> rfl
@[simp] theorem Core.endCheck_cycleFrac (c : Core) (n : Nat) : (c.endCheck n).cycleFrac = c.cycleFrac := by
  unfold Core.endCheck; simp only; repeat' split
  all_goals simp
@[simp] theorem Core.finish_cycleFrac (c : Core) (n : Nat) (t : Option (BitVec 16)) : (c.finish n t).cycleFrac = c.cycleFrac := by
  unfold Core.finish; split <;> simp

@[simp] theorem Core.goto_dbgPc (c : Core) (pc : BitVec 16) : (c.goto pc).dbgPc = c.dbgPc := rfl
@[simp] theorem Core.setLoop_dbgPc (c : Core) (sel : Nat) (v : Word) : (c.setLoop sel v).dbgPc = c.dbgPc := by unfold Core.setLoop; split <;> rfl
@[simp] theorem Core.fill_dbgPc (c : Core) : c.fill.dbgPc = c.dbgPc := by
  unfold Core.fill; split
  · split <;> rfl
  · rfl
@[simp] theorem Core.stepLate_dbgPc (c : Core) : c.stepLate.dbgPc = c.dbgPc := by
  unfold Core.stepLate; exact foldl_keeps (·.dbgPc) _ (fun c x => Core.setLoop_dbgPc c _ _) _ c
@[simp] theorem Core.loopBack_dbgPc (c : Core) (a b : BitVec 16) : (c.loopBack a b).dbgPc = c.dbgPc := by
  unfold Core.loopBack; simp only [Core.goto_dbgPc]; split <;> rfl
@[simp] theorem Core.endCheck_dbgPc (c : Core) (n : Nat) : (c.endCheck n).dbgPc = c.dbgPc := by
  unfold Core.endCheck; simp only; repeat' split
  all_goals simp
@[simp] theorem Core.finish_dbgPc (c : Core) (n : Nat) (t : Option (BitVec 16)) : (c.finish n t).dbgPc = c.dbgPc := by
  unfold Core.finish; split <;> simp

@[simp] theorem Core.goto_trapped (c : Core) (pc : BitVec 16) : (c.goto pc).trapped = c.trapped := rfl
@[simp] theorem Core.setLoop_trapped (c : Core) (sel : Nat) (v : Word) : (c.setLoop sel v).trapped = c.trapped := by unfold Core.setLoop; split <;> rfl
@[simp] theorem Core.fill_trapped (c : Core) : c.fill.trapped = c.trapped := by
  unfold Core.fill; split
  · split <;> rfl
  · rfl
@[simp] theorem Core.stepLate_trapped (c : Core) : c.stepLate.trapped = c.trapped := by
  unfold Core.stepLate; exact foldl_keeps (·.trapped) _ (fun c x => Core.setLoop_trapped c _ _) _ c
@[simp] theorem Core.loopBack_trapped (c : Core) (a b : BitVec 16) : (c.loopBack a b).trapped = c.trapped := by
  unfold Core.loopBack; simp only [Core.goto_trapped]; split <;> rfl
@[simp] theorem Core.endCheck_trapped (c : Core) (n : Nat) : (c.endCheck n).trapped = c.trapped := by
  unfold Core.endCheck; simp only; repeat' split
  all_goals simp
@[simp] theorem Core.finish_trapped (c : Core) (n : Nat) (t : Option (BitVec 16)) : (c.finish n t).trapped = c.trapped := by
  unfold Core.finish; split <;> simp

@[simp] theorem Core.goto_waking (c : Core) (pc : BitVec 16) : (c.goto pc).waking = c.waking := rfl
@[simp] theorem Core.setLoop_waking (c : Core) (sel : Nat) (v : Word) : (c.setLoop sel v).waking = c.waking := by unfold Core.setLoop; split <;> rfl
@[simp] theorem Core.fill_waking (c : Core) : c.fill.waking = c.waking := by
  unfold Core.fill; split
  · split <;> rfl
  · rfl
@[simp] theorem Core.stepLate_waking (c : Core) : c.stepLate.waking = c.waking := by
  unfold Core.stepLate; exact foldl_keeps (·.waking) _ (fun c x => Core.setLoop_waking c _ _) _ c
@[simp] theorem Core.loopBack_waking (c : Core) (a b : BitVec 16) : (c.loopBack a b).waking = c.waking := by
  unfold Core.loopBack; simp only [Core.goto_waking]; split <;> rfl
@[simp] theorem Core.endCheck_waking (c : Core) (n : Nat) : (c.endCheck n).waking = c.waking := by
  unfold Core.endCheck; simp only; repeat' split
  all_goals simp
@[simp] theorem Core.finish_waking (c : Core) (n : Nat) (t : Option (BitVec 16)) : (c.finish n t).waking = c.waking := by
  unfold Core.finish; split <;> simp

end Sys2Proof.Machine
end

