-- ==== Sys2Proof/Laws/Issue.lean ====
section
/-! SUPPORT. What a command does to a calm machine, and what one instruction that fills its bundle does: said once for every
instruction, in terms of what its slot does. -/

namespace Sys2Proof.Machine

open Sys2Proof.Safety

theorem calm_core {h : Hw} (hc : calm h = true) (c : Nat) (hb : c < 18) : (h.core c).stall = none := by
  have := List.all_eq_true.mp hc c (List.mem_range.mpr hb)
  simpa using this

theorem settleCore_none {h : Hw} {c : Nat} (hs : (h.core c).stall = none) : h.settleCore c = h := by
  simp [Hw.settleCore, hs]

theorem settle_foldl (h : Hw) (l : List Nat) (hl : ∀ c ∈ l, (h.core c).stall = none) :
    l.foldl (fun (h : Hw) c => h.settleCore c) h = h := by
  induction l with
  | nil => rfl
  | cons c t ih =>
    rw [List.foldl_cons, settleCore_none (hl c (by simp))]
    exact ih (fun x hx => hl x (by simp [hx]))

/-- No bundle stalls, so nothing goes on when a command ends. -/
theorem settle_calm {h : Hw} (hc : calm h = true) : h.settle = h :=
  settle_foldl h _ (fun c hm => calm_core hc c (List.mem_range.mp hm))

/-- A command over a machine that it leaves calm. -/
theorem act_calm {f : Hw → Hw} {s : State} (hc : calm (f s.hw) = true) : act f s = .next { s with hw := f s.hw } := by
  simp [act, lift, settle_calm hc]

theorem calm_setCore {h : Hw} {c : Nat} {k : Core} (hc : calm h = true) (hk : k.stall = none) : calm (h.setCore c k) = true := by
  refine List.all_eq_true.mpr (fun x hx => ?_)
  rw [Hw.setCore_core]
  split
  · simp [hk]
  · simp [calm_core hc x (List.mem_range.mp hx)]

/-- What leaves the cores alone leaves the machine calm. -/
theorem calm_of_cores {h h' : Hw} (hc : calm h = true) (hk : h'.cores = h.cores) : calm h' = true := by
  simpa [calm, Hw.core, hk] using hc

theorem readGran_clean {h : Hw} {g agent slot : Nat} (hg : h.gran g = .clean) : h.readGran g agent slot = (h, false) := by
  simp [Hw.readGran, hg]

theorem readGrans_clean (h : Hw) (agent slot : Nat) (l : List Nat) (hl : ∀ g ∈ l, h.gran g = .clean) :
    h.readGrans agent slot l = (h, none) := by
  induction l with
  | nil => rfl
  | cons g t ih =>
    simp only [Hw.readGrans, readGran_clean (hl g (by simp))]
    exact ih (fun x hx => hl x (by simp [hx]))

/-- A read of error-free memory of a core changes nothing. -/
theorem winRead_clean {h : Hw} {agent slot c o n : Nat} (hg : clean h c o n = true) :
    h.winRead agent slot c o n = (h, .ok ((h.core c).bytesAt o n)) := by
  have hl : ∀ g ∈ (if o < 0x60000 then granules (coreWindow c + o) n else []), h.gran g = .clean := by
    intro g hm
    split at hm
    · simpa using List.all_eq_true.mp hg g hm
    · cases hm
  simp only [Hw.winRead, readGrans_clean h agent slot _ hl]

/-- One instruction that is its whole bundle, at a bundle boundary of a running core: it does what its slot does. -/
theorem instr_alone (h : Hw) (c : Nat) (x : Slot) (hrun : (h.core c).running = true) (hstall : (h.core c).stall = none)
    (hslots : (h.core c).slots = []) (hv : (h.core c).vrun = none) (hpc : (h.core c).pc.toNat + Slot.parcels x ≤ 65536)
    (hg : clean h c (0x40000 + 2 * (h.core c).pc.toNat) (2 * Slot.parcels x) = true) (hlegal : opLegal x.op = true)
    (hvec : unitOf x.op = .v → vectorOn h c = true) (hst : h.slotStalls c x = (h, false)) (hgd : (h.core c).getP x.guard = !x.neg) :
    h.instr c x true =
      match (h.setCore c (h.core c)).opFx c (Slot.parcels x) x with
      | (h', .error t) => h'.trap c t
      | (h', .ok f) => h'.execute c [x] [f] := by
  have hend : h.endElems c = h := by simp [Hw.endElems, Hw.runElems, hv]
  have hlen : lengthOf [x] = Slot.parcels x := by simp [lengthOf]
  have hneed : needsVector [x] = decide (unitOf x.op = .v) := by simp [needsVector]
  have hk : { h.core c with stall := none, slots := [] } = h.core c := by
    rw [← hstall, ← hslots]
  have hissue : h.checkedIssue c [x] = h.issue c [x] := by
    simp [Hw.checkedIssue, hlen, winRead_clean hg, hlegal, bundleOk]
  have hany : h.anyStalls c [x] = (h, false) := by simp [Hw.anyStalls, hst]
  rw [Hw.instr, hstall]
  simp only [hrun, hend, hslots, Option.isSome, Bool.not_true, Bool.or_false, Bool.false_eq_true, if_false, List.nil_append,
    hlen, Nat.not_lt.mpr hpc, if_true, hissue]
  have hgate : (needsVector [x] && (h.core c).vgated) = false := by
    rw [hneed]
    by_cases hu : unitOf x.op = .v
    · have := hvec hu
      simp [vectorOn] at this
      simp [this.1]
    · simp [hu]
  have hwake : (needsVector [x] && ((h.core c).vgated || h.col.waking.contains c)) = false := by
    rw [hneed]
    by_cases hu : unitOf x.op = .v
    · have := hvec hu
      simp [vectorOn] at this
      simp [this.1, this.2]
    · simp [hu]
  simp only [Hw.issue, hgate, hwake, hany, Hw.modCore, hk, hlen, Hw.allFx, Hw.setCore_core_same, hgd, Bool.false_eq_true, if_false,
    if_true]
  rcases (h.setCore c (h.core c)).opFx c (Slot.parcels x) x with ⟨h', r⟩
  cases r <;> rfl

/-- Register writes do not end a run. -/
theorem applyRegs_running (c : Core) (f : Fx) : (c.applyRegs f).running = c.running := by
  unfold Core.applyRegs
  simp only
  iterate 8 rw [foldl_keeps Core.running]
  all_goals intro c x
  all_goals first | rfl | simp [Core.running]

theorem applyRegs_stall (c : Core) (f : Fx) : (c.applyRegs f).stall = c.stall := by
  unfold Core.applyRegs
  simp only
  iterate 8 rw [foldl_keeps Core.stall]
  all_goals intro c x
  all_goals first | rfl | simp

/-- A slot that writes registers alone: its writes, then the end of the bundle. -/
theorem execute_regs (h : Hw) (c : Nat) (x : Slot) (f : Fx) (hact : f.act = .none) (hm : f.multi = none) (hs : f.stores = [])
    (hrun : (h.core c).running = true) :
    h.execute c [x] [f] =
      h.setCore c (({ h.core c with ran := true, synEnded := false }.applyRegs f).finish (Slot.parcels x) none) := by
  have hlen : lengthOf [x] = Slot.parcels x := by simp [lengthOf]
  have hr : ({ h.core c with ran := true, synEnded := false }.applyRegs f).running = true := by
    rw [applyRegs_running]
    exact hrun
  simp [Hw.execute, Hw.commit, Hw.doAct, lastAct, Hw.modCore, hact, hm, hs, hlen, hr]

/-- What `ready` says, part by part. -/
theorem ready_parts {h : Hw} {loc : At} {long : Bool} (hr : ready h loc long = true) :
    loc.stop = true ∧ (h.core loc.core).running = true ∧ (h.core loc.core).slots = [] ∧ (h.core loc.core).vrun = none ∧
    calm h = true ∧ (h.core loc.core).pc.toNat + (if long then 2 else 1) ≤ 65536 ∧
    clean h loc.core (0x40000 + 2 * (h.core loc.core).pc.toNat) (2 * if long then 2 else 1) = true ∧
    guardHolds (h.core loc.core) loc long = true := by
  simp only [ready, atBoundary, Bool.and_eq_true, List.isEmpty_iff, Option.isNone_iff_eq_none, decide_eq_true_eq] at hr
  obtain ⟨⟨⟨⟨⟨⟨⟨h1, h2⟩, h3⟩, h4⟩, h5⟩, h6⟩, h7⟩, h8⟩ := hr
  exact ⟨h1, h2, h3, h4, h5, h6, h7, h8⟩

@[simp] theorem slotAt_op (loc : At) (op : CoreOp) (upto : Nat) : (slotAt loc op upto).op = op := by
  unfold slotAt
  simp only
  generalize (if (encodeShort op).isNone then true else if (encodeLong op).isNone then false else loc.long) = b
  cases b <;> rfl

@[simp] theorem slotAt_upto (loc : At) (op : CoreOp) (upto : Nat) : (slotAt loc op upto).upto = upto := by
  unfold slotAt
  simp only
  generalize (if (encodeShort op).isNone then true else if (encodeLong op).isNone then false else loc.long) = b
  cases b <;> rfl

/-- The form of an instruction's slot: the only one that encodes it, or the one asked for. -/
theorem slotAt_long (loc : At) (op : CoreOp) (upto : Nat) : (slotAt loc op upto).long =
    if (encodeShort op).isNone then true else if (encodeLong op).isNone then false else loc.long := by
  unfold slotAt
  simp only
  generalize (if (encodeShort op).isNone then true else if (encodeLong op).isNone then false else loc.long) = b
  cases b <;> rfl

/-- A guard that holds is the slot's guard that holds. -/
theorem slotAt_guard {k : Core} {loc : At} {op : CoreOp} {upto : Nat} (h : guardHolds k loc (slotAt loc op upto).long = true) :
    k.getP (slotAt loc op upto).guard = !(slotAt loc op upto).neg := by
  revert h
  unfold slotAt guardHolds
  simp only
  generalize (if (encodeShort op).isNone then true else if (encodeLong op).isNone then false else loc.long) = b
  cases b
  · by_cases h0 : loc.guard = 0 <;> simp [h0, Core.getP]
  · simp

/-- One instruction on registers alone that is its whole bundle, as a command: its register writes and the end of the bundle, and
nothing else changes. -/
theorem issue_regs (s : State) (loc : At) (op : CoreOp) (upto : Nat) (f : Fx)
    (hready : ready s.hw loc (slotAt loc op upto).long = true) (hlegal : opLegal op = true)
    (hvec : unitOf op = .v → vectorOn s.hw loc.core = true)
    (hst : s.hw.slotStalls loc.core (slotAt loc op upto) = (s.hw, false))
    (hfx : (s.hw.setCore loc.core (s.hw.core loc.core)).opFx loc.core (Slot.parcels (slotAt loc op upto)) (slotAt loc op upto) =
      (s.hw.setCore loc.core (s.hw.core loc.core), .ok f))
    (hact : f.act = .none) (hm : f.multi = none) (hs : f.stores = []) :
    issueOp loc op upto s = .next { s with hw := (s.hw.setCore loc.core
      (({ s.hw.core loc.core with ran := true, synEnded := false }.applyRegs f).finish
        (Slot.parcels (slotAt loc op upto)) none)) } := by
  obtain ⟨hstop, hrun, hslots, hv, hcalm, hpc0, hg0, hgh⟩ := ready_parts hready
  have hparc : Slot.parcels (slotAt loc op upto) = if (slotAt loc op upto).long then 2 else 1 := rfl
  have hpc : (s.hw.core loc.core).pc.toNat + Slot.parcels (slotAt loc op upto) ≤ 65536 := by
    rw [hparc]
    exact hpc0
  have hg : clean s.hw loc.core (0x40000 + 2 * (s.hw.core loc.core).pc.toNat) (2 * Slot.parcels (slotAt loc op upto)) = true := by
    rw [hparc]
    exact hg0
  have hop := slotAt_op loc op upto
  have hgd := slotAt_guard hgh
  have hi := instr_alone s.hw loc.core (slotAt loc op upto) hrun (calm_core hcalm _ loc.core.isLt) hslots hv hpc hg
    (by rw [hop]; exact hlegal) (by rw [hop]; exact hvec) hst hgd
  rw [hfx] at hi
  simp only at hi
  rw [execute_regs _ _ _ _ hact hm hs (by simpa using hrun)] at hi
  simp only [Hw.setCore_core_same, Hw.setCore_setCore] at hi
  unfold issueOp
  rw [hstop, act_calm]
  · rw [hi]
  · rw [hi]
    exact calm_setCore hcalm (by
      rw [Core.finish_stall, applyRegs_stall]
      exact calm_core hcalm _ loc.core.isLt)

/-- The operations that make no access and run no elements: what they do follows from the core's registers. -/
def plainOp : CoreOp → Bool
  | .ld .. | .st .. | .dual .. | .vld .. | .vst .. | .index .. | .red .. => false
  | _ => true

/-- The operations that never make their bundle stall. -/
def goesOn : CoreOp → Bool
  | .bqWait .. | .halt | .synWait .. | .st .. | .vst .. => false
  | _ => true

theorem opFx_plain (h : Hw) (c n : Nat) (x : Slot) (hp : plainOp x.op = true) :
    h.opFx c n x =
      match (h.core c).plainTrap x.op with
      | some t => (h, .error t)
      | none => (h, .ok ((h.core c).plainFx n x.op)) := by
  obtain ⟨g, ng, l, op, u⟩ := x
  cases op <;> first | rfl | cases hp

theorem slotStalls_goesOn (h : Hw) (c : Nat) (x : Slot) (hp : goesOn x.op = true) : h.slotStalls c x = (h, false) := by
  obtain ⟨g, ng, l, op, u⟩ := x
  unfold Hw.slotStalls
  simp only
  split
  · rfl
  · cases op <;> first | rfl | cases hp

/-- An instruction on registers alone, for the operations that need nothing else: `f` is its register writes. -/
theorem issue_plain (s : State) (loc : At) (op : CoreOp) (long : Bool) (hlong : (slotAt loc op 64).long = long)
    (hready : ready s.hw loc long = true) (hp : plainOp op = true) (hgo : goesOn op = true) (hlegal : opLegal op = true)
    (hvec : unitOf op = .v → vectorOn s.hw loc.core = true) (ht : (s.hw.core loc.core).plainTrap op = none)
    (hact : ((s.hw.core loc.core).plainFx (if long then 2 else 1) op).act = .none)
    (hm : ((s.hw.core loc.core).plainFx (if long then 2 else 1) op).multi = none)
    (hs : ((s.hw.core loc.core).plainFx (if long then 2 else 1) op).stores = []) :
    issueOp loc op 64 s = .next { s with hw := (s.hw.setCore loc.core
      (({ s.hw.core loc.core with ran := true, synEnded := false }.applyRegs
        ((s.hw.core loc.core).plainFx (if long then 2 else 1) op)).finish (if long then 2 else 1) none)) } := by
  subst hlong
  refine issue_regs s loc op 64 _ hready hlegal hvec (slotStalls_goesOn _ _ _ (by simpa using hgo)) ?_ hact hm hs
  rw [opFx_plain _ _ _ _ (by simpa using hp)]
  simp only [Hw.setCore_core_same, slotAt_op, ht]
  rfl

end Sys2Proof.Machine
end

