-- ==== Sys2Proof/Laws/Memory.lean ====
section
/-! SUPPORT. The memory keeps its canonical form: under byte writes, under the accesses of agents with whatever they do to granules
and logs, under the steward's zeroing, and over a hard reset. -/

namespace Sys2Proof.Machine

open Sys2Proof.Safety

theorem Mem.wf_put (m : List Host.Cell) (a : Nat) (b : Byte) (h : Mem.wf m = true) : Mem.wf (Mem.put m a b) = true :=
  Tbl.wf_set _ m a b h

theorem Mem.wf_putN (m : List Host.Cell) (a : Nat) (l : List Byte) (h : Mem.wf m = true) : Mem.wf (Mem.putN m a l) = true := by
  induction l generalizing m a with
  | nil => exact h
  | cons b t ih => exact ih _ _ (Mem.wf_put m a b h)

/-! ### What leaves the bytes alone -/

@[simp] theorem Hw.bump_mem (h : Hw) (k n : Nat) : (h.bump k n).mem = h.mem := rfl
@[simp] theorem Hw.setRegBit_mem (h : Hw) (k i : Nat) : (h.setRegBit k i).mem = h.mem := rfl
@[simp] theorem Hw.setGran_cells (h : Hw) (g : Nat) (x : Gran) : (h.setGran g x).mem.cells = h.mem.cells := rfl

@[simp] theorem Hw.memLog_cells (h : Hw) (e : MemLogEntry) : (h.memLog e).mem.cells = h.mem.cells := by
  simp only [Hw.memLog]
  repeat' split
  all_goals simp

@[simp] theorem Hw.cpcLog_mem (h : Hw) (u e n r : Nat) : (h.cpcLog u e n r).mem = h.mem := by
  simp only [Hw.cpcLog]
  repeat' split
  all_goals simp

@[simp] theorem Hw.setUnit_mem (h : Hw) (u : Nat) (r : UnitRec) : (h.setUnit u r).mem = h.mem := by
  simp only [Hw.setUnit]
  repeat' split
  all_goals rfl

@[simp] theorem Hw.cpcFailed_mem (h : Hw) (u e : Nat) : (h.cpcFailed u e).mem = h.mem := by
  simp only [Hw.cpcFailed]
  repeat' split
  all_goals simp

@[simp] theorem Hw.cpcSuspect_mem (h : Hw) (u : Nat) : (h.cpcSuspect u).mem = h.mem := by
  simp only [Hw.cpcSuspect]
  split <;> simp

@[simp] theorem Hw.handOff_mem (h : Hw) (r : Bool × Nat × Nat × Nat) (ue : Bool) : (h.handOff r ue).mem = h.mem := by
  simp only [Hw.handOff]
  split <;> simp

@[simp] theorem Hw.trackRow_cells (h : Hw) (r : Bool × Nat × Nat × Nat) (n : Nat) :
    (h.trackRow r n).mem.cells = h.mem.cells := by
  simp only [Hw.trackRow]
  repeat' split
  all_goals simp

@[simp] theorem Hw.pciEvent_mem (h : Hw) (i : Nat) : (h.pciEvent i).mem = h.mem := by
  simp only [Hw.pciEvent, Hw.request, Hw.deliverVector]
  repeat' split
  all_goals rfl

@[simp] theorem Hw.correct_cells (h : Hw) (g pos : Nat) (hard : Bool) (agent slot : Nat) :
    (h.correct g pos hard agent slot).mem.cells = h.mem.cells := by
  simp only [Hw.correct]
  split <;> simp

@[simp] theorem Hw.foundUe_cells (h : Hw) (g agent slot : Nat) : (h.foundUe g agent slot).mem.cells = h.mem.cells := by
  simp only [Hw.foundUe]
  split <;> simp

@[simp] theorem Hw.poison_cells (h : Hw) (g kind agent slot : Nat) : (h.poison g kind agent slot).mem.cells = h.mem.cells := by
  simp [Hw.poison]

@[simp] theorem Hw.poisonRead_cells (h : Hw) (g agent slot : Nat) : (h.poisonRead g agent slot).mem.cells = h.mem.cells := by
  simp [Hw.poisonRead]

@[simp] theorem Hw.readGran_cells (h : Hw) (g agent slot : Nat) : (h.readGran g agent slot).1.mem.cells = h.mem.cells := by
  simp only [Hw.readGran]
  split <;> simp

@[simp] theorem Hw.writeGran_cells (h : Hw) (g : Nat) (whole : Bool) (agent slot : Nat) :
    (h.writeGran g whole agent slot).mem.cells = h.mem.cells := by
  simp only [Hw.writeGran]
  repeat' split
  all_goals simp

@[simp] theorem Hw.readGrans_cells (h : Hw) (agent slot : Nat) (l : List Nat) :
    (h.readGrans agent slot l).1.mem.cells = h.mem.cells := by
  induction l generalizing h with
  | nil => rfl
  | cons g t ih =>
    simp only [Hw.readGrans]
    split <;> simp [ih]

@[simp] theorem Hw.writeGrans_cells (h : Hw) (agent slot a b : Nat) (l : List Nat) :
    (h.writeGrans agent slot a b l).mem.cells = h.mem.cells := by
  induction l generalizing h with
  | nil => rfl
  | cons g t ih => simp [Hw.writeGrans, ih]

/-! ### The form -/

/-- A read changes no byte. -/
theorem memRead_cells (h : Hw) (agent slot a n : Nat) : (h.memRead agent slot a n).1.mem.cells = h.mem.cells := by
  have := h.readGrans_cells agent slot (granules a n)
  simp only [Hw.memRead]
  split <;> simp_all

/-- A write writes its bytes and no other. -/
theorem memWrite_cells (h : Hw) (agent slot a : Nat) (l : List Byte) :
    (h.memWrite agent slot a l).mem.cells = Mem.putN h.mem.cells a l := by
  simp [Hw.memWrite]

theorem memWrite_ok (h : Hw) (agent slot a : Nat) (l : List Byte) (hm : memoryOk h = true) :
    memoryOk (h.memWrite agent slot a l) = true := by
  unfold memoryOk at *
  rw [memWrite_cells]
  exact Mem.wf_putN _ _ _ hm

theorem memZero_ok (h : Hw) (a n : Nat) (hm : memoryOk h = true) : memoryOk (h.memZero a n) = true :=
  Tbl.wf_clearRange _ _ _ _ hm

@[simp] theorem Hw.stewardLog_mem (h : Hw) (e d : Nat) (w : Word) : (h.stewardLog e d w).mem = h.mem := by
  simp only [Hw.stewardLog]
  split <;> simp

@[simp] theorem Hw.enterState_mem (h : Hw) (m : ModState) : (h.enterState m).mem = h.mem := by
  simp only [Hw.enterState]
  repeat' split
  all_goals simp [Hw.endForces]

theorem hardReset_ok (h : Hw) (cause : Nat) (hm : memoryOk h = true) : memoryOk (h.hardReset cause) = true := by
  unfold memoryOk at *
  have : (h.hardReset cause).mem.cells = h.mem.cells := by simp [Hw.hardReset]
  rw [this]
  exact hm

theorem reset_memoryOk : memoryOk State.reset.hw = true := rfl

end Sys2Proof.Machine
end

