-- ==== Sys2Proof/Laws/PerInstr.lean ====
section
/-! SUPPORT. Laws that hold of every command, one lemma for each constructor. `Kinds`: a command is a Fintoic instruction, a packet
or a register access, and never two of them. -/

namespace Sys2Proof.Laws

open Sys2Proof.Machine

/-- A Fintoic instruction carries no packet and no register access, and a packet row carries no register access. -/
def Kinds.Statement (i : Instr) : Prop :=
  ((issued i).isSome = true → packetOf i = none ∧ accessOf i = none) ∧ ((packetOf i).isSome = true → accessOf i = none)

theorem Kinds.powerGood (railsOk selfCheckOk : Bool) : Kinds.Statement (.powerGood railsOk selfCheckOk) :=
 ⟨fun _ => ⟨rfl, rfl⟩, fun _ => rfl⟩
theorem Kinds.supplyLoss : Kinds.Statement .supplyLoss :=
 ⟨fun _ => ⟨rfl, rfl⟩, fun _ => rfl⟩
theorem Kinds.kindlingRetry (railsOk selfCheckOk : Bool) : Kinds.Statement (.kindlingRetry railsOk selfCheckOk) :=
 ⟨fun _ => ⟨rfl, rfl⟩, fun _ => rfl⟩
theorem Kinds.stewardReady (failing : List Word) : Kinds.Statement (.stewardReady failing) :=
 ⟨fun _ => ⟨rfl, rfl⟩, fun _ => rfl⟩
theorem Kinds.recoveryLoadCheck : Kinds.Statement .recoveryLoadCheck :=
 ⟨fun _ => ⟨rfl, rfl⟩, fun _ => rfl⟩
theorem Kinds.sysRcvctl (v : Word) : Kinds.Statement (.sysRcvctl v) :=
 ⟨fun _ => ⟨rfl, rfl⟩, fun _ => rfl⟩
theorem Kinds.sysRcvdata (v : Word) : Kinds.Statement (.sysRcvdata v) :=
 ⟨fun _ => ⟨rfl, rfl⟩, fun _ => rfl⟩
theorem Kinds.hardarm : Kinds.Statement .hardarm :=
 ⟨fun _ => ⟨rfl, rfl⟩, fun _ => rfl⟩
theorem Kinds.hardrst : Kinds.Statement .hardrst :=
 ⟨fun _ => ⟨rfl, rfl⟩, fun _ => rfl⟩
theorem Kinds.hardarmLapse : Kinds.Statement .hardarmLapse :=
 ⟨fun _ => ⟨rfl, rfl⟩, fun _ => rfl⟩
theorem Kinds.watchdog : Kinds.Statement .watchdog :=
 ⟨fun _ => ⟨rfl, rfl⟩, fun _ => rfl⟩
theorem Kinds.lockstep : Kinds.Statement .lockstep :=
 ⟨fun _ => ⟨rfl, rfl⟩, fun _ => rfl⟩
theorem Kinds.heartbeat : Kinds.Statement .heartbeat :=
 ⟨fun _ => ⟨rfl, rfl⟩, fun _ => rfl⟩
theorem Kinds.thermalTrip : Kinds.Statement .thermalTrip :=
 ⟨fun _ => ⟨rfl, rfl⟩, fun _ => rfl⟩
theorem Kinds.powerTrip : Kinds.Statement .powerTrip :=
 ⟨fun _ => ⟨rfl, rfl⟩, fun _ => rfl⟩
theorem Kinds.supplyTrip : Kinds.Statement .supplyTrip :=
 ⟨fun _ => ⟨rfl, rfl⟩, fun _ => rfl⟩
theorem Kinds.tripack : Kinds.Statement .tripack :=
 ⟨fun _ => ⟨rfl, rfl⟩, fun _ => rfl⟩
theorem Kinds.tripclear : Kinds.Statement .tripclear :=
 ⟨fun _ => ⟨rfl, rfl⟩, fun _ => rfl⟩
theorem Kinds.emberEntryComplete : Kinds.Statement .emberEntryComplete :=
 ⟨fun _ => ⟨rfl, rfl⟩, fun _ => rfl⟩
theorem Kinds.emberExitComplete (failing : List Word) : Kinds.Statement (.emberExitComplete failing) :=
 ⟨fun _ => ⟨rfl, rfl⟩, fun _ => rfl⟩
theorem Kinds.encoderEdge (e : Fin 2) (a b : Bool) : Kinds.Statement (.encoderEdge e a b) :=
 ⟨fun _ => ⟨rfl, rfl⟩, fun _ => rfl⟩
theorem Kinds.filteredInputEdge (i : Fin 8) (level : Bool) : Kinds.Statement (.filteredInputEdge i level) :=
 ⟨fun _ => ⟨rfl, rfl⟩, fun _ => rfl⟩
theorem Kinds.timerPeriodExpiry : Kinds.Statement .timerPeriodExpiry :=
 ⟨fun _ => ⟨rfl, rfl⟩, fun _ => rfl⟩
theorem Kinds.ptpPhaseMatch : Kinds.Statement .ptpPhaseMatch :=
 ⟨fun _ => ⟨rfl, rfl⟩, fun _ => rfl⟩
theorem Kinds.stallTick : Kinds.Statement .stallTick :=
 ⟨fun _ => ⟨rfl, rfl⟩, fun _ => rfl⟩
theorem Kinds.srclostTick : Kinds.Statement .srclostTick :=
 ⟨fun _ => ⟨rfl, rfl⟩, fun _ => rfl⟩
theorem Kinds.tick : Kinds.Statement .tick :=
 ⟨fun _ => ⟨rfl, rfl⟩, fun _ => rfl⟩
theorem Kinds.dvfsRailSettled : Kinds.Statement .dvfsRailSettled :=
 ⟨fun _ => ⟨rfl, rfl⟩, fun _ => rfl⟩
theorem Kinds.frameTail : Kinds.Statement .frameTail :=
 ⟨fun _ => ⟨rfl, rfl⟩, fun _ => rfl⟩
theorem Kinds.pstaticIdleUpdate : Kinds.Statement .pstaticIdleUpdate :=
 ⟨fun _ => ⟨rfl, rfl⟩, fun _ => rfl⟩
theorem Kinds.meterSample (m : MeterReading) : Kinds.Statement (.meterSample m) :=
 ⟨fun _ => ⟨rfl, rfl⟩, fun _ => rfl⟩
theorem Kinds.sensorSample (t : SensorReading) : Kinds.Statement (.sensorSample t) :=
 ⟨fun _ => ⟨rfl, rfl⟩, fun _ => rfl⟩
theorem Kinds.unitWakeReady (u : Fin 22) : Kinds.Statement (.unitWakeReady u) :=
 ⟨fun _ => ⟨rfl, rfl⟩, fun _ => rfl⟩
theorem Kinds.cmdTail (src : RegSrc) (v : Word) : Kinds.Statement (.cmdTail src v) :=
 ⟨fun _ => ⟨rfl, rfl⟩, fun _ => rfl⟩
theorem Kinds.cmdChead (src : RegSrc) (v : Word) : Kinds.Statement (.cmdChead src v) :=
 ⟨fun _ => ⟨rfl, rfl⟩, fun _ => rfl⟩
theorem Kinds.cmdFctl (src : RegSrc) (v : Word) : Kinds.Statement (.cmdFctl src v) :=
 ⟨fun _ => ⟨rfl, rfl⟩, fun _ => rfl⟩
theorem Kinds.fetcherrClear (src : RegSrc) : Kinds.Statement (.fetcherrClear src) :=
 ⟨fun _ => ⟨rfl, rfl⟩, fun _ => rfl⟩
theorem Kinds.ringFetchFail (ring : RingId) (addr : Dword) (kind : HostFail) : Kinds.Statement (.ringFetchFail ring addr kind) :=
 ⟨fun _ => ⟨rfl, rfl⟩, fun _ => rfl⟩
theorem Kinds.managementDatagram (port : Fin 2) (ip : Word) (udp : BitVec 16) (p : Packet) : Kinds.Statement (.managementDatagram port ip udp p) :=
 ⟨fun h => (by cases h), fun _ => rfl⟩
theorem Kinds.nop (ring : RingId) (p : Packet) : Kinds.Statement (.nop ring p) :=
 ⟨fun h => (by cases h), fun _ => rfl⟩
theorem Kinds.queryModule (ring : RingId) (p : Packet) : Kinds.Statement (.queryModule ring p) :=
 ⟨fun h => (by cases h), fun _ => rfl⟩
theorem Kinds.moduleState (ring : RingId) (p : Packet) : Kinds.Statement (.moduleState ring p) :=
 ⟨fun h => (by cases h), fun _ => rfl⟩
theorem Kinds.frameConfig (ring : RingId) (p : Packet) : Kinds.Statement (.frameConfig ring p) :=
 ⟨fun h => (by cases h), fun _ => rfl⟩
theorem Kinds.frameControl (ring : RingId) (p : Packet) : Kinds.Statement (.frameControl ring p) :=
 ⟨fun h => (by cases h), fun _ => rfl⟩
theorem Kinds.netConfig (ring : RingId) (p : Packet) : Kinds.Statement (.netConfig ring p) :=
 ⟨fun h => (by cases h), fun _ => rfl⟩
theorem Kinds.ptpConfig (ring : RingId) (p : Packet) : Kinds.Statement (.ptpConfig ring p) :=
 ⟨fun h => (by cases h), fun _ => rfl⟩
theorem Kinds.ctxCreate (ring : RingId) (p : Packet) : Kinds.Statement (.ctxCreate ring p) :=
 ⟨fun h => (by cases h), fun _ => rfl⟩
theorem Kinds.ctxDestroy (ring : RingId) (p : Packet) : Kinds.Statement (.ctxDestroy ring p) :=
 ⟨fun h => (by cases h), fun _ => rfl⟩
theorem Kinds.ctxReset (ring : RingId) (p : Packet) : Kinds.Statement (.ctxReset ring p) :=
 ⟨fun h => (by cases h), fun _ => rfl⟩
theorem Kinds.ctxResetComplete (slot : Fin 256) : Kinds.Statement (.ctxResetComplete slot) :=
 ⟨fun _ => ⟨rfl, rfl⟩, fun _ => rfl⟩
theorem Kinds.ctxQuery (ring : RingId) (p : Packet) : Kinds.Statement (.ctxQuery ring p) :=
 ⟨fun h => (by cases h), fun _ => rfl⟩
theorem Kinds.ctxRun (ring : RingId) (p : Packet) : Kinds.Statement (.ctxRun ring p) :=
 ⟨fun h => (by cases h), fun _ => rfl⟩
theorem Kinds.ctxSetPolicy (ring : RingId) (p : Packet) : Kinds.Statement (.ctxSetPolicy ring p) :=
 ⟨fun h => (by cases h), fun _ => rfl⟩
theorem Kinds.atuMap (ring : RingId) (p : Packet) : Kinds.Statement (.atuMap ring p) :=
 ⟨fun h => (by cases h), fun _ => rfl⟩
theorem Kinds.atuUnmap (ring : RingId) (p : Packet) : Kinds.Statement (.atuUnmap ring p) :=
 ⟨fun h => (by cases h), fun _ => rfl⟩
theorem Kinds.atuInvalidate (ring : RingId) (p : Packet) : Kinds.Statement (.atuInvalidate ring p) :=
 ⟨fun h => (by cases h), fun _ => rfl⟩
theorem Kinds.synAlloc (ring : RingId) (p : Packet) : Kinds.Statement (.synAlloc ring p) :=
 ⟨fun h => (by cases h), fun _ => rfl⟩
theorem Kinds.synFree (ring : RingId) (p : Packet) : Kinds.Statement (.synFree ring p) :=
 ⟨fun h => (by cases h), fun _ => rfl⟩
theorem Kinds.synSignal (ring : RingId) (p : Packet) : Kinds.Statement (.synSignal ring p) :=
 ⟨fun h => (by cases h), fun _ => rfl⟩
theorem Kinds.synWait (ring : RingId) (p : Packet) : Kinds.Statement (.synWait ring p) :=
 ⟨fun h => (by cases h), fun _ => rfl⟩
theorem Kinds.synWaitTimeout (ring : RingId) : Kinds.Statement (.synWaitTimeout ring) :=
 ⟨fun _ => ⟨rfl, rfl⟩, fun _ => rfl⟩
theorem Kinds.mbxOpen (ring : RingId) (p : Packet) : Kinds.Statement (.mbxOpen ring p) :=
 ⟨fun h => (by cases h), fun _ => rfl⟩
theorem Kinds.mbxClose (ring : RingId) (p : Packet) : Kinds.Statement (.mbxClose ring p) :=
 ⟨fun h => (by cases h), fun _ => rfl⟩
theorem Kinds.jobDefine (ring : RingId) (p : Packet) : Kinds.Statement (.jobDefine ring p) :=
 ⟨fun h => (by cases h), fun _ => rfl⟩
theorem Kinds.jobRemove (ring : RingId) (p : Packet) : Kinds.Statement (.jobRemove ring p) :=
 ⟨fun h => (by cases h), fun _ => rfl⟩
theorem Kinds.colSetCap (ring : RingId) (p : Packet) : Kinds.Statement (.colSetCap ring p) :=
 ⟨fun h => (by cases h), fun _ => rfl⟩
theorem Kinds.colQuery (ring : RingId) (p : Packet) : Kinds.Statement (.colQuery ring p) :=
 ⟨fun h => (by cases h), fun _ => rfl⟩
theorem Kinds.swapArm (ring : RingId) (p : Packet) : Kinds.Statement (.swapArm ring p) :=
 ⟨fun h => (by cases h), fun _ => rfl⟩
theorem Kinds.swapCancel (ring : RingId) (p : Packet) : Kinds.Statement (.swapCancel ring p) :=
 ⟨fun h => (by cases h), fun _ => rfl⟩
theorem Kinds.swapStatus (ring : RingId) (p : Packet) : Kinds.Statement (.swapStatus ring p) :=
 ⟨fun h => (by cases h), fun _ => rfl⟩
theorem Kinds.regStage (ring : RingId) (p : Packet) : Kinds.Statement (.regStage ring p) :=
 ⟨fun h => (by cases h), fun _ => rfl⟩
theorem Kinds.progLoad (ring : RingId) (p : Packet) : Kinds.Statement (.progLoad ring p) :=
 ⟨fun h => (by cases h), fun _ => rfl⟩
theorem Kinds.modelLoad (ring : RingId) (p : Packet) : Kinds.Statement (.modelLoad ring p) :=
 ⟨fun h => (by cases h), fun _ => rfl⟩
theorem Kinds.modelUnbind (ring : RingId) (p : Packet) : Kinds.Statement (.modelUnbind ring p) :=
 ⟨fun h => (by cases h), fun _ => rfl⟩
theorem Kinds.dmaAlloc (ring : RingId) (p : Packet) : Kinds.Statement (.dmaAlloc ring p) :=
 ⟨fun h => (by cases h), fun _ => rfl⟩
theorem Kinds.dmaFree (ring : RingId) (p : Packet) : Kinds.Statement (.dmaFree ring p) :=
 ⟨fun h => (by cases h), fun _ => rfl⟩
theorem Kinds.dmaStart (ring : RingId) (p : Packet) : Kinds.Statement (.dmaStart ring p) :=
 ⟨fun h => (by cases h), fun _ => rfl⟩
theorem Kinds.dmaKick (ring : RingId) (p : Packet) : Kinds.Statement (.dmaKick ring p) :=
 ⟨fun h => (by cases h), fun _ => rfl⟩
theorem Kinds.dmaStop (ring : RingId) (p : Packet) : Kinds.Statement (.dmaStop ring p) :=
 ⟨fun h => (by cases h), fun _ => rfl⟩
theorem Kinds.cxpConfig (ring : RingId) (p : Packet) : Kinds.Statement (.cxpConfig ring p) :=
 ⟨fun h => (by cases h), fun _ => rfl⟩
theorem Kinds.cxpPower (ring : RingId) (p : Packet) (det : BitVec 8) : Kinds.Statement (.cxpPower ring p det) :=
 ⟨fun h => (by cases h), fun _ => rfl⟩
theorem Kinds.cxpCtrl (ring : RingId) (p : Packet) : Kinds.Statement (.cxpCtrl ring p) :=
 ⟨fun h => (by cases h), fun _ => rfl⟩
theorem Kinds.cxpCtrlTimeout (port : Fin 8) : Kinds.Statement (.cxpCtrlTimeout port) :=
 ⟨fun _ => ⟨rfl, rfl⟩, fun _ => rfl⟩
theorem Kinds.webEncConfig (ring : RingId) (p : Packet) : Kinds.Statement (.webEncConfig ring p) :=
 ⟨fun h => (by cases h), fun _ => rfl⟩
theorem Kinds.webOutBind (ring : RingId) (p : Packet) : Kinds.Statement (.webOutBind ring p) :=
 ⟨fun h => (by cases h), fun _ => rfl⟩
theorem Kinds.webOutRule (ring : RingId) (p : Packet) : Kinds.Statement (.webOutRule ring p) :=
 ⟨fun h => (by cases h), fun _ => rfl⟩
theorem Kinds.webOutForce (ring : RingId) (p : Packet) : Kinds.Statement (.webOutForce ring p) :=
 ⟨fun h => (by cases h), fun _ => rfl⟩
theorem Kinds.forceDurationEnd (o : Fin 12) : Kinds.Statement (.forceDurationEnd o) :=
 ⟨fun _ => ⟨rfl, rfl⟩, fun _ => rfl⟩
theorem Kinds.cpcReport (ring : RingId) (p : Packet) : Kinds.Statement (.cpcReport ring p) :=
 ⟨fun h => (by cases h), fun _ => rfl⟩
theorem Kinds.cpcPolicy (ring : RingId) (p : Packet) : Kinds.Statement (.cpcPolicy ring p) :=
 ⟨fun h => (by cases h), fun _ => rfl⟩
theorem Kinds.domainJoin (ring : RingId) (p : Packet) : Kinds.Statement (.domainJoin ring p) :=
 ⟨fun h => (by cases h), fun _ => rfl⟩
theorem Kinds.domainAlone : Kinds.Statement .domainAlone :=
 ⟨fun _ => ⟨rfl, rfl⟩, fun _ => rfl⟩
theorem Kinds.domainLeave (ring : RingId) (p : Packet) : Kinds.Statement (.domainLeave ring p) :=
 ⟨fun h => (by cases h), fun _ => rfl⟩
theorem Kinds.domainSwapArm (ring : RingId) (p : Packet) : Kinds.Statement (.domainSwapArm ring p) :=
 ⟨fun h => (by cases h), fun _ => rfl⟩
theorem Kinds.domainStatus (ring : RingId) (p : Packet) : Kinds.Statement (.domainStatus ring p) :=
 ⟨fun h => (by cases h), fun _ => rfl⟩
theorem Kinds.logRead (ring : RingId) (p : Packet) : Kinds.Statement (.logRead ring p) :=
 ⟨fun h => (by cases h), fun _ => rfl⟩
theorem Kinds.frmCtlStart : Kinds.Statement .frmCtlStart :=
 ⟨fun _ => ⟨rfl, rfl⟩, fun _ => rfl⟩
theorem Kinds.frmCtlStop : Kinds.Statement .frmCtlStop :=
 ⟨fun _ => ⟨rfl, rfl⟩, fun _ => rfl⟩
theorem Kinds.registerWrite (a : RegAccess) (v : Word) : Kinds.Statement (.registerWrite a v) :=
 ⟨fun h => (by cases h), fun h => (by cases h)⟩
theorem Kinds.sysRegerr : Kinds.Statement .sysRegerr :=
 ⟨fun _ => ⟨rfl, rfl⟩, fun _ => rfl⟩
theorem Kinds.webPosset (e : Fin 2) (v : Word) : Kinds.Statement (.webPosset e v) :=
 ⟨fun _ => ⟨rfl, rfl⟩, fun _ => rfl⟩
theorem Kinds.ftcDbgctlGo (c : Fin 18) : Kinds.Statement (.ftcDbgctlGo c) :=
 ⟨fun _ => ⟨rfl, rfl⟩, fun _ => rfl⟩
theorem Kinds.ftcDbgctlStep (c : Fin 18) : Kinds.Statement (.ftcDbgctlStep c) :=
 ⟨fun _ => ⟨rfl, rfl⟩, fun _ => rfl⟩
theorem Kinds.ftcDbgctlHalt (c : Fin 18) : Kinds.Statement (.ftcDbgctlHalt c) :=
 ⟨fun _ => ⟨rfl, rfl⟩, fun _ => rfl⟩
theorem Kinds.nopShort (at_ : At) : Kinds.Statement (.nopShort at_) :=
 ⟨fun _ => ⟨rfl, rfl⟩, fun _ => rfl⟩
theorem Kinds.halt (at_ : At) : Kinds.Statement (.halt at_) :=
 ⟨fun _ => ⟨rfl, rfl⟩, fun _ => rfl⟩
theorem Kinds.add (at_ : At) (d a b : Fin 32) : Kinds.Statement (.add at_ d a b) :=
 ⟨fun _ => ⟨rfl, rfl⟩, fun _ => rfl⟩
theorem Kinds.sub (at_ : At) (d a b : Fin 32) : Kinds.Statement (.sub at_ d a b) :=
 ⟨fun _ => ⟨rfl, rfl⟩, fun _ => rfl⟩
theorem Kinds.and (at_ : At) (d a b : Fin 32) : Kinds.Statement (.and at_ d a b) :=
 ⟨fun _ => ⟨rfl, rfl⟩, fun _ => rfl⟩
theorem Kinds.or (at_ : At) (d a b : Fin 32) : Kinds.Statement (.or at_ d a b) :=
 ⟨fun _ => ⟨rfl, rfl⟩, fun _ => rfl⟩
theorem Kinds.xor (at_ : At) (d a b : Fin 32) : Kinds.Statement (.xor at_ d a b) :=
 ⟨fun _ => ⟨rfl, rfl⟩, fun _ => rfl⟩
theorem Kinds.mov (at_ : At) (d a : Fin 32) : Kinds.Statement (.mov at_ d a) :=
 ⟨fun _ => ⟨rfl, rfl⟩, fun _ => rfl⟩
theorem Kinds.mul (at_ : At) (d a b : Fin 32) : Kinds.Statement (.mul at_ d a b) :=
 ⟨fun _ => ⟨rfl, rfl⟩, fun _ => rfl⟩
theorem Kinds.min (at_ : At) (d a b : Fin 32) : Kinds.Statement (.min at_ d a b) :=
 ⟨fun _ => ⟨rfl, rfl⟩, fun _ => rfl⟩
theorem Kinds.max (at_ : At) (d a b : Fin 32) : Kinds.Statement (.max at_ d a b) :=
 ⟨fun _ => ⟨rfl, rfl⟩, fun _ => rfl⟩
theorem Kinds.adds (at_ : At) (d a b : Fin 32) : Kinds.Statement (.adds at_ d a b) :=
 ⟨fun _ => ⟨rfl, rfl⟩, fun _ => rfl⟩
theorem Kinds.subs (at_ : At) (d a b : Fin 32) : Kinds.Statement (.subs at_ d a b) :=
 ⟨fun _ => ⟨rfl, rfl⟩, fun _ => rfl⟩
theorem Kinds.shl (at_ : At) (d a b : Fin 32) : Kinds.Statement (.shl at_ d a b) :=
 ⟨fun _ => ⟨rfl, rfl⟩, fun _ => rfl⟩
theorem Kinds.shr (at_ : At) (d a b : Fin 32) : Kinds.Statement (.shr at_ d a b) :=
 ⟨fun _ => ⟨rfl, rfl⟩, fun _ => rfl⟩
theorem Kinds.shru (at_ : At) (d a b : Fin 32) : Kinds.Statement (.shru at_ d a b) :=
 ⟨fun _ => ⟨rfl, rfl⟩, fun _ => rfl⟩
theorem Kinds.addi (at_ : At) (d : Fin 32) (imm : BitVec 9) : Kinds.Statement (.addi at_ d imm) :=
 ⟨fun _ => ⟨rfl, rfl⟩, fun _ => rfl⟩
theorem Kinds.movi (at_ : At) (d : Fin 32) (imm : BitVec 9) : Kinds.Statement (.movi at_ d imm) :=
 ⟨fun _ => ⟨rfl, rfl⟩, fun _ => rfl⟩
theorem Kinds.andi (at_ : At) (d : Fin 32) (imm : BitVec 9) : Kinds.Statement (.andi at_ d imm) :=
 ⟨fun _ => ⟨rfl, rfl⟩, fun _ => rfl⟩
theorem Kinds.ori (at_ : At) (d : Fin 32) (imm : BitVec 9) : Kinds.Statement (.ori at_ d imm) :=
 ⟨fun _ => ⟨rfl, rfl⟩, fun _ => rfl⟩
theorem Kinds.xori (at_ : At) (d : Fin 32) (imm : BitVec 9) : Kinds.Statement (.xori at_ d imm) :=
 ⟨fun _ => ⟨rfl, rfl⟩, fun _ => rfl⟩
theorem Kinds.shli (at_ : At) (d : Fin 32) (n : BitVec 5) : Kinds.Statement (.shli at_ d n) :=
 ⟨fun _ => ⟨rfl, rfl⟩, fun _ => rfl⟩
theorem Kinds.shri (at_ : At) (d : Fin 32) (n : BitVec 5) : Kinds.Statement (.shri at_ d n) :=
 ⟨fun _ => ⟨rfl, rfl⟩, fun _ => rfl⟩
theorem Kinds.shrui (at_ : At) (d : Fin 32) (n : BitVec 5) : Kinds.Statement (.shrui at_ d n) :=
 ⟨fun _ => ⟨rfl, rfl⟩, fun _ => rfl⟩
theorem Kinds.cmpeq (at_ : At) (pd : Fin 8) (a b : Fin 32) : Kinds.Statement (.cmpeq at_ pd a b) :=
 ⟨fun _ => ⟨rfl, rfl⟩, fun _ => rfl⟩
theorem Kinds.cmpne (at_ : At) (pd : Fin 8) (a b : Fin 32) : Kinds.Statement (.cmpne at_ pd a b) :=
 ⟨fun _ => ⟨rfl, rfl⟩, fun _ => rfl⟩
theorem Kinds.cmplt (at_ : At) (pd : Fin 8) (a b : Fin 32) : Kinds.Statement (.cmplt at_ pd a b) :=
 ⟨fun _ => ⟨rfl, rfl⟩, fun _ => rfl⟩
theorem Kinds.cmple (at_ : At) (pd : Fin 8) (a b : Fin 32) : Kinds.Statement (.cmple at_ pd a b) :=
 ⟨fun _ => ⟨rfl, rfl⟩, fun _ => rfl⟩
theorem Kinds.cmpltu (at_ : At) (pd : Fin 8) (a b : Fin 32) : Kinds.Statement (.cmpltu at_ pd a b) :=
 ⟨fun _ => ⟨rfl, rfl⟩, fun _ => rfl⟩
theorem Kinds.cmpleu (at_ : At) (pd : Fin 8) (a b : Fin 32) : Kinds.Statement (.cmpleu at_ pd a b) :=
 ⟨fun _ => ⟨rfl, rfl⟩, fun _ => rfl⟩
theorem Kinds.cmpeqi (at_ : At) (pd : Fin 8) (a : Fin 32) (imm : BitVec 6) : Kinds.Statement (.cmpeqi at_ pd a imm) :=
 ⟨fun _ => ⟨rfl, rfl⟩, fun _ => rfl⟩
theorem Kinds.cmplti (at_ : At) (pd : Fin 8) (a : Fin 32) (imm : BitVec 6) : Kinds.Statement (.cmplti at_ pd a imm) :=
 ⟨fun _ => ⟨rfl, rfl⟩, fun _ => rfl⟩
theorem Kinds.pand (at_ : At) (pd pa pb : Fin 8) : Kinds.Statement (.pand at_ pd pa pb) :=
 ⟨fun _ => ⟨rfl, rfl⟩, fun _ => rfl⟩
theorem Kinds.por (at_ : At) (pd pa pb : Fin 8) : Kinds.Statement (.por at_ pd pa pb) :=
 ⟨fun _ => ⟨rfl, rfl⟩, fun _ => rfl⟩
theorem Kinds.pnot (at_ : At) (pd pa : Fin 8) : Kinds.Statement (.pnot at_ pd pa) :=
 ⟨fun _ => ⟨rfl, rfl⟩, fun _ => rfl⟩
theorem Kinds.br (at_ : At) (off : BitVec 14) : Kinds.Statement (.br at_ off) :=
 ⟨fun _ => ⟨rfl, rfl⟩, fun _ => rfl⟩
theorem Kinds.call (at_ : At) (off : BitVec 14) : Kinds.Statement (.call at_ off) :=
 ⟨fun _ => ⟨rfl, rfl⟩, fun _ => rfl⟩
theorem Kinds.jr (at_ : At) (a : Fin 32) : Kinds.Statement (.jr at_ a) :=
 ⟨fun _ => ⟨rfl, rfl⟩, fun _ => rfl⟩
theorem Kinds.loop (at_ : At) (l : Fin 2) (sc : Fin 32) (off : BitVec 8) : Kinds.Statement (.loop at_ l sc off) :=
 ⟨fun _ => ⟨rfl, rfl⟩, fun _ => rfl⟩
theorem Kinds.loopi (at_ : At) (l : Fin 2) (n : BitVec 5) (off : BitVec 8) : Kinds.Statement (.loopi at_ l n off) :=
 ⟨fun _ => ⟨rfl, rfl⟩, fun _ => rfl⟩
theorem Kinds.lbrk (at_ : At) (l : Fin 2) : Kinds.Statement (.lbrk at_ l) :=
 ⟨fun _ => ⟨rfl, rfl⟩, fun _ => rfl⟩
theorem Kinds.movLLr (at_ : At) (sel : BitVec 3) (s : Fin 32) : Kinds.Statement (.movLLr at_ sel s) :=
 ⟨fun _ => ⟨rfl, rfl⟩, fun _ => rfl⟩
theorem Kinds.movLSd (at_ : At) (sel : BitVec 3) (s : Fin 32) : Kinds.Statement (.movLSd at_ sel s) :=
 ⟨fun _ => ⟨rfl, rfl⟩, fun _ => rfl⟩
theorem Kinds.movcR (at_ : At) (s c : Fin 32) : Kinds.Statement (.movcR at_ s c) :=
 ⟨fun _ => ⟨rfl, rfl⟩, fun _ => rfl⟩
theorem Kinds.movcW (at_ : At) (s c : Fin 32) : Kinds.Statement (.movcW at_ s c) :=
 ⟨fun _ => ⟨rfl, rfl⟩, fun _ => rfl⟩
theorem Kinds.csync (at_ : At) : Kinds.Statement (.csync at_) :=
 ⟨fun _ => ⟨rfl, rfl⟩, fun _ => rfl⟩
theorem Kinds.pmsync (at_ : At) : Kinds.Statement (.pmsync at_) :=
 ⟨fun _ => ⟨rfl, rfl⟩, fun _ => rfl⟩
theorem Kinds.rti (at_ : At) : Kinds.Statement (.rti at_) :=
 ⟨fun _ => ⟨rfl, rfl⟩, fun _ => rfl⟩
theorem Kinds.rtt (at_ : At) : Kinds.Statement (.rtt at_) :=
 ⟨fun _ => ⟨rfl, rfl⟩, fun _ => rfl⟩
theorem Kinds.brk (at_ : At) (n : BitVec 6) : Kinds.Statement (.brk at_ n) :=
 ⟨fun _ => ⟨rfl, rfl⟩, fun _ => rfl⟩
theorem Kinds.vgate (at_ : At) : Kinds.Statement (.vgate at_) :=
 ⟨fun _ => ⟨rfl, rfl⟩, fun _ => rfl⟩
theorem Kinds.vectorUnitWake (c : Fin 18) : Kinds.Statement (.vectorUnitWake c) :=
 ⟨fun _ => ⟨rfl, rfl⟩, fun _ => rfl⟩
theorem Kinds.sint (at_ : At) (n : BitVec 6) : Kinds.Statement (.sint at_ n) :=
 ⟨fun _ => ⟨rfl, rfl⟩, fun _ => rfl⟩
theorem Kinds.ldB (at_ : At) (s : Fin 32) (m : AddrForm) : Kinds.Statement (.ldB at_ s m) :=
 ⟨fun _ => ⟨rfl, rfl⟩, fun _ => rfl⟩
theorem Kinds.ldBu (at_ : At) (s : Fin 32) (m : AddrForm) : Kinds.Statement (.ldBu at_ s m) :=
 ⟨fun _ => ⟨rfl, rfl⟩, fun _ => rfl⟩
theorem Kinds.ldH (at_ : At) (s : Fin 32) (m : AddrForm) : Kinds.Statement (.ldH at_ s m) :=
 ⟨fun _ => ⟨rfl, rfl⟩, fun _ => rfl⟩
theorem Kinds.ldHu (at_ : At) (s : Fin 32) (m : AddrForm) : Kinds.Statement (.ldHu at_ s m) :=
 ⟨fun _ => ⟨rfl, rfl⟩, fun _ => rfl⟩
theorem Kinds.ldW (at_ : At) (s : Fin 32) (m : AddrForm) : Kinds.Statement (.ldW at_ s m) :=
 ⟨fun _ => ⟨rfl, rfl⟩, fun _ => rfl⟩
theorem Kinds.stB (at_ : At) (s : Fin 32) (m : AddrForm) : Kinds.Statement (.stB at_ s m) :=
 ⟨fun _ => ⟨rfl, rfl⟩, fun _ => rfl⟩
theorem Kinds.stH (at_ : At) (s : Fin 32) (m : AddrForm) : Kinds.Statement (.stH at_ s m) :=
 ⟨fun _ => ⟨rfl, rfl⟩, fun _ => rfl⟩
theorem Kinds.stW (at_ : At) (s : Fin 32) (m : AddrForm) : Kinds.Statement (.stW at_ s m) :=
 ⟨fun _ => ⟨rfl, rfl⟩, fun _ => rfl⟩
theorem Kinds.adda (at_ : At) (g : Fin 16) (x : AddaForm) : Kinds.Statement (.adda at_ g x) :=
 ⟨fun _ => ⟨rfl, rfl⟩, fun _ => rfl⟩
theorem Kinds.movG (at_ : At) (g : Fin 16) (s : Fin 32) : Kinds.Statement (.movG at_ g s) :=
 ⟨fun _ => ⟨rfl, rfl⟩, fun _ => rfl⟩
theorem Kinds.movS (at_ : At) (s : Fin 32) (g : Fin 16) : Kinds.Statement (.movS at_ s g) :=
 ⟨fun _ => ⟨rfl, rfl⟩, fun _ => rfl⟩
theorem Kinds.movM (at_ : At) (m : Fin 8) (s : Fin 32) : Kinds.Statement (.movM at_ m s) :=
 ⟨fun _ => ⟨rfl, rfl⟩, fun _ => rfl⟩
theorem Kinds.bqIssue (at_ : At) (tag : Fin 16) (s1 s2 : Fin 32) : Kinds.Statement (.bqIssue at_ tag s1 s2) :=
 ⟨fun _ => ⟨rfl, rfl⟩, fun _ => rfl⟩
theorem Kinds.bqPoll (at_ : At) (d : Fin 32) (tag : Fin 16) : Kinds.Statement (.bqPoll at_ d tag) :=
 ⟨fun _ => ⟨rfl, rfl⟩, fun _ => rfl⟩
theorem Kinds.bqWait (at_ : At) (d : Fin 32) (tag : Fin 16) : Kinds.Statement (.bqWait at_ d tag) :=
 ⟨fun _ => ⟨rfl, rfl⟩, fun _ => rfl⟩
theorem Kinds.bqStat (at_ : At) (d : Fin 32) (tag : Fin 16) : Kinds.Statement (.bqStat at_ d tag) :=
 ⟨fun _ => ⟨rfl, rfl⟩, fun _ => rfl⟩
theorem Kinds.synSig (at_ : At) (sa sb : Fin 32) : Kinds.Statement (.synSig at_ sa sb) :=
 ⟨fun _ => ⟨rfl, rfl⟩, fun _ => rfl⟩
theorem Kinds.synWaitInstr (at_ : At) (sa sb : Fin 32) : Kinds.Statement (.synWaitInstr at_ sa sb) :=
 ⟨fun _ => ⟨rfl, rfl⟩, fun _ => rfl⟩
theorem Kinds.synArm (at_ : At) (sa sb : Fin 32) : Kinds.Statement (.synArm at_ sa sb) :=
 ⟨fun _ => ⟨rfl, rfl⟩, fun _ => rfl⟩
theorem Kinds.mac (at_ : At) (x : Dual) : Kinds.Statement (.mac at_ x) :=
 ⟨fun _ => ⟨rfl, rfl⟩, fun _ => rfl⟩
theorem Kinds.msu (at_ : At) (x : Dual) : Kinds.Statement (.msu at_ x) :=
 ⟨fun _ => ⟨rfl, rfl⟩, fun _ => rfl⟩
theorem Kinds.mpy (at_ : At) (x : Dual) : Kinds.Statement (.mpy at_ x) :=
 ⟨fun _ => ⟨rfl, rfl⟩, fun _ => rfl⟩
theorem Kinds.macR (at_ : At) (acc : Fin 4) (a b : Fin 32) : Kinds.Statement (.macR at_ acc a b) :=
 ⟨fun _ => ⟨rfl, rfl⟩, fun _ => rfl⟩
theorem Kinds.msuR (at_ : At) (acc : Fin 4) (a b : Fin 32) : Kinds.Statement (.msuR at_ acc a b) :=
 ⟨fun _ => ⟨rfl, rfl⟩, fun _ => rfl⟩
theorem Kinds.mpyR (at_ : At) (acc : Fin 4) (a b : Fin 32) : Kinds.Statement (.mpyR at_ acc a b) :=
 ⟨fun _ => ⟨rfl, rfl⟩, fun _ => rfl⟩
theorem Kinds.satA (at_ : At) (d : Fin 32) (acc : Fin 4) (n : BitVec 5) : Kinds.Statement (.satA at_ d acc n) :=
 ⟨fun _ => ⟨rfl, rfl⟩, fun _ => rfl⟩
theorem Kinds.movA (at_ : At) (acc : Fin 4) (a : Fin 32) : Kinds.Statement (.movA at_ acc a) :=
 ⟨fun _ => ⟨rfl, rfl⟩, fun _ => rfl⟩
theorem Kinds.addacc (at_ : At) (an am : Fin 4) : Kinds.Statement (.addacc at_ an am) :=
 ⟨fun _ => ⟨rfl, rfl⟩, fun _ => rfl⟩
theorem Kinds.subacc (at_ : At) (an am : Fin 4) : Kinds.Statement (.subacc at_ an am) :=
 ⟨fun _ => ⟨rfl, rfl⟩, fun _ => rfl⟩
theorem Kinds.shla (at_ : At) (acc : Fin 4) (imm : BitVec 6) : Kinds.Statement (.shla at_ acc imm) :=
 ⟨fun _ => ⟨rfl, rfl⟩, fun _ => rfl⟩
theorem Kinds.clr (at_ : At) (acc : Fin 4) : Kinds.Statement (.clr at_ acc) :=
 ⟨fun _ => ⟨rfl, rfl⟩, fun _ => rfl⟩
theorem Kinds.vaddH (at_ : At) (d a b : Fin 32) : Kinds.Statement (.vaddH at_ d a b) :=
 ⟨fun _ => ⟨rfl, rfl⟩, fun _ => rfl⟩
theorem Kinds.vsubH (at_ : At) (d a b : Fin 32) : Kinds.Statement (.vsubH at_ d a b) :=
 ⟨fun _ => ⟨rfl, rfl⟩, fun _ => rfl⟩
theorem Kinds.vaddsH (at_ : At) (d a b : Fin 32) : Kinds.Statement (.vaddsH at_ d a b) :=
 ⟨fun _ => ⟨rfl, rfl⟩, fun _ => rfl⟩
theorem Kinds.vsubsH (at_ : At) (d a b : Fin 32) : Kinds.Statement (.vsubsH at_ d a b) :=
 ⟨fun _ => ⟨rfl, rfl⟩, fun _ => rfl⟩
theorem Kinds.vmulH (at_ : At) (d a b : Fin 32) : Kinds.Statement (.vmulH at_ d a b) :=
 ⟨fun _ => ⟨rfl, rfl⟩, fun _ => rfl⟩
theorem Kinds.vminH (at_ : At) (d a b : Fin 32) : Kinds.Statement (.vminH at_ d a b) :=
 ⟨fun _ => ⟨rfl, rfl⟩, fun _ => rfl⟩
theorem Kinds.vmaxH (at_ : At) (d a b : Fin 32) : Kinds.Statement (.vmaxH at_ d a b) :=
 ⟨fun _ => ⟨rfl, rfl⟩, fun _ => rfl⟩
theorem Kinds.vand (at_ : At) (d a b : Fin 32) : Kinds.Statement (.vand at_ d a b) :=
 ⟨fun _ => ⟨rfl, rfl⟩, fun _ => rfl⟩
theorem Kinds.vor (at_ : At) (d a b : Fin 32) : Kinds.Statement (.vor at_ d a b) :=
 ⟨fun _ => ⟨rfl, rfl⟩, fun _ => rfl⟩
theorem Kinds.vxor (at_ : At) (d a b : Fin 32) : Kinds.Statement (.vxor at_ d a b) :=
 ⟨fun _ => ⟨rfl, rfl⟩, fun _ => rfl⟩
theorem Kinds.vaddB (at_ : At) (d a b : Fin 32) : Kinds.Statement (.vaddB at_ d a b) :=
 ⟨fun _ => ⟨rfl, rfl⟩, fun _ => rfl⟩
theorem Kinds.vaddsB (at_ : At) (d a b : Fin 32) : Kinds.Statement (.vaddsB at_ d a b) :=
 ⟨fun _ => ⟨rfl, rfl⟩, fun _ => rfl⟩
theorem Kinds.vaddHM (at_ : At) (d b : Fin 32) (k : Fin 8) (z : Bool) : Kinds.Statement (.vaddHM at_ d b k z) :=
 ⟨fun _ => ⟨rfl, rfl⟩, fun _ => rfl⟩
theorem Kinds.vsubHM (at_ : At) (d b : Fin 32) (k : Fin 8) (z : Bool) : Kinds.Statement (.vsubHM at_ d b k z) :=
 ⟨fun _ => ⟨rfl, rfl⟩, fun _ => rfl⟩
theorem Kinds.vaddsHM (at_ : At) (d b : Fin 32) (k : Fin 8) (z : Bool) : Kinds.Statement (.vaddsHM at_ d b k z) :=
 ⟨fun _ => ⟨rfl, rfl⟩, fun _ => rfl⟩
theorem Kinds.vmulHM (at_ : At) (d b : Fin 32) (k : Fin 8) (z : Bool) : Kinds.Statement (.vmulHM at_ d b k z) :=
 ⟨fun _ => ⟨rfl, rfl⟩, fun _ => rfl⟩
theorem Kinds.vmovM (at_ : At) (d b : Fin 32) (k : Fin 8) (z : Bool) : Kinds.Statement (.vmovM at_ d b k z) :=
 ⟨fun _ => ⟨rfl, rfl⟩, fun _ => rfl⟩
theorem Kinds.vmov (at_ : At) (d a : Fin 32) : Kinds.Statement (.vmov at_ d a) :=
 ⟨fun _ => ⟨rfl, rfl⟩, fun _ => rfl⟩
theorem Kinds.vshlH (at_ : At) (d a : Fin 32) (n : BitVec 4) : Kinds.Statement (.vshlH at_ d a n) :=
 ⟨fun _ => ⟨rfl, rfl⟩, fun _ => rfl⟩
theorem Kinds.vshrH (at_ : At) (d a : Fin 32) (n : BitVec 4) : Kinds.Statement (.vshrH at_ d a n) :=
 ⟨fun _ => ⟨rfl, rfl⟩, fun _ => rfl⟩
theorem Kinds.vshrrH (at_ : At) (d a : Fin 32) (n : BitVec 4) : Kinds.Statement (.vshrrH at_ d a n) :=
 ⟨fun _ => ⟨rfl, rfl⟩, fun _ => rfl⟩
theorem Kinds.vmacH (at_ : At) (w : Fin 4) (a b : Fin 32) : Kinds.Statement (.vmacH at_ w a b) :=
 ⟨fun _ => ⟨rfl, rfl⟩, fun _ => rfl⟩
theorem Kinds.vmsuH (at_ : At) (w : Fin 4) (a b : Fin 32) : Kinds.Statement (.vmsuH at_ w a b) :=
 ⟨fun _ => ⟨rfl, rfl⟩, fun _ => rfl⟩
theorem Kinds.vmpyH (at_ : At) (w : Fin 4) (a b : Fin 32) : Kinds.Statement (.vmpyH at_ w a b) :=
 ⟨fun _ => ⟨rfl, rfl⟩, fun _ => rfl⟩
theorem Kinds.vclr (at_ : At) (w : Fin 4) : Kinds.Statement (.vclr at_ w) :=
 ⟨fun _ => ⟨rfl, rfl⟩, fun _ => rfl⟩
theorem Kinds.vnarrow (at_ : At) (d : Fin 32) (w : Fin 4) (n : BitVec 5) : Kinds.Statement (.vnarrow at_ d w n) :=
 ⟨fun _ => ⟨rfl, rfl⟩, fun _ => rfl⟩
theorem Kinds.vcmpeqH (at_ : At) (k : Fin 8) (a b : Fin 32) : Kinds.Statement (.vcmpeqH at_ k a b) :=
 ⟨fun _ => ⟨rfl, rfl⟩, fun _ => rfl⟩
theorem Kinds.vcmpltH (at_ : At) (k : Fin 8) (a b : Fin 32) : Kinds.Statement (.vcmpltH at_ k a b) :=
 ⟨fun _ => ⟨rfl, rfl⟩, fun _ => rfl⟩
theorem Kinds.vcmpleH (at_ : At) (k : Fin 8) (a b : Fin 32) : Kinds.Statement (.vcmpleH at_ k a b) :=
 ⟨fun _ => ⟨rfl, rfl⟩, fun _ => rfl⟩
theorem Kinds.kand (at_ : At) (kd ka kb : Fin 8) : Kinds.Statement (.kand at_ kd ka kb) :=
 ⟨fun _ => ⟨rfl, rfl⟩, fun _ => rfl⟩
theorem Kinds.kor (at_ : At) (kd ka kb : Fin 8) : Kinds.Statement (.kor at_ kd ka kb) :=
 ⟨fun _ => ⟨rfl, rfl⟩, fun _ => rfl⟩
theorem Kinds.knot (at_ : At) (kd ka : Fin 8) : Kinds.Statement (.knot at_ kd ka) :=
 ⟨fun _ => ⟨rfl, rfl⟩, fun _ => rfl⟩
theorem Kinds.vbcast (at_ : At) (d a : Fin 32) : Kinds.Statement (.vbcast at_ d a) :=
 ⟨fun _ => ⟨rfl, rfl⟩, fun _ => rfl⟩
theorem Kinds.vext (at_ : At) (d a b : Fin 32) : Kinds.Statement (.vext at_ d a b) :=
 ⟨fun _ => ⟨rfl, rfl⟩, fun _ => rfl⟩
theorem Kinds.vld (at_ : At) (v : Fin 32) (m : AddrForm) (upto : Nat) : Kinds.Statement (.vld at_ v m upto) :=
 ⟨fun _ => ⟨rfl, rfl⟩, fun _ => rfl⟩
theorem Kinds.vst (at_ : At) (v : Fin 32) (m : AddrForm) (upto : Nat) : Kinds.Statement (.vst at_ v m upto) :=
 ⟨fun _ => ⟨rfl, rfl⟩, fun _ => rfl⟩
theorem Kinds.vgatherH (at_ : At) (v vi : Fin 32) (g : Fin 16) (upto : Nat) : Kinds.Statement (.vgatherH at_ v vi g upto) :=
 ⟨fun _ => ⟨rfl, rfl⟩, fun _ => rfl⟩
theorem Kinds.vscatterH (at_ : At) (v vi : Fin 32) (g : Fin 16) (upto : Nat) : Kinds.Statement (.vscatterH at_ v vi g upto) :=
 ⟨fun _ => ⟨rfl, rfl⟩, fun _ => rfl⟩
theorem Kinds.vrmwAddH (at_ : At) (v vi : Fin 32) (g : Fin 16) (upto : Nat) : Kinds.Statement (.vrmwAddH at_ v vi g upto) :=
 ⟨fun _ => ⟨rfl, rfl⟩, fun _ => rfl⟩
theorem Kinds.vredsumH (at_ : At) (d a : Fin 32) (upto : Nat) : Kinds.Statement (.vredsumH at_ d a upto) :=
 ⟨fun _ => ⟨rfl, rfl⟩, fun _ => rfl⟩
theorem Kinds.vredminH (at_ : At) (d a : Fin 32) (upto : Nat) : Kinds.Statement (.vredminH at_ d a upto) :=
 ⟨fun _ => ⟨rfl, rfl⟩, fun _ => rfl⟩
theorem Kinds.vredmaxH (at_ : At) (d a : Fin 32) (upto : Nat) : Kinds.Statement (.vredmaxH at_ d a upto) :=
 ⟨fun _ => ⟨rfl, rfl⟩, fun _ => rfl⟩
theorem Kinds.vminidxH (at_ : At) (d a : Fin 32) (upto : Nat) : Kinds.Statement (.vminidxH at_ d a upto) :=
 ⟨fun _ => ⟨rfl, rfl⟩, fun _ => rfl⟩
theorem Kinds.vmaxidxH (at_ : At) (d a : Fin 32) (upto : Nat) : Kinds.Statement (.vmaxidxH at_ d a upto) :=
 ⟨fun _ => ⟨rfl, rfl⟩, fun _ => rfl⟩
theorem Kinds.vsminIdx (at_ : At) (d a : Fin 32) (upto : Nat) : Kinds.Statement (.vsminIdx at_ d a upto) :=
 ⟨fun _ => ⟨rfl, rfl⟩, fun _ => rfl⟩
theorem Kinds.vsmaxIdx (at_ : At) (d a : Fin 32) (upto : Nat) : Kinds.Statement (.vsmaxIdx at_ d a upto) :=
 ⟨fun _ => ⟨rfl, rfl⟩, fun _ => rfl⟩
theorem Kinds.interruptNormalEntry (c : Fin 18) (forced : Bool) : Kinds.Statement (.interruptNormalEntry c forced) :=
 ⟨fun _ => ⟨rfl, rfl⟩, fun _ => rfl⟩
theorem Kinds.interruptFastEntry (c : Fin 18) (forced : Bool) : Kinds.Statement (.interruptFastEntry c forced) :=
 ⟨fun _ => ⟨rfl, rfl⟩, fun _ => rfl⟩
theorem Kinds.ftcTimerMatch (c : Fin 18) : Kinds.Statement (.ftcTimerMatch c) :=
 ⟨fun _ => ⟨rfl, rfl⟩, fun _ => rfl⟩
theorem Kinds.bstCommandEntry (c : Fin 18) : Kinds.Statement (.bstCommandEntry c) :=
 ⟨fun _ => ⟨rfl, rfl⟩, fun _ => rfl⟩
theorem Kinds.bstCommandStart (a : Fin 4) : Kinds.Statement (.bstCommandStart a) :=
 ⟨fun _ => ⟨rfl, rfl⟩, fun _ => rfl⟩
theorem Kinds.narrowRunEnd (a : Fin 4) (stall : Nat) : Kinds.Statement (.narrowRunEnd a stall) :=
 ⟨fun _ => ⟨rfl, rfl⟩, fun _ => rfl⟩
theorem Kinds.widenDecision (a : Fin 4) : Kinds.Statement (.widenDecision a) :=
 ⟨fun _ => ⟨rfl, rfl⟩, fun _ => rfl⟩
theorem Kinds.bstCommandComplete (a : Fin 4) : Kinds.Statement (.bstCommandComplete a) :=
 ⟨fun _ => ⟨rfl, rfl⟩, fun _ => rfl⟩
theorem Kinds.bstDrainEnd (a : Fin 4) : Kinds.Statement (.bstDrainEnd a) :=
 ⟨fun _ => ⟨rfl, rfl⟩, fun _ => rfl⟩
theorem Kinds.hdgSubmit (src : RegSrc) (v : Word) : Kinds.Statement (.hdgSubmit src v) :=
 ⟨fun _ => ⟨rfl, rfl⟩, fun _ => rfl⟩
theorem Kinds.prvSubmit (src : RegSrc) (v : Word) : Kinds.Statement (.prvSubmit src v) :=
 ⟨fun _ => ⟨rfl, rfl⟩, fun _ => rfl⟩
theorem Kinds.passAccept (e : Engine) : Kinds.Statement (.passAccept e) :=
 ⟨fun _ => ⟨rfl, rfl⟩, fun _ => rfl⟩
theorem Kinds.passStart (e : Engine) : Kinds.Statement (.passStart e) :=
 ⟨fun _ => ⟨rfl, rfl⟩, fun _ => rfl⟩
theorem Kinds.passComplete (e : Engine) (pipe : Fin 4) (stall : Nat) : Kinds.Statement (.passComplete e pipe stall) :=
 ⟨fun _ => ⟨rfl, rfl⟩, fun _ => rfl⟩
theorem Kinds.passDrainEnd (e : Engine) (pipe : Fin 4) : Kinds.Statement (.passDrainEnd e pipe) :=
 ⟨fun _ => ⟨rfl, rfl⟩, fun _ => rfl⟩
theorem Kinds.lineRateReload (n : Fin 4) : Kinds.Statement (.lineRateReload n) :=
 ⟨fun _ => ⟨rfl, rfl⟩, fun _ => rfl⟩
theorem Kinds.lineRateLine (n : Fin 4) : Kinds.Statement (.lineRateLine n) :=
 ⟨fun _ => ⟨rfl, rfl⟩, fun _ => rfl⟩
theorem Kinds.frameEntry (n : Fin 4) : Kinds.Statement (.frameEntry n) :=
 ⟨fun _ => ⟨rfl, rfl⟩, fun _ => rfl⟩
theorem Kinds.descriptorFetch (n : Fin 128) : Kinds.Statement (.descriptorFetch n) :=
 ⟨fun _ => ⟨rfl, rfl⟩, fun _ => rfl⟩
theorem Kinds.dmaBurstGrant (n : Fin 128) : Kinds.Statement (.dmaBurstGrant n) :=
 ⟨fun _ => ⟨rfl, rfl⟩, fun _ => rfl⟩
theorem Kinds.dmaBeat (e : Fin 4) : Kinds.Statement (.dmaBeat e) :=
 ⟨fun _ => ⟨rfl, rfl⟩, fun _ => rfl⟩
theorem Kinds.descriptorComplete (n : Fin 128) : Kinds.Statement (.descriptorComplete n) :=
 ⟨fun _ => ⟨rfl, rfl⟩, fun _ => rfl⟩
theorem Kinds.dmaKickWrite (src : RegSrc) (n : Fin 128) : Kinds.Statement (.dmaKickWrite src n) :=
 ⟨fun _ => ⟨rfl, rfl⟩, fun _ => rfl⟩
theorem Kinds.signal (f : Fin 32) (page : Fin 256) (v : Word) : Kinds.Statement (.signal f page v) :=
 ⟨fun _ => ⟨rfl, rfl⟩, fun _ => rfl⟩
theorem Kinds.vbase (f : Fin 32) (page : Fin 256) (v : Word) : Kinds.Statement (.vbase f page v) :=
 ⟨fun _ => ⟨rfl, rfl⟩, fun _ => rfl⟩
theorem Kinds.synCtl (src : RegSrc) (n : Fin 16384) (v : Word) : Kinds.Statement (.synCtl src n v) :=
 ⟨fun _ => ⟨rfl, rfl⟩, fun _ => rfl⟩
theorem Kinds.word (c : Fin 18) (ch : Fin 64) (d : Fin 32) (v : Word) : Kinds.Statement (.word c ch d v) :=
 ⟨fun _ => ⟨rfl, rfl⟩, fun _ => rfl⟩
theorem Kinds.noticeDelivery (ch : Fin 64) : Kinds.Statement (.noticeDelivery ch) :=
 ⟨fun _ => ⟨rfl, rfl⟩, fun _ => rfl⟩
theorem Kinds.db (c : Fin 18) (ch : Fin 64) (v : Word) : Kinds.Statement (.db c ch v) :=
 ⟨fun _ => ⟨rfl, rfl⟩, fun _ => rfl⟩
theorem Kinds.mask (c : Fin 18) (ch : Fin 64) (v : Word) : Kinds.Statement (.mask c ch v) :=
 ⟨fun _ => ⟨rfl, rfl⟩, fun _ => rfl⟩
theorem Kinds.lineDelivery (m : Fin 8) (line : CamLine) : Kinds.Statement (.lineDelivery m line) :=
 ⟨fun _ => ⟨rfl, rfl⟩, fun _ => rfl⟩
theorem Kinds.cxpLinkLost (m : Fin 8) : Kinds.Statement (.cxpLinkLost m) :=
 ⟨fun _ => ⟨rfl, rfl⟩, fun _ => rfl⟩
theorem Kinds.pocxpOverload (p : Fin 8) (short : Bool) : Kinds.Statement (.pocxpOverload p short) :=
 ⟨fun _ => ⟨rfl, rfl⟩, fun _ => rfl⟩
theorem Kinds.webVpost (src : RegSrc) (v : Word) : Kinds.Statement (.webVpost src v) :=
 ⟨fun _ => ⟨rfl, rfl⟩, fun _ => rfl⟩
theorem Kinds.outputPulseStart (o : Fin 12) : Kinds.Statement (.outputPulseStart o) :=
 ⟨fun _ => ⟨rfl, rfl⟩, fun _ => rfl⟩
theorem Kinds.outputPulseEnd (o : Fin 12) : Kinds.Statement (.outputPulseEnd o) :=
 ⟨fun _ => ⟨rfl, rfl⟩, fun _ => rfl⟩
theorem Kinds.scrubIdleItem : Kinds.Statement .scrubIdleItem :=
 ⟨fun _ => ⟨rfl, rfl⟩, fun _ => rfl⟩
theorem Kinds.scrubItem : Kinds.Statement .scrubItem :=
 ⟨fun _ => ⟨rfl, rfl⟩, fun _ => rfl⟩
theorem Kinds.odcntRead (n : Word) : Kinds.Statement (.odcntRead n) :=
 ⟨fun _ => ⟨rfl, rfl⟩, fun _ => rfl⟩
theorem Kinds.coppiceTest (unit : Word) (failing : List Word) : Kinds.Statement (.coppiceTest unit failing) :=
 ⟨fun _ => ⟨rfl, rfl⟩, fun _ => rfl⟩
theorem Kinds.datapathCheckFail (unit : Word) : Kinds.Statement (.datapathCheckFail unit) :=
 ⟨fun _ => ⟨rfl, rfl⟩, fun _ => rfl⟩
theorem Kinds.sramBankCopyDone (bank : Fin 32) : Kinds.Statement (.sramBankCopyDone bank) :=
 ⟨fun _ => ⟨rfl, rfl⟩, fun _ => rfl⟩
theorem Kinds.fieldMapWrite : Kinds.Statement .fieldMapWrite :=
 ⟨fun _ => ⟨rfl, rfl⟩, fun _ => rfl⟩
theorem Kinds.ethFrameReceive (port : Fin 2) (f : EthFrame) : Kinds.Statement (.ethFrameReceive port f) :=
 ⟨fun _ => ⟨rfl, rfl⟩, fun _ => rfl⟩
theorem Kinds.ptpSync (port : Fin 2) (offset : Int) (mpd : Word) (ppb : Int) : Kinds.Statement (.ptpSync port offset mpd ppb) :=
 ⟨fun _ => ⟨rfl, rfl⟩, fun _ => rfl⟩
theorem Kinds.ptpSyncTransmit (port : Fin 2) : Kinds.Statement (.ptpSyncTransmit port) :=
 ⟨fun _ => ⟨rfl, rfl⟩, fun _ => rfl⟩
theorem Kinds.masterlost : Kinds.Statement .masterlost :=
 ⟨fun _ => ⟨rfl, rfl⟩, fun _ => rfl⟩
theorem Kinds.holdoverExpiry : Kinds.Statement .holdoverExpiry :=
 ⟨fun _ => ⟨rfl, rfl⟩, fun _ => rfl⟩
theorem Kinds.transceiverInsert (cage : Fin 4) (x : Transceiver) : Kinds.Statement (.transceiverInsert cage x) :=
 ⟨fun _ => ⟨rfl, rfl⟩, fun _ => rfl⟩
theorem Kinds.transceiverOverpower (cage : Fin 4) : Kinds.Statement (.transceiverOverpower cage) :=
 ⟨fun _ => ⟨rfl, rfl⟩, fun _ => rfl⟩
theorem Kinds.linkTrain (k : Fin 8) (t : TrainInfo) : Kinds.Statement (.linkTrain k t) :=
 ⟨fun _ => ⟨rfl, rfl⟩, fun _ => rfl⟩
theorem Kinds.linkTrainRetry (k : Fin 8) : Kinds.Statement (.linkTrainRetry k) :=
 ⟨fun _ => ⟨rfl, rfl⟩, fun _ => rfl⟩
theorem Kinds.linkDown (k : Fin 8) : Kinds.Statement (.linkDown k) :=
 ⟨fun _ => ⟨rfl, rfl⟩, fun _ => rfl⟩
theorem Kinds.linkDelayMeasure (k : Fin 8) (delay : Word) : Kinds.Statement (.linkDelayMeasure k delay) :=
 ⟨fun _ => ⟨rfl, rfl⟩, fun _ => rfl⟩
theorem Kinds.linkFrameReceive (k : Fin 8) (f : LinkFrame) : Kinds.Statement (.linkFrameReceive k f) :=
 ⟨fun _ => ⟨rfl, rfl⟩, fun _ => rfl⟩
theorem Kinds.nak (k : Fin 8) (seq : BitVec 12) : Kinds.Statement (.nak k seq) :=
 ⟨fun _ => ⟨rfl, rfl⟩, fun _ => rfl⟩
theorem Kinds.idle (k : Fin 8) (recv : Bool) : Kinds.Statement (.idle k recv) :=
 ⟨fun _ => ⟨rfl, rfl⟩, fun _ => rfl⟩
theorem Kinds.route (k : Fin 8) (recv : Bool) : Kinds.Statement (.route k recv) :=
 ⟨fun _ => ⟨rfl, rfl⟩, fun _ => rfl⟩
theorem Kinds.join (k : Fin 8) : Kinds.Statement (.join k) :=
 ⟨fun _ => ⟨rfl, rfl⟩, fun _ => rfl⟩
theorem Kinds.tickFrame (k : Fin 8) : Kinds.Statement (.tickFrame k) :=
 ⟨fun _ => ⟨rfl, rfl⟩, fun _ => rfl⟩
theorem Kinds.domainTickFire : Kinds.Statement .domainTickFire :=
 ⟨fun _ => ⟨rfl, rfl⟩, fun _ => rfl⟩
theorem Kinds.leaderTickEmit : Kinds.Statement .leaderTickEmit :=
 ⟨fun _ => ⟨rfl, rfl⟩, fun _ => rfl⟩
theorem Kinds.catchUpTick : Kinds.Statement .catchUpTick :=
 ⟨fun _ => ⟨rfl, rfl⟩, fun _ => rfl⟩
theorem Kinds.beacon (k : Option (Fin 8)) : Kinds.Statement (.beacon k) :=
 ⟨fun _ => ⟨rfl, rfl⟩, fun _ => rfl⟩
theorem Kinds.leaderLost : Kinds.Statement .leaderLost :=
 ⟨fun _ => ⟨rfl, rfl⟩, fun _ => rfl⟩
theorem Kinds.syncOp (k : Fin 8) : Kinds.Statement (.syncOp k) :=
 ⟨fun _ => ⟨rfl, rfl⟩, fun _ => rfl⟩
theorem Kinds.remoteWaitTimeout (w : WaitRef) : Kinds.Statement (.remoteWaitTimeout w) :=
 ⟨fun _ => ⟨rfl, rfl⟩, fun _ => rfl⟩
theorem Kinds.configRequest (r : ConfigReq) : Kinds.Statement (.configRequest r) :=
 ⟨fun _ => ⟨rfl, rfl⟩, fun _ => rfl⟩
theorem Kinds.bar4Access (r : Bar4Req) : Kinds.Statement (.bar4Access r) :=
 ⟨fun _ => ⟨rfl, rfl⟩, fun _ => rfl⟩
theorem Kinds.hostReadCompletion (f : Fin 32) (addr : Dword) (r : HostAnswer) : Kinds.Statement (.hostReadCompletion f addr r) :=
 ⟨fun _ => ⟨rfl, rfl⟩, fun _ => rfl⟩
theorem Kinds.completionTimeout (f : Fin 32) (addr : Dword) (len : Nat) : Kinds.Statement (.completionTimeout f addr len) :=
 ⟨fun _ => ⟨rfl, rfl⟩, fun _ => rfl⟩
theorem Kinds.busMasterEnable (f : Fin 32) : Kinds.Statement (.busMasterEnable f) :=
 ⟨fun _ => ⟨rfl, rfl⟩, fun _ => rfl⟩
theorem Kinds.msixUnmask (f : Fin 32) (what : Unmask) : Kinds.Statement (.msixUnmask f what) :=
 ⟨fun _ => ⟨rfl, rfl⟩, fun _ => rfl⟩
theorem Kinds.hostReset : Kinds.Statement .hostReset :=
 ⟨fun _ => ⟨rfl, rfl⟩, fun _ => rfl⟩
theorem Kinds.flr (f : Fin 32) : Kinds.Statement (.flr f) :=
 ⟨fun _ => ⟨rfl, rfl⟩, fun _ => rfl⟩
theorem Kinds.flrConfigRestored (f : Fin 32) : Kinds.Statement (.flrConfigRestored f) :=
 ⟨fun _ => ⟨rfl, rfl⟩, fun _ => rfl⟩
theorem Kinds.pcieLinkUp (speed : BitVec 3) (width : BitVec 4) : Kinds.Statement (.pcieLinkUp speed width) :=
 ⟨fun _ => ⟨rfl, rfl⟩, fun _ => rfl⟩
theorem Kinds.registerRead (a : RegAccess) : Kinds.Statement (.registerRead a) :=
 ⟨fun h => (by cases h), fun h => (by cases h)⟩
theorem Kinds.cxpPacketReceive (m : Fin 8) (x : CxpPacket) : Kinds.Statement (.cxpPacketReceive m x) :=
 ⟨fun h => (by cases h), fun _ => rfl⟩
theorem Kinds.cxpCameraAnswer (p : Fin 8) (x : CamAnswer) : Kinds.Statement (.cxpCameraAnswer p x) :=
 ⟨fun _ => ⟨rfl, rfl⟩, fun _ => rfl⟩
theorem Kinds.transceiverRemove (cage : Fin 4) : Kinds.Statement (.transceiverRemove cage) :=
 ⟨fun _ => ⟨rfl, rfl⟩, fun _ => rfl⟩
theorem Kinds.ethLinkState (port : Fin 2) (up : Bool) : Kinds.Statement (.ethLinkState port up) :=
 ⟨fun _ => ⟨rfl, rfl⟩, fun _ => rfl⟩
theorem Kinds.datagramTransmit (port : Fin 2) : Kinds.Statement (.datagramTransmit port) :=
 ⟨fun _ => ⟨rfl, rfl⟩, fun _ => rfl⟩
theorem Kinds.encoderCountingStart : Kinds.Statement .encoderCountingStart :=
 ⟨fun _ => ⟨rfl, rfl⟩, fun _ => rfl⟩
theorem Kinds.stewardStart : Kinds.Statement .stewardStart :=
 ⟨fun _ => ⟨rfl, rfl⟩, fun _ => rfl⟩

end Sys2Proof.Laws
end

