-- ==== Sys2Proof/Laws/Plain.lean ====
section
/-! SUPPORT. What each operation on registers and control alone does, one equation for each operation. -/

namespace Sys2Proof.Machine

theorem Core.plainFx_alu (c : Core) (len : Nat) (op : AluOp) (d : Fin 32) (a : Fin 32) (b : Fin 32) : c.plainFx len (.alu op d a b) =
    ({ s := [(d.val, aluEval op (c.getS a) (c.getS b))] } : Fx) := rfl

theorem Core.plainFx_mov (c : Core) (len : Nat) (d : Fin 32) (a : Fin 32) : c.plainFx len (.mov d a) =
    ({ s := [(d.val, c.getS a)] } : Fx) := rfl

theorem Core.plainFx_imm (c : Core) (len : Nat) (op : ImmOp) (d : Fin 32) (n : Word) : c.plainFx len (.imm op d n) =
    ({ s := [(d.val, immEval op (c.getS d) n)] } : Fx) := rfl

theorem Core.plainFx_shift (c : Core) (len : Nat) (op : ShiftOp) (d : Fin 32) (n : BitVec 5) : c.plainFx len (.shift op d n) =
    ({ s := [(d.val, shiftEval op (c.getS d) n.toNat)] } : Fx) := rfl

theorem Core.plainFx_cmp (c : Core) (len : Nat) (op : CmpOp) (pd : Fin 8) (a : Fin 32) (b : Fin 32) : c.plainFx len (.cmp op pd a b) =
    ({ p := [(pd.val, cmpEval op (c.getS a) (c.getS b))] } : Fx) := rfl

theorem Core.plainFx_cmpImm (c : Core) (len : Nat) (lt : Bool) (pd : Fin 8) (a : Fin 32) (n : BitVec 6) : c.plainFx len (.cmpImm lt pd a n) =
    (let i := simm 6 n.toNat
    { p := [(pd.val, if lt then cmpEval .lt (c.getS a) i else cmpEval .eq (c.getS a) i)] } : Fx) := rfl

theorem Core.plainFx_pand (c : Core) (len : Nat) (pd : Fin 8) (pa : Fin 8) (pb : Fin 8) : c.plainFx len (.pand pd pa pb) =
    ({ p := [(pd.val, c.getP pa && c.getP pb)] } : Fx) := rfl

theorem Core.plainFx_por (c : Core) (len : Nat) (pd : Fin 8) (pa : Fin 8) (pb : Fin 8) : c.plainFx len (.por pd pa pb) =
    ({ p := [(pd.val, c.getP pa || c.getP pb)] } : Fx) := rfl

theorem Core.plainFx_pnot (c : Core) (len : Nat) (pd : Fin 8) (pa : Fin 8) : c.plainFx len (.pnot pd pa) =
    ({ p := [(pd.val, !c.getP pa)] } : Fx) := rfl

theorem Core.plainFx_br (c : Core) (len : Nat) (off : BitVec 16) : c.plainFx len (.br off) =
    ({ act := .branch (c.target off) } : Fx) := rfl

theorem Core.plainFx_call (c : Core) (len : Nat) (off : BitVec 16) : c.plainFx len (.call off) =
    ({ s := [(31, (c.pc + BitVec.ofNat 16 len).setWidth 32)], act := .branch (c.target off) } : Fx) := rfl

theorem Core.plainFx_jr (c : Core) (len : Nat) (a : Fin 32) : c.plainFx len (.jr a) =
    ({ act := .branch ((c.getS a).setWidth 16) } : Fx) := rfl

theorem Core.plainFx_loop (c : Core) (len : Nat) (l : Fin 2) (sc : Fin 32) (off : BitVec 8) : c.plainFx len (.loop l sc off) =
    ({ act := .setLoop l ((c.pc + BitVec.ofNat 16 len) + off.setWidth 16) (c.getS sc) } : Fx) := rfl

theorem Core.plainFx_loopi (c : Core) (len : Nat) (l : Fin 2) (n : BitVec 5) (off : BitVec 8) : c.plainFx len (.loopi l n off) =
    ({ act := .setLoop l ((c.pc + BitVec.ofNat 16 len) + off.setWidth 16) (n.setWidth 32) } : Fx) := rfl

theorem Core.plainFx_lbrk (c : Core) (len : Nat) (l : Fin 2) : c.plainFx len (.lbrk l) =
    ({ act := .lbrk l } : Fx) := rfl

theorem Core.plainFx_movToLoop (c : Core) (len : Nat) (sel : BitVec 3) (s : Fin 32) : c.plainFx len (.movToLoop sel s) =
    ({ act := .toLoop sel.toNat (c.getS s) } : Fx) := rfl

theorem Core.plainFx_movFromLoop (c : Core) (len : Nat) (sel : BitVec 3) (s : Fin 32) : c.plainFx len (.movFromLoop sel s) =
    ({ s := [(s.val, c.readLoop sel.toNat)] } : Fx) := rfl

theorem Core.plainFx_movcR (c : Core) (len : Nat) (s : Fin 32) (r : Fin 32) : c.plainFx len (.movcR s r) =
    ({ act := .crRead r s } : Fx) := rfl

theorem Core.plainFx_movcW (c : Core) (len : Nat) (s : Fin 32) (r : Fin 32) : c.plainFx len (.movcW s r) =
    ({ act := .crWrite r (c.getS s) } : Fx) := rfl

theorem Core.plainFx_csync (c : Core) (len : Nat) : c.plainFx len (.csync) =
    ({ act := .csync } : Fx) := rfl

theorem Core.plainFx_pmsync (c : Core) (len : Nat) : c.plainFx len (.pmsync) =
    ({ act := .pmsync } : Fx) := rfl

theorem Core.plainFx_rti (c : Core) (len : Nat) : c.plainFx len (.rti) =
    ({ act := .rti } : Fx) := rfl

theorem Core.plainFx_rtt (c : Core) (len : Nat) : c.plainFx len (.rtt) =
    ({ act := .rtt } : Fx) := rfl

theorem Core.plainFx_halt (c : Core) (len : Nat) : c.plainFx len (.halt) =
    ({ act := .halt } : Fx) := rfl

theorem Core.plainFx_vgate (c : Core) (len : Nat) : c.plainFx len (.vgate) =
    ({ act := .vgate } : Fx) := rfl

theorem Core.plainFx_sint (c : Core) (len : Nat) (n : BitVec 6) : c.plainFx len (.sint n) =
    ({ act := .sint n.toNat } : Fx) := rfl

theorem Core.plainFx_adda_imm (c : Core) (len : Nat) (g : Fin 16) (n : BitVec 10) : c.plainFx len (.adda g (.imm n)) =
    ({ g := [(g.val, c.getG g + simm 10 n.toNat)] } : Fx) := rfl

theorem Core.plainFx_adda_mod (c : Core) (len : Nat) (g : Fin 16) (m : Fin 8) : c.plainFx len (.adda g (.modifier m)) =
    ({ g := [(g.val, c.getG g + c.getM m)] } : Fx) := rfl

theorem Core.plainFx_movG (c : Core) (len : Nat) (g : Fin 16) (s : Fin 32) : c.plainFx len (.movG g s) =
    ({ g := [(g.val, c.getS s)] } : Fx) := rfl

theorem Core.plainFx_movS (c : Core) (len : Nat) (s : Fin 32) (g : Fin 16) : c.plainFx len (.movS s g) =
    ({ s := [(s.val, c.getG g)] } : Fx) := rfl

theorem Core.plainFx_movM (c : Core) (len : Nat) (m : Fin 8) (s : Fin 32) : c.plainFx len (.movM m s) =
    ({ m := [(m.val, c.getS s)] } : Fx) := rfl

theorem Core.plainFx_bqPoll (c : Core) (len : Nat) (d : Fin 32) (t : Fin 16) : c.plainFx len (.bqPoll d t) =
    ({ s := [(d.val, match Tbl.get TagState.free c.tags t with | .free => 0 | .busy => 1 | .done _ _ => 2)] } : Fx) := rfl

theorem Core.plainFx_bqWait (c : Core) (len : Nat) (d : Fin 32) (t : Fin 16) : c.plainFx len (.bqWait d t) =
    (match Tbl.get TagState.free c.tags t with
    | .done st _ => { s := [(d.val, st)], act := .freeTag t }
    | _ => { s := [(d.val, 0)] } : Fx) := rfl

theorem Core.plainFx_bqStat (c : Core) (len : Nat) (d : Fin 32) (t : Fin 16) : c.plainFx len (.bqStat d t) =
    (match Tbl.get TagState.free c.tags t with
    | .done st _ => { s := [(d.val, st)], act := .freeTag t }
    | _ => { s := [(d.val, 0)] } : Fx) := rfl

theorem Core.plainFx_bqIssue (c : Core) (len : Nat) (t : Fin 16) (s1 : Fin 32) (s2 : Fin 32) : c.plainFx len (.bqIssue t s1 s2) =
    ({ act := .issueBq t (c.windowVa (c.getS s1)) (c.getS s2) } : Fx) := rfl

theorem Core.plainFx_synSig (c : Core) (len : Nat) (a : Fin 32) (b : Fin 32) : c.plainFx len (.synSig a b) =
    ({ act := .signal (c.getS a) (c.pair b) } : Fx) := rfl

theorem Core.plainFx_synArm (c : Core) (len : Nat) (a : Fin 32) (b : Fin 32) : c.plainFx len (.synArm a b) =
    ({ act := .arm (c.getS a) (c.pair b) } : Fx) := rfl

theorem Core.plainFx_macr (c : Core) (len : Nat) (op : MacOp) (d : Fin 4) (a : Fin 32) (b : Fin 32) : c.plainFx len (.macr op d a b) =
    ({ a := [(d.val, macEval op (accWidth c.dsp24) (c.getA d) (sigOperand c.dsp24 (c.getS a)) (sigOperand c.dsp24 (c.getS b)))] } : Fx) := rfl

theorem Core.plainFx_satA (c : Core) (len : Nat) (d : Fin 32) (a : Fin 4) (n : BitVec 5) : c.plainFx len (.satA d a n) =
    ({ s := [(d.val, toWord (satInt (opWidth c.dsp24) (roundShift (c.getA a) n.toNat)))] } : Fx) := rfl

theorem Core.plainFx_movA (c : Core) (len : Nat) (a : Fin 4) (s : Fin 32) : c.plainFx len (.movA a s) =
    ({ a := [(a.val, (c.getS s).toInt)] } : Fx) := rfl

theorem Core.plainFx_accAdd (c : Core) (len : Nat) (sub : Bool) (n : Fin 4) (m : Fin 4) : c.plainFx len (.accAdd sub n m) =
    ({ a := [(n.val, satInt (accWidth c.dsp24) (if sub then c.getA n - c.getA m else c.getA n + c.getA m))] } : Fx) := rfl

theorem Core.plainFx_shla (c : Core) (len : Nat) (a : Fin 4) (n : BitVec 6) : c.plainFx len (.shla a n) =
    ({ a := [(a.val, shlaEval (accWidth c.dsp24) (c.getA a) (signed 6 n.toNat))] } : Fx) := rfl

theorem Core.plainFx_clr (c : Core) (len : Nat) (a : Fin 4) : c.plainFx len (.clr a) =
    ({ a := [(a.val, 0)] } : Fx) := rfl

theorem Core.plainFx_vop (c : Core) (len : Nat) (op : VecOp) (d : Fin 32) (a : Fin 32) (b : Fin 32) : c.plainFx len (.vop op d a b) =
    ({ v := [(d.val, vecEval op (c.getV a) (c.getV b))] } : Fx) := rfl

theorem Core.plainFx_vopMasked (c : Core) (len : Nat) (op : VecOp) (d : Fin 32) (b : Fin 32) (k : Fin 8) (z : Bool) : c.plainFx len (.vopMasked op d b k z) =
    ({ v := [(d.val, vecMasked op (c.getV d) (c.getV b) (c.getK k) z)] } : Fx) := rfl

theorem Core.plainFx_vmovMasked (c : Core) (len : Nat) (d : Fin 32) (b : Fin 32) (k : Fin 8) (z : Bool) : c.plainFx len (.vmovMasked d b k z) =
    ({ v := [(d.val, vmovMaskedEval (c.getV d) (c.getV b) (c.getK k) z)] } : Fx) := rfl

theorem Core.plainFx_vmov (c : Core) (len : Nat) (d : Fin 32) (a : Fin 32) : c.plainFx len (.vmov d a) =
    ({ v := [(d.val, c.getV a)] } : Fx) := rfl

theorem Core.plainFx_vshift (c : Core) (len : Nat) (op : VShiftOp) (d : Fin 32) (a : Fin 32) (n : BitVec 4) : c.plainFx len (.vshift op d a n) =
    ({ v := [(d.val, vshiftEval op (c.getV a) n.toNat)] } : Fx) := rfl

theorem Core.plainFx_vmac (c : Core) (len : Nat) (op : MacOp) (w : Fin 4) (a : Fin 32) (b : Fin 32) : c.plainFx len (.vmac op w a b) =
    ({ w := [(w.val, vmacEval op (c.getW w) (c.getV a) (c.getV b))] } : Fx) := rfl

theorem Core.plainFx_vclr (c : Core) (len : Nat) (w : Fin 4) : c.plainFx len (.vclr w) =
    ({ w := [(w.val, 0)] } : Fx) := rfl

theorem Core.plainFx_vnarrow (c : Core) (len : Nat) (d : Fin 32) (w : Fin 4) (n : BitVec 5) : c.plainFx len (.vnarrow d w n) =
    ({ v := [(d.val, vnarrowEval (c.getW w) n.toNat)] } : Fx) := rfl

theorem Core.plainFx_vcmp (c : Core) (len : Nat) (op : VCmpOp) (k : Fin 8) (a : Fin 32) (b : Fin 32) : c.plainFx len (.vcmp op k a b) =
    ({ k := [(k.val, vcmpEval op (c.getV a) (c.getV b))] } : Fx) := rfl

theorem Core.plainFx_kand (c : Core) (len : Nat) (kd : Fin 8) (ka : Fin 8) (kb : Fin 8) : c.plainFx len (.kand kd ka kb) =
    ({ k := [(kd.val, c.getK ka &&& c.getK kb)] } : Fx) := rfl

theorem Core.plainFx_kor (c : Core) (len : Nat) (kd : Fin 8) (ka : Fin 8) (kb : Fin 8) : c.plainFx len (.kor kd ka kb) =
    ({ k := [(kd.val, c.getK ka ||| c.getK kb)] } : Fx) := rfl

theorem Core.plainFx_knot (c : Core) (len : Nat) (kd : Fin 8) (ka : Fin 8) : c.plainFx len (.knot kd ka) =
    ({ k := [(kd.val, ~~~(c.getK ka))] } : Fx) := rfl

theorem Core.plainFx_vbcast (c : Core) (len : Nat) (d : Fin 32) (a : Fin 32) : c.plainFx len (.vbcast d a) =
    ({ v := [(d.val, ofLanes (fun _ => (c.getS a).toNat))] } : Fx) := rfl

theorem Core.plainFx_vext (c : Core) (len : Nat) (d : Fin 32) (a : Fin 32) (b : Fin 32) : c.plainFx len (.vext d a b) =
    ({ s := [(d.val, toWord (laneInt (c.getV a) (bits (c.getS b) 0 6)))] } : Fx) := rfl

end Sys2Proof.Machine
end

