-- ==== Sys2Proof/Tests/Slice0.lean ====
section
/-! SUPPORT. Small states and operands that meet the hypotheses of the statements of Certificates/Slice0, clause by clause, and tests of
one step or one operation each. The theorem `witness_X` belongs to the statement `X`, or to the part `Claims.X` of a statement that
joins several. -/

namespace Sys2Proof.Tests

open Sys2Proof.Machine Sys2Proof.Safety Sys2Proof.Claims

-- One theorem after another: each waits for the ones before it, and a hundred waiting threads take too much memory.
set_option Elab.async false

/-! ### Small states -/

/-- A function whose memory space, bus mastering and MSI-X are enabled. -/
def openFunc : Func := { busMaster := true, memSpace := true, msixOn := true }

/-- A module in READY: link up, functions 0 and 2 open. -/
def readyHw : Hw :=
  let h : Hw := { Hw.reset with
    sys.state := .ready, sys.booting := false, sys.everReady := true, sys.stewardOn := true, sys.armedTrips := true
    pci.up := true, pci.crs := false, pci.trainOn := true, pci.vfEnable := true, pci.numVfs := 4 }
  (h.setFunc 0 openFunc).setFunc 2 openFunc

/-- The state of a hardware with no command waiting. -/
def st (h : Hw) : State := ⟨h, []⟩

/-- Core 3, the last instruction of its bundle, unguarded: long and short. -/
def long3 : At := ⟨3, 0, false, true, true⟩
def short3 : At := ⟨3, 0, false, true, false⟩

/-- A core in a job of slot 5 at the bundle of address 5. -/
def jobCore3 : Core := { run := .job, slot := 5, job := 7, cores := 2, pc := 5 }

/-- The ready module whose core 3 is this one. -/
def withCore (k : Core) : Hw := readyHw.setCore 3 k

/-! ### Fintoic statements: states that meet their hypotheses -/

/-- The last bundles that program memory holds: a long one ends at 65536, and so does a short one. -/
def lastLong : Hw := withCore { jobCore3 with pc := 65534, p := [(1, true)] }
def lastShort : Hw := withCore { jobCore3 with pc := 65535 }

theorem witness_scalarResultWritten :
    (∀ r ∈ scalarRows (lastLong.core 3) { long3 with guard := 1 } 31 30 0 511 31, ready lastLong { long3 with guard := 1 } r.2.1 = true) ∧
    (∀ r ∈ scalarRows (lastShort.core 3) short3 31 30 0 511 31, r.2.1 = false → ready lastShort short3 r.2.1 = true) := by
  decide +kernel

theorem witness_predicateResultWritten :
    (∀ r ∈ predicateRows (lastLong.core 3) long3 0 7 1 31 0 63, ready lastLong long3 r.2.1 = true) ∧
    (∀ r ∈ predicateRows (lastShort.core 3) short3 0 7 1 31 0 63, r.2.1 = false → ready lastShort short3 r.2.1 = true) := by
  decide +kernel

theorem witness_branchTaken :
    (∀ r ∈ branchRows (lastLong.core 3) long3 0x2000 31, ready lastLong long3 r.2.1 = true) ∧
    (∀ r ∈ branchRows (lastShort.core 3) short3 0x20 31, r.2.1 = false → ready lastShort short3 r.2.1 = true) := by
  decide +kernel

theorem witness_loopEndRule : jobCore3.late = [] := rfl

/-- Counts 31 and 0 in registers and immediates; the greatest body, 127 parcels. -/
theorem witness_loopRegistersSet :
    let h := withCore { jobCore3 with s := [(2, 0xFFFFFFFF)] }
    (∀ r ∈ loopRows (h.core 3) long3 1 2 31 127, r.2 ≠ 0 ∧ (127 : BitVec 8).toNat < 128 ∧ ready h long3 true = true) ∧
    (∀ r ∈ loopRows (h.core 3) long3 0 3 0 0, r.2 = 0 ∧ (0 : BitVec 8).toNat < 128 ∧ ready h long3 true = true) ∧
    ready lastShort short3 false = true := by
  decide +kernel

theorem witness_loopRegisterMoves : (5 : BitVec 3).toNat < 6 ∧ (lastLong.core 3).late = [] ∧ ready lastLong long3 true = true := by
  decide +kernel

theorem witness_controlRegisterMoves :
    let h := withCore { jobCore3 with ctlNew := some 3 }
    ready lastLong long3 true = true ∧ (lastLong.core 3).ctlNew = none ∧ ready h long3 true = true ∧ (h.core 3).ctlNew = some 3 := by
  decide +kernel

theorem witness_addressRegisterMoves :
    (∀ r ∈ addressRows (lastLong.core 3) long3 15 7 31 0x200, ready lastLong long3 r.2.1 = true) := by
  decide +kernel

theorem witness_SynchronisingInstructions :
    let h := withCore { jobCore3 with ctlNew := some 1, winNew := [(0, 1), (3, 2)] }
    ready lastShort short3 false = true ∧ (lastShort.core 3).ctlNew = none ∧
    ready h short3 false = true ∧ (h.core 3).ctlNew = some 1 ∧ ((h.core 3).winNew.map (·.1)).Nodup := by
  decide +kernel

/-- A core with a handler: in level 0 with INTRAP 0, an unaligned g0, an even `syn.arm` register and no other reason to trap. -/
def handled : Core := { jobCore3 with cr := [(7, 0x100)], g := [(0, 1)], s := [(1, 0x80000001)] }

theorem witness_trapEntersHandler :
    let h := withCore handled
    let d := withCore { handled with run := .diag }
    let b := withCore { handled with tags := [(4, .busy)] }
    let rows := fun (h : Hw) (loc : At) => trapRows (h.core 3) loc 63 1 0 4 1 31 1 5 128 6
    let meets := fun (h : Hw) (loc : At) (n : Nat) => ((rows h loc)[n]?).any (fun x =>
      ready h loc x.2.1 && x.2.2.1 && decide (h.wml.outs = []) && hasHandler (h.core 3) && pendingOk (h.core 3))
    (∀ n ∈ [0, 1, 2], meets h short3 n = true) ∧ (∀ n ∈ [3, 4, 5, 6, 7, 8, 9, 10, 11, 12, 13, 14, 16], meets h long3 n = true) ∧
    (∀ n ∈ [12, 14], meets h short3 n = true) ∧ meets b long3 15 = true ∧ meets d short3 17 = true ∧ meets d long3 18 = true := by
  decide +kernel

theorem witness_unhandledTrapFaultsContext :
    let h := (withCore jobCore3).setCtx 5 { state := .idle }
    let g := (withCore { handled with cr := [(1, 0x10), (7, 0x100)] }).setCtx 5 { state := .live }
    ready h short3 false = true ∧ hasHandler (h.core 3) = false ∧ (h.core 3).run = .job ∧ (h.ctx (h.core 3).slot).state = .idle ∧
    ready g short3 false = true ∧ hasHandler (g.core 3) = false ∧ (g.core 3).run = .job ∧ (g.ctx (g.core 3).slot).state = .live := by
  decide +kernel

theorem witness_ReturnsRestoreStatus :
    let t := withCore { jobCore3 with cr := [(1, 0x10)] }
    let n := withCore { jobCore3 with cr := [(1, 0x04)] }
    let f := withCore { jobCore3 with cr := [(1, 0x08)], shadow := { s := [(24, 1), (31, 2)], p := [(1, true)], g := [(15, 3)] } }
    (ready t short3 false = true ∧ (t.core 3).late = [] ∧ ((t.core 3).getCr 1).getLsbD 4 = true ∧ ((t.core 3).getCr 18).getLsbD 7 = false) ∧
    (ready n short3 false = true ∧ (n.core 3).late = [] ∧ ((n.core 3).getCr 1).extractLsb' 2 2 = 1 ∧ ((n.core 3).getCr 14).getLsbD 7 = false) ∧
    (ready f short3 false = true ∧ (f.core 3).late = [] ∧ ((f.core 3).getCr 1).extractLsb' 2 2 = 2 ∧ ((f.core 3).getCr 16).getLsbD 7 = false ∧
      shadowOk (f.core 3) = true) := by
  decide +kernel

theorem witness_interruptEntry :
    let base : Core := { jobCore3 with cr := [(1, 0x3), (2, 0x7F), (3, 0x40)] }
    let n := withCore base
    let f := withCore { base with cr := [(1, 0x7), (2, 0x7F), (3, 0x01), (4, 0x01)] }
    let wants := fun (h : Hw) (fast : Bool) => (List.range 7).any (fun i =>
      ((h.core 3).getCr 3).getLsbD i && ((h.core 3).getCr 2).getLsbD i && (((h.core 3).getCr 4).getLsbD i == fast))
    let common := fun (h : Hw) => calm h && decide (h.wml.outs = []) && (h.core 3).running && decide ((h.core 3).slots = []) &&
      decide ((h.core 3).vrun = none) && decide ((h.core 3).late = []) && pendingOk (h.core 3) && !((h.core 3).getCr 1).getLsbD 4
    (common n = true ∧ wants n false = true ∧ ((n.core 3).getCr 1).getLsbD 0 = true ∧ ((n.core 3).getCr 1).extractLsb' 2 2 = 0 ∧
      wants n true = false) ∧
    (common f = true ∧ wants f true = true ∧ ((f.core 3).getCr 1).getLsbD 1 = true ∧ ((f.core 3).getCr 1).extractLsb' 2 2 = 1 ∧
      shadowOk (f.core 3) = true) := by
  decide +kernel

/-- Cores 3 and 4 hold ranks 0 and 1 of the job: `sint` 2 is beyond its cores, `sint` 1 reaches core 4. -/
theorem witness_softInterrupt :
    let h := (withCore jobCore3).setCore 4 { jobCore3 with rank := 1 }
    let k := h.core 3
    ready h short3 false = true ∧ k.run = .job ∧ k.cores ≤ (2 : BitVec 6).toNat ∧
    ((1 : BitVec 6).toNat < k.cores ∧ (h.core 4).run = .job ∧ (h.core 4).slot = k.slot ∧ (h.core 4).job = k.job ∧ (h.core 4).half = k.half ∧
      (h.core 4).rank = (1 : BitVec 6).toNat ∧ ∀ y : Fin 18, y ≠ 4 → ¬ ((h.core y).run = .job ∧ (h.core y).slot = k.slot ∧
        (h.core y).job = k.job ∧ (h.core y).half = k.half ∧ (h.core y).rank = (1 : BitVec 6).toNat)) := by
  decide +kernel

/-- A job of cores 3 and 4. -/
def admit34 : Admit := ⟨5, 7, 0, 0, [3, 4], [], [], [], false, 0⟩

theorem witness_HaltEndsRun :
    let b := withCore { jobCore3 with tags := [(15, .busy)] }
    let j := { (withCore jobCore3).setCore 4 { jobCore3 with rank := 1 } with col.plan.jobs := [admit34] }
    let d := withCore { jobCore3 with run := .diag, tags := [(2, .done 0x40000000 true)] }
    (ready b short3 false = true ∧ ∃ e ∈ (b.core 3).tags, e.2 = TagState.busy) ∧
    (ready j short3 false = true ∧ (∀ e ∈ (j.core 3).tags, e.2 ≠ TagState.busy) ∧ j.wml.outs = [] ∧ (j.core 3).run = .job ∧
      ∃ a ∈ j.col.plan.jobs, a.slot = (j.core 3).slot ∧ a.job = (j.core 3).job ∧
        (∀ a' ∈ j.col.plan.jobs, a'.slot = (j.core 3).slot → a'.job = (j.core 3).job → a' = a) ∧
        ∃ x ∈ a.cores ++ a.cores2, x ≠ 3 ∧ (j.core x).run = .job ∧ (j.core x).slot = (j.core 3).slot ∧ (j.core x).job = (j.core 3).job) ∧
    (ready d short3 false = true ∧ (∀ e ∈ (d.core 3).tags, e.2 ≠ TagState.busy) ∧ (d.core 3).run = .diag) := by
  decide +kernel

/-- No tag of these cores is DONE with an error that counts: one has no tag, the other's error is quiet. -/
theorem witness_HaltEndsRun_quiet (n : Fin 16) (s : Word) (quiet : Bool) :
    (Tbl.get TagState.free jobCore3.tags n = .done s quiet → s.getLsbD 30 = false ∨ quiet = true) ∧
    (Tbl.get TagState.free ([(2, .done 0x40000000 true)] : Tbl TagState) n = .done s quiet → s.getLsbD 30 = false ∨ quiet = true) := by
  constructor
  · intro h
    cases h
  · intro h
    by_cases hn : n.val = 2
    · simp [Tbl.get, Tbl.find, hn] at h
      exact .inr (h.2 ▸ rfl)
    · simp [Tbl.get, Tbl.find, hn] at h

theorem witness_debugControlsCore :
    let open_ := fun (h : Hw) => calm h && decide (h.sys.state = .ready) && decide (h.cpc.retired = []) && h.reaches .pf (0xE000 + 0x10 * 3)
    let i := withCore { dbgPc := 65534, pm := [(65534, 0x1000)] }
    let d := withCore { jobCore3 with run := .diag }
    (open_ i = true ∧ (i.core 3).running = false) ∧ (open_ d = true ∧ (d.core 3).run = .diag ∧ (d.core 3).vrun = none) ∧
    ((i.core 3).vrun = none ∧ Tbl.get 0 (i.core 3).pm (i.core 3).dbgPc.toNat = 0x1000 ∧ (i.core 3).dbgPc.toNat < 65535 ∧
      clean i 3 (0x40000 + 2 * (i.core 3).dbgPc.toNat) 2 = true ∧ (i.core 3).late = [] ∧ (i.core 3).lc0 = 0 ∧ (i.core 3).lc1 = 0) := by
  decide +kernel

theorem witness_coreEvents :
    let w := withCore { jobCore3 with waking := true, ran := true, cr := [(24, 9), (26, 9)] }
    let u : Hw := { readyHw with col.waking := [21], now := 352 }
    (calm w = true ∧ (w.core 3).waking = true) ∧
    ((w.core 3).running = true ∧ (w.core 3).ran = true ∧ (w.core 3).getCr 26 = (w.core 3).getCr 24 ∧ w.ticksRun = false) ∧
    (calm u = true ∧ u.col.waking.contains 21 = true ∧ u.frm.lastTick + 352 ≤ u.now) := by
  decide +kernel

theorem witness_guardsAndBundles :
    let i : Instr := .vaddH { long3 with guard := 7 } 1 2 3
    let j : Instr := .add { long3 with stop := false } 1 2 3
    let h := withCore jobCore3
    let g := withCore { jobCore3 with pc := 65530, slots := [slotAt long3 .nop 64, slotAt long3 .nop 64] }
    (issued i = some ({ long3 with guard := 7 }, .vop .addH 1 2 3, 64) ∧ opLegal (.vop .addH 1 2 3) = true ∧ vectorOn h 3 = true ∧
      atBoundary h { long3 with guard := 7 } true = true ∧ guardHolds (h.core 3) { long3 with guard := 7 } true = false) ∧
    (issued j = some ({ long3 with stop := false }, .alu .add 1 2 3, 64) ∧ opLegal (.alu .add 1 2 3) = true ∧
      unitOf (.alu .add 1 2 3) ≠ .v ∧ calm g = true ∧ (g.core 3).running = true ∧ (g.core 3).vrun = none ∧ (g.core 3).slots.length < 3 ∧
      (g.core 3).pc.toNat + lengthOf ((g.core 3).slots ++ [slotAt { long3 with stop := false } (.alu .add 1 2 3) 64]) ≤ 65536) := by
  decide +kernel

theorem witness_malformedBundleTraps :
    let meets := fun (h : Hw) (i : Instr) (op : CoreOp) (y : Slot) => decide (issued i = some (long3, op, 64)) && calm h &&
      decide (h.wml.outs = []) && (h.core 3).running && decide ((h.core 3).vrun = none) && hasHandler (h.core 3) && pendingOk (h.core 3) &&
      decide ((h.core 3).slots = [y]) && decide ((h.core 3).pc.toNat + lengthOf [y, slotAt long3 op 64] ≤ 65536) &&
      clean h 3 (0x40000 + 2 * (h.core 3).pc.toNat) (2 * lengthOf [y, slotAt long3 op 64])
    let y : Slot := ⟨0, false, true, .alu .add 1 2 3, 64⟩
    let z : Slot := ⟨0, false, true, .movcR 4 31, 64⟩
    let h := withCore { handled with pc := 65532, slots := [y] }
    let g := withCore { handled with pc := 65532, slots := [z] }
    (meets g (.sub long3 5 6 7) (.alu .sub 5 6 7) z = true ∧ opLegal z.op = false) ∧
    (meets h (.movcR long3 4 31) (.movcR 4 31) y = true ∧ opLegal (.movcR 4 31) = false) ∧
    (meets h (.sub long3 5 6 7) (.alu .sub 5 6 7) y = true ∧ opLegal y.op = true ∧ opLegal (.alu .sub 5 6 7) = true ∧
      unitOf y.op = unitOf (.alu .sub 5 6 7)) ∧
    (meets h (.ldB long3 1 (.plain 0)) (.ld .b 1 (.plain 0)) y = true ∧ opLegal y.op = true ∧ opLegal (.ld .b 1 (.plain 0)) = true ∧
      ∃ d ∈ destsOf y.op, d ∈ destsOf (.ld .b 1 (.plain 0))) := by
  decide +kernel


/-! ### Loads, stores, tags, counters, signal and vector statements -/

/-- Addresses at the last bytes of Y memory and at a post form's next one. -/
def addressed : Core := { jobCore3 with g := [(2, 0x3FFFC), (12, 0x1FFFE)], m := [(2, 4), (3, 1)] }

theorem witness_loadReadsOwnMemory :
    let h := withCore addressed
    let meets := fun (loc : At) (m : AddrForm) (l : List Nat) => l.all (fun n => ((loadRows loc 31 m)[n]?).any (fun x =>
      ready h loc x.2.1 && ownAccess h 3 (formAddr (h.core 3) x.2.2.1) x.2.2.2.1))
    meets long3 (.plain 2) [0, 1, 2, 3, 4] = true ∧ meets long3 (.post 12 2) [0, 1, 2, 3] = true ∧ meets short3 (.post 2 0) [4] = true ∧
    meets long3 (.indexed 12 3) [0, 1] = true ∧ meets long3 (.post 2 0) [4] = true := by
  decide +kernel

theorem witness_storeWritesOwnMemory :
    let h := withCore addressed
    let meets := fun (loc : At) (m : AddrForm) (l : List Nat) => l.all (fun n => ((storeRows loc 31 m)[n]?).any (fun x =>
      ready h loc x.2.1 && ownAccess h 3 (formAddr (h.core 3) x.2.2.1) x.2.2.2))
    meets long3 (.plain 2) [0, 1, 2] = true ∧ meets long3 (.post 12 2) [0, 1] = true ∧ meets short3 (.post 2 0) [2] = true ∧
    meets long3 (.indexed 12 3) [0] = true ∧ meets long3 (.post 2 0) [2] = true := by
  decide +kernel

/-- Tag 15 FREE, BUSY, DONE, and DONE with an error that FTC_CTL keeps quiet; the command at the greatest aligned window address. -/
theorem witness_bastaefTagInstructions :
    let f := withCore { jobCore3 with s := [(31, 0xFFFFFFC0)] }
    let b := withCore { jobCore3 with tags := [(15, .busy)] }
    let d := withCore { jobCore3 with tags := [(15, .done 0x80000000 false)], s := [(31, 0x80000000)] }
    let q := withCore { jobCore3 with tags := [(15, .done 0xC1000000 true)] }
    (∀ h ∈ [f, d], ready h long3 true = true ∧ (h.core 3).run = .job ∧ Tbl.get TagState.free (h.core 3).tags 15 ≠ .busy ∧
      ((h.core 3).getS 31).msb = true ∧ ((h.core 3).getS 31).toNat % 64 = 0) ∧
    Tbl.get TagState.free (f.core 3).tags 15 = .free ∧
    (ready b long3 true = true ∧ Tbl.get TagState.free (b.core 3).tags 15 = .busy) ∧
    (Tbl.get TagState.free (d.core 3).tags 15 = .done 0x80000000 false ∧ (0x80000000 : Word).getLsbD 30 = false) ∧
    (ready q long3 true = true ∧ Tbl.get TagState.free (q.core 3).tags 15 = .done 0xC1000000 true) := by
  decide +kernel

/-- Counter 16383 of the core's context, at 5: an increment up to the greatest sum, a target reached and one that is not. -/
theorem witness_counterInstructions :
    let k : Core := { jobCore3 with s := [(1, 16383), (2, 0xFFFFFFFA), (3, 0xFFFFFFFF), (4, 5)] }
    let h := (withCore k).setCounter 16383 ⟨5, .owned, 5, false⟩
    ready h long3 true = true ∧ (h.core 3).run = .job ∧ (h.core 3).getS 1 = BitVec.ofNat 32 16383 ∧ (h.counter 16383).state = .owned ∧
    (h.counter 16383).slot = (h.core 3).slot ∧ (h.core 3).waits = [] ∧ (h.core 3).synWait = none ∧ (h.core 3).synEnded = false ∧
    (h.counter 16383).value.toNat + (pairOf (h.core 3) 2).toNat < 2 ^ 64 ∧
    ((4 : Fin 32).val % 2 = 0 ∧ pairOf (h.core 3) 4 ≤ (h.counter 16383).value) ∧
    ((2 : Fin 32).val % 2 = 0 ∧ (h.counter 16383).value < pairOf (h.core 3) 2) := by
  decide +kernel

theorem witness_signalResultWritten :
    (∀ x ∈ signalRows (lastLong.core 3) long3 0 3 0 31 0x20, ready lastLong long3 x.2.1 = true) ∧
    (∀ x ∈ signalRows (lastShort.core 3) short3 3 0 31 0 31, x.2.1 = false → ready lastShort short3 x.2.1 = true) := by
  decide +kernel

theorem witness_saturateRounds : ready lastLong long3 true = true := by decide +kernel

/-- Operands at the last words of X and Y memory, in 16-bit and in 24-bit mode. -/
theorem witness_dualFetchResult :
    let x : Dual := { acc := 3, src := .xy, gx := 2, gy := 4, mx := 0, my := 3 }
    let h := withCore { jobCore3 with g := [(2, 0x1FFFE), (12, 0x1FFFE)] }
    let w := withCore { jobCore3 with cr := [(0, 2)], g := [(2, 0x1FFFC), (12, 0x1FFFC)] }
    let meets := fun (h : Hw) => ready h long3 true &&
      (let n := if ((h.core 3).getCr 0).getLsbD 1 then 4 else 2
       decide (((h.core 3).getG 2).toNat % n = 0) && decide (((h.core 3).getG 12).toNat % n = 0) &&
        clean h 3 (((h.core 3).getG 2).toNat % 0x20000) n && clean h 3 (((h.core 3).getG 12).toNat % 0x20000 + 0x20000) n)
    x.src = .xy ∧ meets h = true ∧ meets w = true := by
  decide +kernel

theorem witness_vectorLanesWritten : ready lastLong long3 true = true ∧ vectorOn lastLong 3 = true := by decide +kernel

theorem witness_vectorRegistersWritten :
    vectorOn lastLong 3 = true ∧ ready lastLong long3 true = true ∧
    (∀ r ∈ wholeRows (lastLong.core 3) long3 31 0 30 7 0 6, ready lastLong long3 r.2.1 = true) := by
  decide +kernel

theorem witness_ReductionResult :
    ready lastLong long3 true = true ∧ vectorOn lastLong 3 = true ∧ (30 : Fin 32).val % 2 = 0 ∧ (31 : Fin 32) ≠ 30 ∧
    lane16 ((lastLong.core 3).getV 31) 1 = 0 := by
  decide +kernel

/-- Elements up to the last halfword of Y memory, and index lanes of which two are equal. -/
def vectored : Core := { jobCore3 with g := [(2, 0x3FF80), (3, 0x2FFFE)], v := [(7, 0x0003000300010000)] }

theorem witness_vectorLoadsFillLanes :
    let h := withCore vectored
    ready h long3 true = true ∧ vectorOn h 3 = true ∧ ownElements h 3 (strideAddr (formAddr (h.core 3) (.post 2 0))) = true ∧
    ownElements h 3 (indexAddr ((h.core 3).getG 3) ((h.core 3).getV 7)) = true := by
  decide +kernel

theorem witness_vectorStoresWriteElements :
    let h := withCore vectored
    ready h long3 true = true ∧ vectorOn h 3 = true ∧ ownElements h 3 (strideAddr (formAddr (h.core 3) (.plain 2))) = true ∧
    ownElements h 3 (indexAddr ((h.core 3).getG 3) ((h.core 3).getV 7)) = true := by
  decide +kernel

/-- Stopped after no element, and after 63, in restart and in resume mode. -/
theorem witness_InterruptedVectorInstruction :
    ∀ m ∈ [(0 : Word), 1],
      let h := withCore { jobCore3 with cr := [(0, m), (1, 1), (2, 0x7F), (3, 0x40)] }
      (0 < 64 ∧ 63 < 64) ∧ ready h long3 true = true ∧ vectorOn h 3 = true ∧ h.wml.outs = [] ∧ pendingOk (h.core 3) = true ∧
      ((h.core 3).getCr 1).getLsbD 4 = false ∧ ((h.core 3).getCr 1).getLsbD 0 = true ∧ ((h.core 3).getCr 1).extractLsb' 2 2 = 0 ∧
      (h.core 3).getCr 3 &&& (h.core 3).getCr 2 &&& ~~~ (h.core 3).getCr 4 &&& 0x7F ≠ 0 ∧
      (h.core 3).getCr 3 &&& (h.core 3).getCr 2 &&& (h.core 3).getCr 4 &&& 0x7F = 0 := by
  intro m hm
  simp only [List.mem_cons, List.not_mem_nil, or_false] at hm
  rcases hm with rfl | rfl <;> decide +kernel

/-! ### The block, power and boot, the frame logic -/

theorem witness_StepRunsFrontCommand :
    (State.mk readyHw [.heartbeat, .supplyLoss]).pending = .heartbeat :: [.supplyLoss] ∧ State.reset.pending = [] := ⟨rfl, rfl⟩

theorem witness_MemoryForm : Mem.wf [(0, 1), (5, 255)] = true ∧ memoryOk { readyHw with mem.cells := [(0x10002FFFFFF, 1)] } = true := by
  decide +kernel

theorem witness_FintoicDecodeEncode :
    slotFits ⟨3, true, true, .imm .movi 4 0xFFFFFFFF, 64⟩ = true ∧ slotFits ⟨1, false, false, .alu .add 3 3 5, 64⟩ = true ∧
    decodeInstr 0b01100010011101 0 = some ⟨1, false, false, .alu .add 3 3 5, 64⟩ := by
  decide +kernel

/-- A module in KINDLING that is not booting, after one attempt or two. -/
def stuck (n : Nat) : Hw := { Hw.reset with sys.booting := false, sys.attempts := n }

/-- A module in recovery that has received its image of 4 bytes. -/
def recovering : Hw := { readyHw with sys.recovery := true, sys.rcvLen := 4, sys.rcvBytes := [1, 2, 3, 4] }

theorem witness_PowerAndBoot :
    let off : Hw := { Hw.reset with sys.state := .off }
    let armed : Hw := { Hw.reset with sys.stewardOn := true }
    let filling : Hw := { readyHw with sys.rcvLen := 8, sys.rcvBytes := [1, 2, 3, 4] }
    (calm off = true ∧ off.sys.state = .off ∧ off.sys.unpowered = false) ∧
    (calm readyHw = true ∧ readyHw.sys.state ≠ .off ∧ readyHw.sys.lossSince = none) ∧
    (calm (stuck 1) = true ∧ (stuck 1).sys.state = .kindling ∧ (stuck 1).sys.booting = false ∧ (stuck 1).sys.attempts ≠ 0 ∧
      (stuck 1).sys.unpowered = false) ∧
    ((stuck 2).sys.attempts = 2 ∧ (stuck 2).sys.state = .kindling ∧ (stuck 2).sys.booting = false ∧ (stuck 2).sys.unpowered = false) ∧
    (Hw.reset.sys.state = .kindling ∧ Hw.reset.sys.booting = true ∧ Hw.reset.sys.stewardOn = false ∧ Hw.reset.sys.recovery = false ∧
      Hw.reset.sys.fuseFail = false ∧ Hw.reset.sys.activeB = false ∧ Hw.reset.sys.slotA.present = true ∧
      Hw.reset.sys.slotA.authentic = true ∧ Hw.reset.sys.rollback ≤ Hw.reset.sys.slotA.security ∧ calm Hw.reset = true) ∧
    (armed.sys.state = .kindling ∧ armed.sys.stewardOn = true) ∧
    (calm recovering = true ∧ recovering.sys.recovery = true ∧ recovering.sys.fuseFail = false ∧ recovering.sys.rcvErr = false ∧
      recovering.sys.rcvLen ≠ 0 ∧ recovering.sys.rcvBytes.length = recovering.sys.rcvLen) ∧
    (sysOpen readyHw = true ∧ readyHw.sys.fuseFail = false ∧ bits (0xFF800000 : Word) 0 24 ≠ 0 ∧ bits (0xFF800000 : Word) 0 24 ≤ 8388608) ∧
    (sysOpen filling = true ∧ filling.sys.rcvBytes.length + 4 ≤ filling.sys.rcvLen) ∧
    (readyHw.sys.state ≠ .off ∧ readyHw.web.counting = false) ∧
    (readyHw.sys.stewardOn = true ∧ readyHw.sys.state ≠ .kindling) := by
  decide +kernel

/-- What an image's facts are is free; one of the two clauses about a received image applies whatever they are. -/
theorem witness_PowerAndBoot_image (x : ImageFacts) (n : Nat) :
    (x.authentic = true ∧ n ≤ x.security) ∨ (x.authentic = false ∨ x.security < n) := by
  cases x.authentic <;> simp; omega

theorem witness_HardResets :
    let a : Hw := { readyHw with sys.hardArm := some 1000, now := 1000 }
    calm a = true ∧ sysOpen a = true ∧ a.sys.hardArm = some 1000 ∧ a.now ≤ 1000 ∧
    (calm readyHw = true ∧ sysOpen readyHw = true ∧ readyHw.sys.hardArm = none ∧ bit (readyHw.reg 8) 0 = false ∧
      readyHw.sys.stewardOn = true) := by
  decide +kernel

/-- A TRIPPED module, acknowledged, whose causes have gone. -/
def trippedHw : Hw := { readyHw with sys.state := .tripped, sys.tripCause := 7, sys.acked := true, sys.clearSince := [some 5, some 6, some 7] }

theorem witness_tripsAndEmber :
    let h : Hw := { readyHw with sys.state := .run, sys.hotSince := some 0, sys.supplySince := some 0,
                                 col.history := List.replicate 3 60000000 }
    calm h = true ∧ h.sys.state = .run ∧ h.sys.armedTrips = true ∧ h.sys.hotSince.isSome = true ∧
    bits (h.reg 0xB004) 0 18 < (h.col.history.take 10000).sum / 1000 ∧ h.sys.supplySince.isSome = true ∧
    (calm trippedHw = true ∧ trippedHw.sys.state = .tripped ∧ sysOpen trippedHw = true ∧ trippedHw.sys.acked = true ∧
      trippedHw.sys.clearSince = [some 5, some 6, some 7]) := by
  decide +kernel

/-- A function ring with 16 slots, one of them published. -/
def liveRing : Ring := { live := true, sqBase := 0x10000, cqBase := 0x20000, sqTail := 1, seq := 7 }

/-- A one-slot packet. -/
def pkt (code : Nat) (hd : Word) (w : List Word) : Packet :=
  ⟨BitVec.ofNat 16 code, 1, 0, 0, 7, hd, 0, w ++ List.replicate (12 - w.length) 0⟩

theorem witness_emberEntryAndExit :
    let p := pkt 3 0 [2]
    let h := readyHw.setRing (.fn 0) { liveRing with exec := some ⟨p, .emberEntry⟩ }
    let g : Hw := { readyHw.setRing (.fn 0) { liveRing with exec := some ⟨p, .emberExit⟩ } with sys.state := .ember }
    (calm h = true ∧ h.wml.joined = false ∧ h.findExec .emberEntry = some (.fn 0, p) ∧ h.sys.state = .ready ∧ h.frm.running = false) ∧
    (calm g = true ∧ g.wml.joined = false ∧ g.findExec .emberExit = some (.fn 0, p)) := by
  decide +kernel

theorem witness_SamplesAccumulate :
    calm readyHw = true ∧ (List.replicate 24 9 : List Nat).length = 24 ∧ readyHw.col.meters.length = 24 ∧
    (List.replicate 64 (25 : BitVec 16)).length = 64 ∧ readyHw.ticksRun = false := by
  decide +kernel

/-- A running frame logic with its source `sel`, and a period and a limit that are equal. -/
def sourced (sel : Word) : Hw :=
  { readyHw with
    frm.running := true, frm.domainSeen := true, frm.lastTick := 400, frm.lastLen := 1000, frm.ticked := true, now := 500
    act := [(0x1004, sel), (0x100C, 3000), (0x1010, 2999), (0x1014, 5000)] }

theorem witness_TickSources :
    [3, 4, 5, 6].all (fun sel => calm (sourced sel) && (sourced sel).frm.running && decide ((sourced sel).frm.due = none)) = true ∧
    (sourceSel (sourced 4) = 4 ∧ (sourced 4).wml.sourceEvent = none ∧
      (sourced 4).frm.countFrom + bits ((sourced 4).actReg 0x100C) 0 30 ≤ stallTime (sourced 4)) ∧
    (sourceSel (sourced 3) = 3 ∧ (sourced 3).wml.sourceEvent = none ∧ 0 < bits ((sourced 3).actReg 0x100C) 0 30 ∧
      bits ((sourced 3).actReg 0x1010) 0 30 < bits ((sourced 3).actReg 0x100C) 0 30 ∧
      (sourced 3).now + bits ((sourced 3).actReg 0x100C) 0 30 ≤ stallTime (sourced 3) ∧ (sourced 3).ptp.freq = 0 ∧
      0 ≤ (sourced 3).ptp.timeFrac ∧ (sourced 3).ptp.timeFrac < 1000000000 ∧
      (sourced 3).ptp.time.toNat + bits ((sourced 3).actReg 0x100C) 0 30 < 2 ^ 64) ∧
    ((sourced 6).frm.waiting = false ∧ (sourced 6).frm.domainSeen = true ∨ sourceSel (sourced 6) ≠ 6) ∧ sourceSel (sourced 5) ≠ 6 ∧
    (sourceSel (sourced 6) = 6 ∧ (sourced 6).frm.waiting = false ∧ (sourced 6).frm.domainSeen = true ∧ (sourced 6).frm.lost = none ∧
      (sourced 6).frm.lastTick + 2 * (sourced 6).frm.lastLen ≤ stallTime (sourced 6)) := by
  decide +kernel

theorem witness_startAndStop :
    let staged : Hw := { readyHw with regs := [(0x1004, 4)] }
    let runs : Hw := { readyHw with frm.running := true }
    let waits : Hw := { readyHw with frm.running := true, frm.waiting := true }
    (calm staged = true ∧ sysOpen staged = true ∧ staged.frm.running = false ∧ bits (staged.reg 0x1004) 0 3 ≠ 0 ∧ staged.sys.state = .ready) ∧
    (bits (readyHw.reg 0x1004) 0 3 = 0 ∧ bit (readyHw.reg 8) 0 = false ∧ readyHw.frm.running = false) ∧
    (calm runs = true ∧ sysOpen runs = true ∧ runs.frm.running = true ∧ runs.frm.waiting = false ∧ bit (runs.reg 8) 0 = false) ∧
    (calm waits = true ∧ sysOpen waits = true ∧ waits.frm.running = true ∧ waits.frm.waiting = true) := by
  decide +kernel

theorem witness_tickAndTail :
    let d : Hw := { sourced 4 with frm.due := some (.stall, 5000) }
    let t : Hw := { (sourced 4) with ctxs := [(0, { state := .live, swap := some ⟨1, false, 0, false⟩ })] }
    let v : Hw := { readyHw with col.raising := some 3 }
    (calm d = true ∧ d.frm.due = some (.stall, 5000) ∧ d.frm.running = true ∧ d.frm.stopPending = false) ∧
    (calm t = true ∧ t.ticksRun = true ∧ t.frm.tailBegun = false ∧ t.frm.fixedPlan = false) ∧
    (calm v = true ∧ v.col.raising = some 3) := by
  decide +kernel

theorem witness_EdgesCount :
    let h : Hw := { sourced 5 with web.counting := true }
    calm h = true ∧ h.web.counting = true ∧ (h.encoder 1).a = false ∧ (h.encoder 1).b = false ∧ bit h.web.filtered 7 = false ∧
    (h.sys.everReady = true ∧ h.frm.running = true ∧ h.frm.due = none ∧ sourceSel h = 5) ∧ bit Hw.reset.web.filtered 7 = false ∧
    Hw.reset.sys.everReady = false ∧ calm Hw.reset = true := by
  decide +kernel

/-! ### Rings, pages, mailboxes, registers, and the packets of the module -/

/-- A module whose function ring 0 has published one slot, and context 5 (its own ring live) another. -/
def ringHw : Hw :=
  let h := (readyHw.setRing (.fn 0) liveRing).setRing (.ctx 5) liveRing
  h.setCtx 5 { state := .idle, gen := 3, maxJobs := 1, maxDma := 1, maxMbx := 1, maxSyn := 1 }

/-- A packet of function ring 0, and one of context 5's ring. -/
def fp (code : Nat) (w : List Word) : Packet := pkt code 0 w
def cp (code : Nat) (w : List Word) : Packet := pkt code 0x30005 w

/-- The tail may go to 15 and not back to 0 with one slot published; the completion head may follow the tail, 1, and go no further. -/
theorem witness_RingRegisters :
    let h := ringHw.setRing (.fn 0) { liveRing with cqTail := 1 }
    let r := h.ring (.fn 0)
    (calm h = true ∧ ringDoor h .pf = some (.fn 0) ∧ ringDoor h (.page 0 5) = some (.ctx 5) ∧ doorLive h (.fn 0) = true) ∧
    (15 < r.sqSize ∧ r.published ≤ (15 + r.sqSize - r.sqHead) % r.sqSize) ∧
    ¬ (0 < r.sqSize ∧ r.published ≤ (0 + r.sqSize - r.sqHead) % r.sqSize) ∧
    (1 < r.cqSize ∧ (1 + r.cqSize - r.cqHead) % r.cqSize ≤ r.unread) ∧ ¬ (2 < r.cqSize ∧ (2 + r.cqSize - r.cqHead) % r.cqSize ≤ r.unread) ∧
    (HostFail.timeout ≠ .notIssued ∧ h.fetches (.fn 0) = true ∧ r.sqBase.toNat ≤ (0x103FF : Dword).toNat ∧
      (0x103FF : Dword).toNat < r.sqBase.toNat + 64 * r.sqSize) := by
  decide +kernel

/-- Counter 16383 is the context's own and takes the greatest increment to 2^64 - 1; counter 0 is FREE. -/
theorem witness_DoorbellPage :
    let h := (ringHw.setCounter 16383 ⟨0xFFFFFFFFFFFF0000, .owned, 5, false⟩).setCore 3 jobCore3
    (calm h = true ∧ ringDoor h (.page 0 5) = some (.ctx 5) ∧ bits (0xFFFF3FFF : Word) 14 2 = 0 ∧ h.sys.state ≠ .ember ∧
      (h.ctx 5).state ≠ .resetting ∧ h.mayUse 5 (bits (0xFFFF3FFF : Word) 0 14) = true ∧
      (h.counter (bits (0xFFFF3FFF : Word) 0 14)).value.toNat + bits (0xFFFF3FFF : Word) 16 16 < 2 ^ 64) ∧
    (bits (0xFFFF0000 : Word) 14 2 = 0 ∧ h.mayUse 5 (bits (0xFFFF0000 : Word) 0 14) = false) ∧
    (Claims.jobCore h 3 = true ∧ (h.counter 16383).state = .owned ∧ (h.counter 16383).slot = (h.core 3).slot) := by
  decide +kernel

theorem witness_MailboxEndpoints :
    let x : Channel := { sender := some 5, receiver := some 5, sstate := [(31, 1)], flight := [(31, 9, 8)] }
    let h := ((readyHw.setCore 3 jobCore3).setChannel 31 x).setChannel 0 { x with poll := true }
    (calm h = true ∧ Claims.jobCore h 3 = true ∧ (31 < 32 ∨ (h.ctx 5).secure = true) ∧ (h.channel 31).sender = some (h.core 3).slot ∧
      Tbl.get 0 (h.channel 31).sstate 30 ≠ 1 ∧ Tbl.get 0 (h.channel 31).sstate 31 = 1) ∧
    ((h.channel 31).receiver = some (h.core 3).slot ∧ (h.channel 31).poll = false ∧ (h.channel 0).receiver = some (h.core 3).slot ∧
      (h.channel 0).poll = true) ∧
    ((h.channel 31).flight = (31, 9, 8) :: [] ∧ (h.channel 31).receiver.isSome = true) := by
  decide +kernel

/-- The least and the greatest value of every plain register, and the value next to it where the range does not fill the field. -/
theorem witness_RegisterAccesses :
    (calm readyHw = true ∧ sysOpen readyHw = true ∧ readyHw.sys.state = .ready ∧ bit (readyHw.reg 8) 0 = false) ∧
    plainRegisters.all (fun r => [r.2.2.1, r.2.2.2].all (fun n => let v := BitVec.ofNat 32 n
      decide (r.2.2.1 ≤ (v &&& r.2.1).toNat) && decide ((v &&& r.2.1).toNat ≤ r.2.2.2))) = true ∧
    (plainRegisters.filter (fun r => 0 < r.2.2.1)).all (fun r => let v := BitVec.ofNat 32 (r.2.2.1 - 1)
      decide ((v &&& r.2.1).toNat < r.2.2.1)) = true ∧
    (plainRegisters.filter (fun r => r.2.2.2 < r.2.1.toNat)).all (fun r => let v := BitVec.ofNat 32 (r.2.2.2 + 1)
      decide (r.2.2.2 < (v &&& r.2.1).toNat)) = true ∧
    (Tbl.find ({ readyHw with snaps := [(0x4001020, 1)] }).snaps 0x4001020 = some 1 ∧ 0x3FFFFFF < 0x4000000 ∧ (readyHw.reg 8).getLsbD 0 = false ∧
      Tbl.find ({ readyHw with helds := [(0x401F030, 9)] }).helds (0x401F010 + 0x20 * (1 : Fin 2).val) = some 9) := by
  decide +kernel

theorem witness_NopReplies :
    (headed ringHw (.fn 0) (fp 1 []) 1 1 = true ∧ onlyBits (fp 1 []) [] = true ∧ stateAccepts ringHw.sys.state 1 = true ∧ (fp 1 []).handle = 0) ∧
    (headed ringHw (.ctx 5) (cp 1 []) 1 1 = true ∧ onlyBits (cp 1 []) [] = true ∧ (cp 1 []).handle = ringHw.handleOf 5 ∧ (cp 1 []).handle ≠ 0 ∧
      bits (cp 1 []).handle 0 16 = 5 ∧ (ringHw.ctx 5).state ≠ .resetting) := by
  decide +kernel

theorem witness_PacketRefusalsInOrder :
    let p := fp 2 []
    let sees := fun (q : Packet) => taken ringHw (.fn 0) q
    let one := fun (q : Packet) => decide (1 ≤ q.slots.toNat) && decide (q.slots.toNat ≤ 8)
    let clear := fun (q : Packet) => decide (bits q.flags 1 3 = 0) && decide (q.rsv0 = 0)
    (∀ n ∈ [0, 9], sees { p with slots := BitVec.ofNat 4 n } = true ∧ one { p with slots := BitVec.ofNat 4 n } = false) ∧
    (∀ n ∈ [1, 128], sees { p with rsv0 := BitVec.ofNat 8 n } = true ∧ one p = true ∧ clear { p with rsv0 := BitVec.ofNat 8 n } = false) ∧
    (sees { p with word3 := 1 } = true ∧ clear { p with word3 := 1 } = true) ∧
    (sees { p with seq := 8 } = true ∧ clear { p with seq := 8 } = true ∧ (8 : Word) ≠ (ringHw.ring (.fn 0)).seq) ∧
    (sees { p with opcode := 0xFFFF } = true ∧ opRow 0xFFFF = none ∧ p.seq = (ringHw.ring (.fn 0)).seq) ∧
    (taken (ringHw.setRing (.fn 0) { liveRing with sqTail := 8 }) (.fn 0) { p with slots := 8 } = true ∧ one { p with slots := 8 } = true) ∧
    (sees { p with handle := 0x100 } = true ∧ bits (0x100 : Word) 8 8 ≠ 0) ∧
    (sees { p with handle := 0xFFFF00FF } = true ∧ bits (0xFFFF00FF : Word) 8 8 = 0) ∧
    (sees (fp 2 [0, 0, 0, 0, 0, 0, 0, 0, 0, 0, 0, 1]) = true ∧ onlyBits (fp 2 [0, 0, 0, 0, 0, 0, 0, 0, 0, 0, 0, 1]) [] = false ∧
      stateAccepts ringHw.sys.state 2 = true) := by
  decide +kernel

/-- A module with ticks running, a joined domain and a PTP fault. -/
def busyHw : Hw := { ringHw with frm.running := true, sys.state := .run, wml.joined := true }

theorem witness_ModulePackets :
    let e : Hw := { ringHw with sys.state := .ember }
    let s : Hw := { ringHw with regs := [(0x1004, 4)] }
    let ok := fun (h : Hw) (code : Nat) (masks : List (Nat × Word)) (w : List Word) => fnPacket h 0 (fp code w) code masks
    (ok ringHw 2 [] [] = true ∧ ok ringHw 0x901 [] [] = true) ∧
    ([0, 1].all (fun n => ok busyHw 3 [(4, 7)] [n] && busyHw.ticksRun) && ok ringHw 3 [(4, 7)] [2] && ok e 3 [(4, 7)] [3] &&
      [4, 7].all (fun n => ok ringHw 3 [(4, 7)] [n])) = true ∧
    ([[(0xF06 : Word), 0xFFFF, 1000000000, 0x3FFFFFFF, 1000000000], [0, 1, 1500, 0, 1500]].all (fun w =>
      ok ringHw 0x10 [(4, 0xF07), (5, 0xFFFF), (6, 0x3FFFFFFF), (7, 0x3FFFFFFF), (8, 0x3FFFFFFF)] w &&
      (let p := fp 0x10 w
       decide (field p 4 0 3 ≠ 7) && decide (field p 4 0 3 ≠ 3) && decide (field p 5 0 16 ≠ 0) && decide (1500 ≤ field p 6 0 30) &&
        decide (field p 6 0 30 ≤ 1000000000) && decide (1500 ≤ field p 8 0 30) && decide (field p 8 0 30 ≤ 1000000000)))) = true ∧
    (ok s 0x11 [(4, 3)] [1] = true ∧ s.canStart = true ∧ ok busyHw 0x11 [(4, 3)] [2] = true ∧ busyHw.frm.running = true ∧
      busyHw.frm.waiting = false ∧ [0, 3].all (fun n => ok ringHw 0x11 [(4, 3)] [n]) = true) ∧
    (ok ringHw 0x20 [(4, 0x111), (5, 0xFFFFFFFF), (6, 0xFFFF)] [0x111, 0xFFFFFFFF, 0xFFFF] = true) ∧
    ([0x3FF11 - 0x10000, 0x1FF11].all (fun v => ok ringHw 0x21 [(4, 0x3FF13)] [BitVec.ofNat 32 v]) = true ∧ ringHw.ptp.fault = true ∧
      field (fp 0x21 [0x1FF11]) 4 0 2 = 1 ∧ field (fp 0x21 [0x1FF11]) 4 16 2 = 1) ∧
    ([20000, 150000].all (fun n => ok ringHw 0x403 [(4, 0xFFFFFFFF)] [n]) = true) ∧
    (ok ringHw 0x804 [(4, 0xF), (5, 0xFF)] [0xD, 0xFF] = true ∧ field (fp 0x804 [0xD, 0xFF]) 4 1 2 ≠ 3) ∧
    (ok ringHw 0x805 [(4, 0xF), (5, 0xFFFFFFFF)] [11, 0x30005] = true ∧ ringHw.isHandle 0x30005 = true ∧
      ok ringHw 0x805 [(4, 0xF), (5, 0xFFFFFFFF)] [0, 0] = true) ∧
    (ok ringHw 0x807 [(4, 0x10F), (5, 0xFFFFFFFF)] [0x10B, 1000000000] = true ∧ ok ringHw 0x807 [(4, 0x10F), (5, 0xFFFFFFFF)] [0, 1] = true ∧
      ringHw.sys.state = .ready) ∧
    (ok ringHw 0x902 [(4, 0xFF01)] [0x6401] = true ∧ field (fp 0x902 [0x6401]) 4 8 8 = 100) ∧
    (ok busyHw 0xA02 [] [] = true ∧ busyHw.wml.joined = true ∧ sourceSel busyHw ≠ 6 ∧ busyHw.wml.swap = none ∧ ok busyHw 0xA04 [] [] = true) ∧
    ([0, 1, 2, 3].all (fun n => ok ringHw 0xB01 [(4, 3)] [n]) = true) := by
  decide +kernel

/-! ### Packets about contexts, mappings, counters, endpoints and channels -/

/-- The ready module in which page 0 of context 5, 1 GiB, is HBM3 from address 0 on, and these bytes stand from 0x1000 on. -/
def mappedHw (bytes : List Byte) : Hw := { ringHw with mem.cells := Mem.putN [(0x5E0A00000, 13)] 0x1000 bytes }

/-- CTX_CREATE with rings of 16 slots, and with rings of 65,536 and the greatest quotas. -/
def createWords (top : Bool) : List Word :=
  if top then [0x10000, 1, 0x20000, 1, 0x3F1010, 5, 0x102, 0x408040, 0x4000] else [0x10000, 1, 0x20000, 1, 0x0404, 5, 0, 0, 0]

theorem witness_contextPackets :
    let h := readyHw.setRing (.fn 0) liveRing
    let masks := [(4, (0xFFFFF000 : Word)), (5, 0xFFFFFFFF), (6, 0xFFFFF000), (7, 0xFFFFFFFF), (8, 0x07FF1F1F), (9, 0xFFFFFFFF), (10, 0x103),
      (11, 0xFFFF7F), (12, 0x7FFF)]
    let armed := ringHw.setCtx 5 { state := .live, gen := 3, swap := some ⟨1, false, 0, false⟩ }
    let faulted := ringHw.setCtx 5 { state := .faulted, gen := 3, cause := 1 }
    ([true, false].all (fun t => fnPacket h 0 (fp 0x101 (createWords t)) 0x101 masks && createOk 0 (fp 0x101 (createWords t)) && slotFor h 0 0) = true) ∧
    (aboutCtx ringHw (.fn 0) 5 (cp 0x104 []) 0x104 [] = true ∧ aboutCtx faulted (.ctx 5) 5 (cp 0x104 []) 0x104 [] = true) ∧
    ([0, 1].all (fun n => ctxPacket ringHw 5 (cp 0x105 [n]) 0x105 [(4, 1)]) = true) ∧
    (ctxPacket ringHw 5 (cp 0x106 [3]) 0x106 [(4, 3)] = true ∧ field (cp 0x106 [3]) 4 0 2 = 3) ∧
    (ctxPacket armed 5 (cp 0x106 [2]) 0x106 [(4, 3)] = true ∧ field (cp 0x106 [2]) 4 0 2 ≠ 3 ∧ (armed.ctx 5).swap.isSome = true) ∧
    (ctxPacket ringHw 5 (cp 0x106 [2]) 0x106 [(4, 3)] = true ∧ (ringHw.ctx 5).swap = none ∧ ringHw.inDomainSwap 5 = false) := by
  decide +kernel

/-- A context that resets, with its packet on function ring 0. -/
def resettingHw (k : ResetKind) : Hw :=
  let h := ringHw.setCtx 5 { state := .resetting, gen := 65535, reset := some ⟨k, 0, 1, 2, 3, 4, 5, 6, 0⟩ }
  h.setRing (.fn 0) { liveRing with exec := some ⟨cp 0x103 [], .ctxReset 5⟩ }

theorem witness_contextReset :
    (aboutCtx ringHw (.fn 0) 5 (cp 0x103 []) 0x103 [] = true ∧ aboutCtx ringHw (.ctx 5) 5 (cp 0x103 []) 0x103 [] = true ∧
      aboutCtx ringHw (.fn 0) 5 (cp 0x102 []) 0x102 [] = true) ∧
    [ResetKind.reset, .destroy].all (fun k =>
      let h := resettingHw k
      let r : ResetInfo := ⟨k, 0, 1, 2, 3, 4, 5, 6, 0⟩
      calm h && decide ((h.ctx 5).state = .resetting) && decide ((h.ctx 5).reset = some r) && decide (r.boundaries = 0) && decide (r.drain = 0) &&
        !h.drains 5 && decide (h.findExec (.ctxReset 5) = some (.fn 0, cp 0x103 []))) = true := by
  decide +kernel

/-- Ranges that end at 2^48, one beyond, one page of 1 GiB mapped and none. -/
theorem witness_MappingPackets :
    let m := [(4, (0xFFFFFFFF : Word)), (5, 0xFFFFFFFF), (6, 0xFFFFFFFF), (7, 0xFFFFFFFF), (8, 0x333), (9, 0xFFFFFFFF), (10, 0xFFFFFFFF)]
    let u := [(4, (0xFFFFFFFF : Word)), (5, 0xFFFFFFFF), (6, 0xFFFFFFFF), (7, 0xFFFFFFFF)]
    let i := [(4, (0xFFFFFFFF : Word)), (5, 0xFFFFFFFF), (6, 0xFFFFFFFF), (7, 0xFFFFFFFF), (8, 1)]
    let h := mappedHw []
    let top : List Word := [0xC0000000, 0xFFFF, 0x40000000, 0]
    (ctxPacket h 5 (cp 0x201 [0, 0, 0, 0, 3]) 0x201 m = true ∧ field (cp 0x201 [0, 0, 0, 0, 3]) 8 0 2 = 3) ∧
    (ctxPacket h 5 (cp 0x201 [0, 0x10000, 0, 0, 0x322]) 0x201 m = true ∧ quad (cp 0x201 [0, 0x10000, 0, 0, 0x322]) 4 = 2 ^ 48) ∧
    (ctxPacket h 5 (cp 0x201 [0, 0x10000, 0x40000000, 0, 0x322]) 0x201 m = true) ∧
    (let p := cp 0x201 (top ++ [0x322, 0x40000000, 1])
     ctxPacket h 5 p 0x201 m = true ∧ field p 8 0 2 = 2 ∧ field p 8 4 2 = 2 ∧ quad p 4 % 2 ^ 30 = 0 ∧ quad p 9 % 2 ^ 30 = 0 ∧
      quad p 6 = 2 ^ 30 ∧ quad p 4 + quad p 6 = 2 ^ 48 ∧ meetsAperture (quad p 4) (quad p 6) = false ∧ (h.pagesIn 5 (quad p 4) (quad p 6)).isEmpty = true) ∧
    (let p := cp 0x202 [2, 0xFFFF, 0xFFFFFFFF, 0]
     ctxPacket h 5 p 0x202 u = true ∧ quad p 4 + quad p 6 = 2 ^ 48 + 1) ∧
    (ctxPacket h 5 (cp 0x202 top) 0x202 u = true ∧ (h.pagesIn 5 0xFFFFC0000000 0x40000000).isEmpty = true) ∧
    (ctxPacket h 5 (cp 0x202 [0, 0, 0x40000000, 0]) 0x202 u = true ∧
      (h.pagesIn 5 0 0x40000000).map (fun l => (l.va, l.size, l.tgt)) = [(0, 0x40000000, 0)] ∧
      (h.pagesIn 5 1 0x3FFFFFFF).map (fun l => (l.va, l.size)) = [(0, 0x40000000)]) ∧
    (ctxPacket h 5 (cp 0x203 [0, 0, 0, 0, 1]) 0x203 i = true ∧ ctxPacket h 5 (cp 0x203 [1, 0, 0, 0, 1]) 0x203 i = true ∧
      ctxPacket h 5 (cp 0x203 top) 0x203 i = true) := by
  decide +kernel

/-- A page of context 5 that is host memory: the one page that ATU_UNMAP finds in its range. -/
theorem witness_MappingPackets_host :
    let h : Hw := { ringHw with mem.cells := [(0x5E0A00000, 0x2D)] }
    ∃ l : TableLeaf, h.pagesIn 5 0 0x40000000 = [l] ∧ 0 ≤ l.va ∧ l.va + l.size ≤ 0 + 0x40000000 ∧ 2 ≤ l.tgt :=
  ⟨⟨0x5E0A00000, 0, 0x40000000, 2, 0⟩, rfl, by decide⟩

/-- Counters 0 and 16383 are context 5's. -/
def countedHw : Hw := (ringHw.setCounter 0 ⟨5, .owned, 5, false⟩).setCounter 16383 ⟨0xFFFFFFFFFFFFFFFE, .owned, 5, false⟩

theorem witness_CounterPackets :
    let a := [(4, (0x7FFF : Word)), (5, 0xFFFFFFFF), (6, 0xFFFFFFFF)]
    let f := [(4, (0x3FFF : Word)), (5, 0x7FFF)]
    let g := [(4, (0x3FFF : Word)), (5, 0xFFFFFFFF), (6, 0xFFFFFFFF)]
    let w := [(4, (0x3FFF : Word)), (5, 0xFFFFFFFF), (6, 0xFFFFFFFF), (7, 0xFF)]
    let h := countedHw
    let t : Hw := { h with frm.running := true, sys.state := .run }
    let left := fun (h : Hw) (n : Nat) => room (h.ownedCounters 5).length (h.ctx 5).maxSyn (h.synUsed (h.ctx 5).owner) (h.synLimit (h.ctx 5).owner) n
    ([16385, 0, 1].all (fun n => ctxPacket ringHw 5 (cp 0x301 [n]) 0x301 a) = true) ∧
    (left h 1 = false ∧ left ringHw 1 = true ∧ ringHw.allFree 0 1 = true ∧ ctxPacket h 5 (cp 0x301 [1]) 0x301 a = true) ∧
    ([[16383, 2], [0, 0], [16383, 1], [5, 1]].all (fun l => ctxPacket h 5 (cp 0x302 l) 0x302 f) = true) ∧
    (16384 < field (cp 0x302 [16383, 2]) 4 0 14 + field (cp 0x302 [16383, 2]) 5 0 15 ∧ (h.counter 5).state ≠ .owned ∧
      (h.counter 16383).state = .owned ∧ (h.counter 16383).slot = 5 ∧ h.cores = [] ∧ h.execs = [] ∧ h.wml.held = []) ∧
    ([[5, 1], [16383, 2], [16383, 0], [16383, 1]].all (fun l => ctxPacket h 5 (cp 0x303 l) 0x303 g) = true) ∧
    (h.mayUse 5 5 = false ∧ h.mayUse 5 16383 = true ∧ 2 ^ 64 ≤ (h.counter 16383).value.toNat + quad (cp 0x303 [16383, 2]) 5 ∧
      quad (cp 0x303 [16383, 0]) 5 = 0 ∧ (h.counter 16383).value.toNat + quad (cp 0x303 [16383, 1]) 5 < 2 ^ 64) ∧
    ([[5], [0, 6, 0, 255], [0, 5, 0, 0], [0, 6, 0, 0]].all (fun l => ctxPacket h 5 (cp 0x304 l) 0x304 w) = true) ∧
    (h.ticksRun = false ∧ field (cp 0x304 [0, 6, 0, 255]) 7 0 8 ≠ 0 ∧ t.ticksRun = true ∧ ctxPacket t 5 (cp 0x304 [0, 6, 0, 255]) 0x304 w = true ∧
      quad (cp 0x304 [0, 5, 0, 0]) 5 ≤ (h.counter 0).value.toNat ∧ (h.counter 0).value.toNat < quad (cp 0x304 [0, 6, 0, 0]) 5) ∧
    (let e := h.setRing (.ctx 5) { liveRing with exec := some ⟨cp 0x304 [0, 6], .synWait 0 6 0⟩ }
     calm e = true ∧ (e.ring (.ctx 5)).exec = some ⟨cp 0x304 [0, 6], .synWait 0 6 0⟩) := by
  decide +kernel

theorem witness_EndpointAndChannelPackets :
    let h := ringHw
    let m := [(4, (0xFFFFFFFF : Word)), (5, 0xFFFFFFFF), (6, 0xFFFFFFFF), (7, 0xFFFFFFFF)]
    let ends := (ringHw.setChannel 31 { sender := some 5, receiver := some 5, sstate := [(0, 2)] })
    let chan := fun (s : ChanState) => ringHw.setDmaChan 127 { state := s, slot := 5, desc := 0x40, recheck := false }
    let spare := fun (h : Hw) => room (h.endpointsOf 5) (h.ctx 5).maxMbx (h.mbxUsed (h.ctx 5).owner) (h.mbxLimit (h.ctx 5).owner) 1
    let chans := fun (h : Hw) (n : Nat) => room (h.ownedChans 5).length (h.ctx 5).maxDma (h.dmaUsed (h.ctx 5).owner) (h.dmaLimit (h.ctx 5).owner) n
    ([0x111F, 0x101F, 0x1F].all (fun w => ctxPacket h 5 (cp 0x310 [w]) 0x310 [(4, 0x113F)]) = true ∧ spare h = true ∧
      (h.channel 31).receiver = none ∧ (h.channel 31).sender = none ∧ field (cp 0x310 [0x111F]) 4 0 6 = 31) ∧
    (let t := (ringHw.setChannel 31 { sender := some 6 })
     ctxPacket t 5 (cp 0x310 [0x1F]) 0x310 [(4, 0x113F)] = true ∧ spare t = true ∧ (t.channel 31).sender ≠ none) ∧
    ([0x11F, 0x1F].all (fun w => ctxPacket ends 5 (cp 0x311 [w]) 0x311 [(4, 0x13F)]) = true ∧ (ends.channel 31).sender = some 5 ∧
      (ends.channel 31).receiver = some 5 ∧ ((List.range 32).all fun i => decide (Tbl.get 0 (ends.channel 31).sstate i ≠ 1)) = true ∧
      ctxPacket h 5 (cp 0x311 [0x1F]) 0x311 [(4, 0x13F)] = true ∧ (h.channel 31).sender ≠ some 5) ∧
    ([129, 128, 1, 0].all (fun w => ctxPacket h 5 (cp 0x701 [w]) 0x701 [(4, 0x7FF)]) = true ∧ chans h 128 = false ∧ chans h 1 = true ∧
      (freeChans h 1).length = 1) ∧
    (ctxPacket (chan .running) 5 (cp 0x702 [0, 0, 0, 0x80000000]) 0x702 m = true ∧
      ((chan .running).dmaChan 127).state ≠ .free ∧ maskedChans (cp 0x702 [0, 0, 0, 0x80000000]) = [127]) ∧
    ([[0], [127, 32, 0], [127, 0xFFFFFFC0, 0xFFFF]].all (fun w =>
      ctxPacket (chan .idle) 5 (cp 0x703 w) 0x703 [(4, 0x7F), (5, 0xFFFFFFFF), (6, 0xFFFFFFFF)]) = true ∧
      ctxPacket (chan .running) 5 (cp 0x703 [127, 0x40, 0]) 0x703 [(4, 0x7F), (5, 0xFFFFFFFF), (6, 0xFFFFFFFF)] = true ∧
      quad (cp 0x703 [127, 0xFFFFFFC0, 0xFFFF]) 5 < 2 ^ 48 ∧ quad (cp 0x703 [127, 0xFFFFFFC0, 0xFFFF]) 5 % 64 = 0) ∧
    [ChanState.idle, .running, .parked, .error].all (fun s => ctxPacket (chan s) 5 (cp 0x704 [127]) 0x704 [(4, 0x7F)] &&
      ctxPacket (chan s) 5 (cp 0x705 [127]) 0x705 [(4, 0x7F)] && decide (((chan s).dmaChan 127).state = s) &&
      decide (((chan s).dmaChan 127).slot = 5)) = true := by
  decide +kernel

/-! ### Packets about jobs, swaps and bindings, and what cores submit -/

/-- A read that ends without a failure is one of the form that the statements speak of. -/
theorem reads {h : Hw} {c a slot va n : Nat} (e : (h.vaRead c a slot va n).2.2 = none) :
    ∃ g bs, h.vaRead c a slot va n = (g, bs, none) := ⟨_, _, by rw [← e]⟩

/-- JOB_DEFINE of 16 descriptor words from w8 on. -/
def jobPkt (i : Word) (d : List Word) : Packet :=
  ⟨0x401, 2, 0, 0, 7, 0x30005, 0, [i, 0, 0, 0] ++ d ++ List.replicate (24 - d.length) 0⟩

/-- A two-slot command is published on context 5's ring; an armed swap; a full table. -/
def jobHw (x : Ctx) : Hw := (ringHw.setRing (.ctx 5) { liveRing with sqTail := 2 }).setCtx 5 { x with state := .live, gen := 3 }

theorem witness_jobPackets :
    let masks := [(4, (0x3F : Word)), (8, 0xFFFF3F), (9, 0xFFFFFFFF), (10, 0x3FFFFFFF), (11, 0x1FF), (12, 0xFFFFFFFF), (13, 0xFFFF),
        (14, 0x80003FFF), (15, 0xFF)]
    let armed := jobHw { maxJobs := 1, swap := some ⟨1, false, 0, false⟩ }
    let room1 := jobHw { maxJobs := 1 }
    let none_ := jobHw { maxJobs := 0 }
    let has := jobHw { maxJobs := 1, active := { jobs := [(63, [0x10000, 9])] } }
    let meets := fun (h : Hw) (p : Packet) => ctxHeaded h 5 p 0x401 2 && ((List.range 32).all fun k => k < 16 || decide (word p k = 0)) && onlyBits p masks
    let low := jobPkt 0 [0x10000]
    let high := jobPkt 63 [0x900020, 0xFFFFFFFF, 1000000000, 0x10F, 0xFFFFFFFF, 0xFFFF, 0x80003FFF, 0xFF]
    (meets room1 (jobPkt 0 [0]) = true ∧ jobOk (jobPkt 0 [0]) = false) ∧
    (meets armed low = true ∧ jobOk low = true ∧ swapFree armed 5 = false) ∧
    (meets none_ low = true ∧ swapFree none_ 5 = true ∧ jobRoom none_ 5 0 = false) ∧
    (meets room1 low = true ∧ jobRoom room1 5 0 = true ∧ swapFree room1 5 = true) ∧
    (meets room1 { high with body := high.body.set 7 0xF } = true ∧ field { high with body := high.body.set 7 0xF } 4 0 6 = 63) ∧
    (ctxPacket armed 5 (cp 0x402 [63]) 0x402 [(4, 0x3F)] = true ∧ ctxPacket room1 5 (cp 0x402 [0]) 0x402 [(4, 0x3F)] = true) ∧
    ([65, 62, 63, 64].all (fun n => ctxPacket has 5 (cp 0x404 [n]) 0x404 [(4, 0x7F)]) = true ∧ Tbl.find (has.ctx 5).active.jobs 62 = none ∧
      Tbl.find (has.ctx 5).active.jobs 63 = some [0x10000, 9]) := by
  decide +kernel

theorem witness_swapPackets :
    let m := [(4, (3 : Word)), (5, 0xFFFFFFFF), (6, 0xFFFF), (7, 0x3FFF)]
    let free := (jobHw {}).setCounter 16383 ⟨0, .owned, 5, false⟩
    let armed := jobHw { swap := some ⟨1, false, 0, false⟩ }
    let done := jobHw { swap := some ⟨1, false, 0, true⟩ }
    (ctxPacket free 5 (cp 0x501 [1, 1]) 0x501 m = true ∧ ctxPacket free 5 (cp 0x501 [1, 0, 1]) 0x501 m = true ∧
      ctxPacket free 5 (cp 0x501 [0, 0, 0]) 0x501 m = true ∧ ahead free 0 = false ∧ ctxPacket free 5 (cp 0x501 [0, 0, 0x8000]) 0x501 m = true ∧
      ahead free (quad (cp 0x501 [0, 0, 0x8000]) 5) = false) ∧
    (ctxPacket armed 5 (cp 0x501 [3, 0, 0, 16383]) 0x501 m = true ∧ swapFree armed 5 = false) ∧
    (ctxPacket free 5 (cp 0x501 [3, 0, 0, 0]) 0x501 m = true ∧ swapFree free 5 = true ∧ free.mayUse 5 0 = false) ∧
    (ctxPacket free 5 (cp 0x501 [0, 0xFFFFFFFF, 0x7FFF, 16383]) 0x501 m = true ∧ ahead free (quad (cp 0x501 [0, 0xFFFFFFFF, 0x7FFF, 16383]) 5) = true ∧
      free.mayUse 5 16383 = true ∧ ctxPacket free 5 (cp 0x501 [0, 1, 0, 16383]) 0x501 m = true ∧ ahead free 1 = true) ∧
    ([free, armed, done].all (fun h => ctxPacket h 5 (cp 0x502 []) 0x502 [] && ctxPacket h 5 (cp 0x503 []) 0x503 []) = true ∧
      (free.ctx 5).swap = none ∧ (armed.ctx 5).swap = some ⟨1, false, 0, false⟩ ∧ (done.ctx 5).swap = some ⟨1, false, 0, true⟩) := by
  decide +kernel

/-- A loading packet at address 0x1000: LENGTH 4 or 0. -/
def loadPkt (code : Nat) (n : Word) : Packet := cp code [15, 0x1000, 0, n, 0]

theorem witness_BindingPackets :
    let h := mappedHw [1, 2, 3, 4]
    let armed := h.setCtx 5 { h.ctx 5 with swap := some ⟨1, false, 0, false⟩ }
    let cam := [(4, (0x3F : Word)), (6, 0x3FFFFFF), (7, 0xFFFFFFFF)]
    let port := fun (hd : Word) => h.setPort 7 { master := true, owner := hd, masterPort := 7, links := 1 }
    let rule := fun (t : Bool) => [(4, (0x110F : Word)), (5, 0xFFFFFFFF), (6, if t then 0xFFFFFFFF else 0xFFFF), (7, 0xFFFFFFFF)]
    let out := fun (o : Nat) => h.setOutput o { bound := some 5 }
    ([0, 4, 114688].all (fun n => ctxPacket h 5 (loadPkt 0x601 n) 0x601 progMasks) = true ∧ swapFree h 5 = true ∧
      quad (cp 0x601 [0, 0xFFFFFFFF, 0xFFFF, 0]) 5 < 2 ^ 48 ∧ (word (loadPkt 0x601 114688) 7).toNat ≤ 114688) ∧
    ([0, 4].all (fun n => ctxPacket h 5 (loadPkt 0x602 n) 0x602 modelMasks) = true ∧ ctxPacket h 5 (cp 0x602 [0, 0, 0, 0, 1]) 0x602 modelMasks = true ∧
      quad (cp 0x602 [0, 0, 0, 0, 1]) 7 ≤ 2 ^ 32) ∧
    (ctxPacket armed 5 (cp 0x603 [15]) 0x603 [(4, 0xF)] = true ∧ swapFree armed 5 = false ∧ ctxPacket h 5 (cp 0x603 [0]) 0x603 [(4, 0xF)] = true) ∧
    (ctxPacket h 5 (cp 0x504 [0]) 0x504 [(4, 0x3F)] = true) ∧
    ([[1, 0, 0x20001D0, 0x1007F], [1, 0, 0x20001D0, 0x7F]].all (fun w => [0, 0x30005].all (fun hd =>
        ctxPacket (port hd) 5 (cp 0x504 w) 0x504 cam)) = true ∧ (word (cp 0x504 [1, 0, 0x20001D0]) 6).toNat = 0x2000010 + 0x40 * (7 : Fin 8) ∧
      ((port 0).port 7).ownerSlot ≠ some 5 ∧ ((port 0x30005).port 7).ownerSlot = some 5 ∧ ((port 0x30005).port 7).master = true) ∧
    (ctxPacket h 5 (cp 0x806 [12, 0, 0, 4]) 0x806 (rule false) = true ∧ ctxPacket h 5 (cp 0x806 [7, 0, 0, 4]) 0x806 (rule false) = true ∧
      (h.output 7).bound ≠ some 5) ∧
    ([[7, 0, 0, 0], [7, 0, 0, 5], [7, 0, 0, 4], [7, 0, 0, 1000000000], [7, 0, 0, 1000000004]].all (fun w =>
        ctxPacket (out 7) 5 (cp 0x806 w) 0x806 (rule false)) = true ∧
      [[0x110B, 0, 0x80000000, 39996], [0x110B, 0, 0x80000000, 40000]].all (fun w => ctxPacket (out 11) 5 (cp 0x806 w) 0x806 (rule true)) = true ∧
      ((out 7).output 7).orphan = false ∧ ((out 7).output 7).bound = some 5 ∧ ((out 11).output 11).bound = some 5) := by
  decide +kernel

/-- The bytes of an image are read; whether it passes is the free content of images: one of the two clauses applies, and the one of a
bound image also needs module memory that holds 4 bytes, whose amount is free. -/
theorem witness_BindingPackets_image :
    (∃ g bs, ((mappedHw [1, 2, 3, 4]).consume (.ctx 5) (loadPkt 0x601 4)).vaRead stewardCache 0 5 0x1000 4 = (g, bs, none)) ∧
    (∃ g bs, ((mappedHw [1, 2, 3, 4]).consume (.ctx 5) (loadPkt 0x602 4)).vaRead stewardCache 0 5 0x1000 4 = (g, bs, none)) ∧
    (∀ bs, progFails bs = none ∨ ∃ o, progFails bs = some o) ∧
    (((mappedHw [1, 2, 3, 4]).consume (.ctx 5) (loadPkt 0x601 4)).vaRead stewardCache 0 5 0x1000 4).1.imageBytes = 0 :=
  ⟨reads (by decide +kernel), reads (by decide +kernel), fun bs => by cases progFails bs <;> simp, by decide +kernel⟩

/-- A core of a C0 job, with its held low halves: submissions at an aligned address and at one that is not. -/
theorem witness_CoreSubmissions :
    let d : List Word := [0, 0, 0, 0, 0, 0, 0, 255]
    let h := ((readyHw.setCore 3 jobCore3).setCtx 5 { state := .live, active := { jobs := [(7, d)] } }).setDmaChan 127 { state := .running, slot := 5 }
    let held := fun (off : Nat) (v : Word) => { h with helds := [((33 + 3) * 0x4000000 + off, v)] }
    let legal := fun (v : Word) => decide (bits (nth 0 d 0) 0 2 = 0) && decide (bits v 16 8 < bits (nth 0 d 7) 0 8) && decide (bits v 24 4 < 12) &&
      decide (bits v 29 3 = 0)
    (calm h = true ∧ Claims.jobCore h 3 = true ∧ (h.ctx (h.core 3).slot).state = .live) ∧
    ([0x13000, 0x14000].all (fun off => [0xFFFFFFC0, 1].all (fun v => decide (heldLow (held off v) 3 off = some v))) = true ∧
      (dword 0xFFFFFFC0 0xFFFF).toNat % 64 = 0 ∧ (dword 1 0).toNat % 64 ≠ 0) ∧
    (heldLow (held 0x1F080 9) 3 0x1F080 = some 9 ∧ legal 0x1BFE0000 = true ∧ legal 0x1BFF0000 = false ∧ legal 0x1CFE0000 = false) ∧
    ((h.dmaChan 127).slot = (h.core 3).slot ∧ (h.dmaChan 127).state = .running) ∧
    (let i := h.setDmaChan 127 { state := .idle, slot := 5 }
     (i.dmaChan 127).slot = (i.core 3).slot ∧ (i.dmaChan 127).state = .idle ∧ (i.dmaChan 126).state = .free) := by
  decide +kernel

/-! ### Arrays, window passes and line-rate channels -/

/-- A feed that ends without a failure is one of the form that the statements speak of. -/
theorem feeds {ε α : Type} {r : Hw × Except ε α} (e : r.2.isOk = true) : ∃ g x, r = (g, .ok x) := by
  obtain ⟨g, x⟩ := r
  cases x with
  | error y => exact absurd e (by simp [Except.isOk, Except.toBool])
  | ok x => exact ⟨g, x, rfl⟩

/-- The ready module in which the leaf caches of Bastaef, Hedgerow and Privet map the first 2 MiB of context 5 to the shared SRAM, and
these words stand at 0x1000. -/
def sramHw (words : List Word) : Hw := { ringHw with
  atu.leaves := [22, 23, 24].map (fun c => ⟨c, 5, 0, 0x200000, 0x10000000000, 1, true, true⟩)
  mem.cells := Mem.putN [] 0x10000001000 (words.flatMap (fun w => bytesOf 4 w.toNat)) }

/-- The descriptor of a command of M rows and one column, K 1, in INT8. -/
def bstWords (m : Word) : List Word := [0x11, m + 0x10000, 1, 0, 0x2000, 0, 0x4000, 0, 0x6000, 0, 0, 0, 0x8000, 0, 0xA000, 0]

/-- Core 3 runs a job of context 5 that has array 2, with this command in its queue. -/
def arrayHw (m : Word) (ctl : Word) : Hw :=
  let k : Core := { jobCore3 with queue := [⟨63, 0x1000, ctl, 9, 8⟩] }
  { (sramHw (bstWords m)).setCore 3 k with col.plan.jobs := [⟨5, 7, 0, 0, [3], [2], [], [], false, 0⟩] }

/-- A command bound to an array, with the pages that its operands need. -/
def boundCmd (ctl : Word) : BstCmd := ⟨3, 0, 63, ctl, 9, 8, 5, 7, 0, bstWords 1, [], (List.range 16).map (fun i => (i, 0x10000000 + i))⟩

theorem witness_arrayCommands :
    let own := fun (ctl : Word) => (arrayHw 1 ctl).setCounter 16383 ⟨0, .owned, 5, false⟩
    let entered := fun (h : Hw) => match h.core 3 with
      | k => (h.setCore 3 { k with queue := [] }).fetchDesc 5 0x1000
    let busy : BstRun := ⟨boundCmd 0, .narrow, 0, {}, 0, 0, false, 0, none, false, 0, 0, none, 0⟩
    ([0x80, 0x10000, 0xC, 0x1C, 0x40000, 0x80000000].all (fun ctl => calm (arrayHw 1 ctl) && badCtl ctl) = true) ∧
    ((coreArrays (arrayHw 1 8) 3).length ≤ bits (8 : Word) 3 2 ∧ bit (8 : Word) 2 = false ∧ badCtl 8 = false) ∧
    (badCtl 0x20000 = false ∧ bit (0x20000 : Word) 2 = false ∧ (coreArrays (arrayHw 1 0x20000) 3)[0]? = some 2 ∧
      (arrayHw 1 0x20000).mayUse 5 0 = false ∧ badCtl 0xFFFE0000 = false ∧ bit (0xFFFE0000 : Word) 17 = true ∧ (own 0xFFFE0000).mayUse 5 16383 = true) ∧
    ([0, 0xFFFE0000].all (fun ctl => (entered (own ctl)).2.isOk && ((entered (own ctl)).1.feedPrep 5 (bstWords 1) false).2.isOk) = true ∧
      (bstDesc (bstWords 1)).m ≠ 0 ∧ (bstDesc (bstWords 0xFFFF)).m ≠ 0 ∧ (bstDesc (bstWords 1)).n ≠ 0) ∧
    ((readyHw.core 17).queue = [] ∧ calm readyHw = true ∧ (readyHw.array 3).bound = []) ∧
    ((readyHw.setArray 3 { run := some busy }).array 3).run.isSome = true ∧ ((readyHw.setArray 3 { drain := some (5, 7) }).array 3).drain.isSome = true ∧
    (let h := (own 0).setArray 2 { bound := [boundCmd 0] }
     let x := h.array 2
     x.run = none ∧ x.drain = none ∧ nextRank x.lastRank (h.startable x) = some (boundCmd 0) ∧
      ((h.setArray 2 { x with bound := [], lastRank := 0 }).compute 2 5 (boundCmd 0).desc (boundCmd 0).head (boundCmd 0).pages).2.isOk = true) := by
  decide +kernel

/-- Array 1 with a started command of the widening policy `wpol`, of the phase and with the fit miss named, and a due tick at 1 ms. -/
def runHw (wpol : Word) (phase : BstPhase) (fit : Bool) : Hw :=
  let r : BstRun := { cmd := { boundCmd 0x41 with head := [wpol <<< 21] }, phase := phase, startAt := 0, cost := 5, askedAt := 3
                      out := { cycles := 100, tiles := 64, fit := fit, status := 0x80000000 }, status := 7
                      wide := some ⟨0x44 :: (bstWords 1).drop 1, [], (boundCmd 0).pages⟩ }
  let h : Hw := { sramHw (bstWords 1) with frm.due := some (.stall, 1000000), wpool := 5, act := [(0x11000, 1)] }
  h.setArray 1 { run := some r, bound := [boundCmd 1], busy := 1, stall := 2 }

theorem witness_arrayCompletion :
    let at_ := fun (h : Hw) => match (h.array 1).run with | some r => (calm h, r.phase, r.out.fit, (qHead r.cmd.head).wpol) | none => (false, .held, false, 9)
    let ask := fun (h : Hw) => match (h.array 1).run with
      | some r =>
        let g := h.advanceTo (r.askedAt + 16)
        (calm h && !h.earlierAsk 1 r && (h.pairArray 1 r).isNone, g.wideInTime 1 r, bit (h.actReg 0x11000) 0 && decide (r.cost ≤ h.wpool),
          match r.wide with
          | some w => ((({ g with wpool := h.wpool - r.cost }).bump 0x1101C 1).compute 1 r.cmd.slot w.desc w.head w.pages).2.isOk
          | none => false)
      | none => (false, false, false, false)
    let h := runHw 1 .request true
    at_ (runHw 1 .narrow false) = (true, .narrow, false, 1) ∧ at_ (runHw 0 .narrow true) = (true, .narrow, true, 0) ∧
    at_ (runHw 2 .narrow true) = (true, .narrow, true, 2) ∧ (runHw 2 .narrow true).pairedRun 5 7 = false ∧
    (ask { h with frm.tailBegun := true }).2.1 = false ∧ ask { h with wpool := 4 } = (true, true, false, true) ∧
    ask { h with act := [(0x11000, 0)] } = (true, true, false, true) ∧ ask h = (true, true, true, true) ∧
    at_ (runHw 1 .finished true) = (true, .finished, true, 1) := by
  decide +kernel

/-- A word list with some words replaced. -/
def wordsAt (n : Nat) (l : List (Nat × Word)) : List Word := (List.range n).map (fun i => Tbl.get 0 l i)

/-- A pass of the largest value of one INT8 element, with no completion signal. -/
def passWords : List Word := wordsAt 32 [(0, 0x13), (1, 0x111111), (3, 0x10001), (4, 0x10001), (6, 0x2000), (8, 64), (9, 64), (10, 0x3000), (12, 64), (13, 64)]

/-- A submission of core 3's job of this place in its order. -/
def passNth (order : Nat) (words : List Word) : Pass := ⟨5, 7, 0, 3, 0, 0x1000, order, words, [(2, 0x10000002), (3, 0x10000003)]⟩

theorem witness_WindowPasses :
    [Engine.hdg, .prv].all (fun e =>
      let h := sramHw passWords
      let wait := fun (h : Hw) (q : List Pass) => withPasses h e [passNth 0 []] q
      let read := fun (h : Hw) => (withPasses h e [] []).vaRead (passCache e) (passAgent e) 5 0x1000 128
      let g := (read h).1
      let d := passDesc (e = .prv) passWords
      let ready := withPasses h e [] [passNth 0 passWords]
      let w := ready.engine e
      calm h && decide ((h.engine e).waiting = []) && decide ((h.engine e).queue = []) && passRoom (wait h []) e (passNth 0 []) &&
        decide ((read h).2.2 = none) && decide (wordsOf (read h).2.1 32 = passWords) && decide ((read (sramHw [])).2.2 = none) &&
        decide ((passDesc (e = .prv) (wordsOf (read (sramHw [])).2.1 32)).early ≠ 0) && decide ((g.ctx 5).state = .idle) &&
        decide (d.early = 0 ∧ d.empty = false ∧ d.middle = 0 ∧ d.doneEn = false ∧ d.overlapBad = false) && (g.passPages e 5 d).2.isOk &&
        decide ((passLimits e).1 ≤ ((wait h (List.replicate 64 (passNth 1 []))).engine e).queue.length) &&
        decide (w.freePipe = some 0 ∧ w.nextPass (e = .prv) = some 0) && (ready.passData e (passNth 0 passWords) d).2.isOk &&
        decide ((w.pipes[0]?).isSome) && w.pipes.all (fun y => decide (y.pass = none)) && decide (w.pipes[(4 : Nat)]? = none)) = true := by
  decide +kernel

/-- Line-rate channel 2 of context 5, which masters port 0, in a module whose ticks run; the frame's lines are four pixels of one
sample. -/
def lineHw (words : List Word) (c : LineChan) : Hw :=
  let h : Hw := { sramHw words with sys.state := .run, frm.running := true }
  (h.setPort 0 { master := true, owner := 0x30005, links := 1 }).setLineChan 2 { c with desc := 0x1000, owner := some 5 }

def lineWords (w0 : Word) : List Word := wordsAt 32 [(0, w0), (1, 4)]

theorem witness_LineRateChannels :
    let read := fun (h : Hw) => (h.setLineChan 2 { h.lineChan 2 with owner := some 5 }).vaRead prvCache 5 5 0x1000 128
    let good := lineHw (lineWords 4) { reload := true }
    let bad := lineHw [] { reload := true }
    let line : QueuedLine := ⟨9, 4, false, 1, [1, 2, 3, 4]⟩
    let taking := fun (w0 : Word) (l : QueuedLine) (c : Option Nat) => lineHw [] { running := true, fifo := [l], words := lineWords w0, closing := c }
    let right := fun (w0 : Word) (l : QueuedLine) => let d := lineDesc (lineWords w0); (d.iw, decide (d.pix = 1), d.cin) = (l.width, l.wide, l.cin)
    let chk := fun (h : Hw) => h.lineCheck 5 2 (wordsOf (read h).2.1 32)
    let ranges := fun (new : LineDesc) => [(new.w, new.wBytes, false), (new.q, new.qBytes, false), (new.cblk, new.cBytes, false),
      (new.out, new.outBytes, true), (new.lab, new.labBytes, true), (new.ftab, 256, true)]
    (calm good = true ∧ good.lineFor 2 = some 5 ∧ good.ticksRun = true ∧ (read good).2.2 = none ∧ chk good = 0 ∧ (good.ctx 5).state = .idle) ∧
    (calm bad = true ∧ bad.lineFor 2 = some 5 ∧ (read bad).2.2 = none ∧ chk bad = 3) ∧
    (let new := lineDesc (lineWords 4)
     ((read good).1.feedRanges lineFeed 5 [] (ranges new)).2.isOk = true ∧ new.overlapBad = false ∧ ((read good).1.lineBlocks 5 [] new).2.isOk = true) ∧
    ((readyHw.lineChan 3).reload = false ∧ (readyHw.lineChan 3).fifo = [] ∧ (readyHw.lineChan 3).closing = none) ∧
    ([none, some 9].all (fun c => decide (((taking 4 line c).lineChan 2).closing = c) && calm (taking 4 line c)) = true) ∧
    (right 4 line ∧ ¬ right 4 { line with width := 3 } ∧ ¬ right 4 { line with wide := true } ∧ right 0x2C { line with cin := 3 } ∧
      (lineDesc (lineWords 4)).colour = false ∧ (lineDesc (lineWords 4)).layer = false ∧ (lineDesc (lineWords 0x2C)).colour = true) ∧
    ((taking 4 { line with frame := 10 } (some 9)).lineChan 2).fifo.all (fun l => decide (l.frame ≠ 9)) = true := by
  decide +kernel

/-! ### DMA -/

/-- A descriptor of `n` lines of `len` bytes from `src` to `dst`, in the memories of rank 0 of job 7 where a side is in core memory. -/
def dmaWords (w0 src dst len n stride : Word) : List Word := wordsAt 16 [(0, w0), (4, src), (5, 0x70000), (6, dst), (7, 0x70000),
  (8, len), (9, n), (10, stride), (11, len), (12, n), (13, stride), (14, 1)]

/-- Channel 127 of context 5 alone, running this descriptor; core 3 has the job. -/
def dmaHw (c : DmaChan) : Hw :=
  let h : Hw := { mappedHw ((wordsAt 17 [(0, 0x20), (14, 1), (16, 3)]).flatMap (fun w => bytesOf 4 w.toNat)) with
    dma.chans := [(127, { c with state := .running, slot := 5 })], atu.leaves := [⟨21, 5, 0, 0x40000000, 0, 0, true, true⟩] }
  h.setCore 3 jobCore3

theorem witness_descriptorSteps :
    let fetch := fun (desc : Dword) => dmaHw { desc := desc, done := 6 }
    let read := fun (h : Hw) => h.vaRead 21 1 5 (h.dmaChan 127).desc.toNat 64
    let paced : Word → Hw := fun (w0 : Word) => { dmaHw { words := (dmaWords w0 0 0 100 1 0).set 1 5, armed := true } with
      dma.held := [(3, 2)], dma.pulse := [(16, 7)], web.filtered := 0 }
    let ended := fun (w0 w1 link : Word) (x : Bool) => dmaHw { words := (((dmaWords w0 0 0 100 1 0).set 1 w1).set 14 link).set 15 0xFFFF, wr := 100, rd := 100, done := 0xFFFFFFFF, recheck := x }
    (calm (fetch 0x1000) = true ∧ (fetch 0x1000).dmaChan 127 = { desc := 0x1000, done := 6, state := .running, slot := 5 } ∧
      (read (fetch 0x1000)).2.2 = none ∧ (read (fetch 0x1000)).1.dmaCheck 127 5 (wordsOf (read (fetch 0x1000)).2.1 16) = 0) ∧
    ((read (fetch 0x1040)).2.2 = none ∧ (read (fetch 0x1040)).1.dmaCheck 127 5 (wordsOf (read (fetch 0x1040)).2.1 16) = 2 ∧ ((fetch 0x1040).ctx 5).state = .idle) ∧
    ((readyHw.dmaChan 0).state ≠ .running ∧ readyHw.eligible (readyHw.dmaChan 0) = false) ∧
    [0x4350, 0x4320, 0x5050].all (fun w0 => let h := paced w0; let c := h.dmaChan 127
      decide (h.dma.chans = [(127, c)]) && h.eligible c && decide (c.line = some (if w0 = 0x5050 then 16 else 3)) && decide (c.stage = [])) = true ∧
    [(0x50, 0, 0x11C1), (0x50, 0, 0x11C0)].all (fun w => let h := ended w.1 w.2.1 w.2.2 false; let c := h.dmaChan 127
      decide (c.words ≠ []) && decide (c.wr = (srcSide c.words).total) && decide (dmaField c.words 0 15 1 = 0 ∧ dmaField c.words 0 16 1 = 0) &&
        decide (dmaField c.words 14 0 1 = (w.2.2 &&& 1).toNat)) = true ∧
    (let h := (ended 0x8050 0x3FFF0000 1 true).setCounter 16383 ⟨0xFFFFFFFFFFFFFFFE, .owned, 5, false⟩
     dmaField (h.dmaChan 127).words 0 15 1 = 1 ∧ h.mayUse 5 (dmaField (h.dmaChan 127).words 1 16 14) = true ∧
      (h.counter (dmaField (h.dmaChan 127).words 1 16 14)).value.toNat + 1 < 2 ^ 64) := by
  decide +kernel

theorem witness_dmaBeats :
    let copy := dmaHw { words := dmaWords 0x50 0x20 0x3C 100 1 0 }
    let back := dmaHw { words := dmaWords 0x50 0 0 8 4 0xFFFFFFF0, rd := 8 }
    let last := dmaHw { words := dmaWords 0x50 0x20 0x3C 100 1 0, rd := 98, wr := 98 }
    let fill := fun (rd : Nat) => dmaHw { words := ((dmaWords 0x60 0x12345678 0x3C 100 1 0).set 5 0x9ABCDEF0).set 10 0, wr := rd }
    let out := dmaHw { words := dmaWords 0x50 0x20 0x3C 100 1 0, rd := 100, wr := 36, stage := [(List.range 10).map (fun i => (BitVec.ofNat 8 i, false)), List.replicate 54 (9, false)] }
    let side := fun (h : Hw) (f : List Word → Side) => f (h.dmaChan 127).words
    [copy, back, last].all (fun h => soleChan h 3 127 (h.dmaChan 127) && decide ((side h srcSide).spc = 1 ∧ (side h srcSide).pat ≠ 1 ∧
      (h.dmaChan 127).rd < (side h srcSide).total ∧ (h.dmaChan 127).stage = [] ∧ h.sideCore 5 (side h srcSide) = some 3) &&
      clean h 3 (coreAt (side h srcSide) (h.dmaChan 127).rd) (min (beatAt (side h srcSide) (h.dmaChan 127).rd) ((side h srcSide).total - (h.dmaChan 127).rd))) = true ∧
    (beatAt (side copy srcSide) 0 = 32 ∧ coreAt (side back srcSide) 8 = 0x3FFF0 ∧ beatAt (side last srcSide) 98 = 2) ∧
    [fill 0, fill 68].all (fun h => soleChan h 3 127 (h.dmaChan 127) && decide ((side h srcSide).spc = 2 ∧ (side h dstSide).spc = 1 ∧ (side h dstSide).pat ≠ 1 ∧
      (h.dmaChan 127).wr < (side h srcSide).total ∧ h.sideCore 5 (side h dstSide) = some 3) &&
      clean h 3 (coreAt (side h dstSide) (h.dmaChan 127).wr) (min (beatAt (side h dstSide) (h.dmaChan 127).wr) ((side h srcSide).total - (h.dmaChan 127).wr))) = true ∧
    (soleChan out 3 127 (out.dmaChan 127) = true ∧ (out.dmaChan 127).rd = (side out srcSide).total ∧ (out.dmaChan 127).wr < (side out srcSide).total ∧
      (out.dmaChan 127).stage.flatten.length = 64 ∧ (out.dmaChan 127).stage.flatten.all (fun b => !b.2) = true ∧ out.sideCore 5 (side out dstSide) = some 3 ∧
      beatAt (side out dstSide) 36 = 32 ∧ clean out 3 (coreAt (side out dstSide) 36) 32 = true) ∧
    (readyHw.dma.chans = [] ∧ calm readyHw = true) := by
  decide +kernel

/-! ### Cameras and output pulses -/

/-- Ports 4 to 7 are a group whose master is 4, with a link, owned by context 5. -/
def camHw : Hw :=
  (List.range 4).foldl (fun (h : Hw) i => h.setPort (4 + i) { master := i = 0, masterPort := 4, links := if i = 0 then 4 else 0, link := true
                                                              powered := true, owner := if i = 0 then 0x30005 else 0 }) ringHw

/-- This packet of function ring 0 is executing. -/
def doing (h : Hw) (p : Packet) (w : Waiting) : Hw := h.setRing (.fn 0) { h.ring (.fn 0) with exec := some ⟨p, w⟩ }

theorem witness_cameraPackets :
    let h := camHw
    let mask1 := [(4, (0xF0F07 : Word)), (5, 0xFFFFFFFF)]
    let idle := readyHw.setRing (.fn 0) liveRing
    let low := idle.setReg 0x2000008 13001
    let sums := fun (h : Hw) (w : Word) => ((leftOn h (fp 0x802 [w])).map (budgetOf h)).sum
    ([0x20104, 0x0104, 0x40104, 0x10301, 0xC0404, 0xC0407, 0x30005].all (fun w => fnPacket h 0 (fp 0x801 [w, 0]) 0x801 mask1) = true ∧
      groupOk (fp 0x801 [0x40104]) = false ∧ groupOk (fp 0x801 [0xC0407]) = false ∧ groupOk (fp 0x801 [0xC0404]) = true ∧
      groupOk (fp 0x801 [0x20105]) = true) ∧
    (h.isHandle 0x30005 = true ∧ h.isHandle 0x20005 = false ∧
      [0x30005, 0x20005].all (fun o => fnPacket h 0 (fp 0x801 [0xC0404, o]) 0x801 mask1) = true) ∧
    ([0x101, 0xFF, 0xFF00, 0, 0x8001].all (fun w => fnPacket idle 0 (fp 0x802 [w]) 0x802 [(4, 0xFFFF)]) = true ∧
      asksOn (fp 0x802 [0x101]) 0 = true ∧ asksOff (fp 0x802 [0x101]) 0 = true ∧ sums idle 0xF = 52000 ∧ sums idle 0x800F = 52000 ∧
      52000 < sums low 0xF ∧ 0 < budgetOf idle 7) ∧
    ([0, 7, 0x104].all (fun w => fnPacket h 0 (fp 0x803 [w, 0xFFFFFFFF, 0xFFFFFFFF]) 0x803 [(4, 0x107), (5, 0xFFFFFFFF), (6, 0xFFFFFFFF)]) = true ∧
      (h.port (h.groupOf 0)).link = false ∧ (h.port (h.groupOf 7)).link = true) ∧
    (calm h = true ∧ (doing h (fp 0x801 [0xC0404, 0x30005]) (.discovery 4)).findExec (.discovery 4) = some (.fn 0, fp 0x801 [0xC0404, 0x30005])) ∧
    (let g := doing h (fp 0x803 [4]) (.camCtrl 4)
     g.findExec (.discovery 4) = none ∧ g.findExec (.camCtrl 4) = some (.fn 0, fp 0x803 [4]) ∧ g.now ≤ (g.port 4).deadline) := by
  decide +kernel

theorem witness_cameraLines :
    (calm camHw = true ∧ (camHw.port 4).master = true ∧ (camHw.port 4).link = true ∧ (camHw.port 4).powered = true) ∧
    ((readyHw.port 0).link = false ∧ (readyHw.port 0).powered = false) ∧
    ((camHw.setPort 4 { camHw.port 4 with line := some ⟨1, 2⟩ }).port 4).line.isSome = true ∧
    ([PixFmt.mono8, .rgb8, .rgba8].map eightBit = [some 1, some 3, some 4] ∧ eightBit .other = none) := by
  decide +kernel

theorem witness_OutputPulses :
    let out := fun (run : Bool) (o : Nat) (x : Output) => ({ readyHw with sys.state := if run then .run else .ready, now := 6 }).setOutput o x
    let due : Pulse := ⟨.position true 9, 20, true⟩
    [(true, 0, some 5, false), (true, 11, some 5, false), (false, 0, some 5, false), (true, 7, none, false), (true, 11, some 5, true)].all (fun c =>
      let h := out c.1 c.2.1 { queue := [due, due], bound := c.2.2.1, orphan := c.2.2.2, activeUntil := some 9 }
      let x := h.output c.2.1
      calm h && decide (x.queue = due :: [due]) &&
        decide ((!decide (h.sys.state = .run) || x.bound.isNone || x.orphan) = (!c.1 || c.2.2.1.isNone || c.2.2.2))) = true ∧
    ((readyHw.output 11).queue = [] ∧ (readyHw.output 11).activeUntil = none ∧ (readyHw.output 11).forced = none) ∧
    ((out true 11 { activeUntil := some 9, forced := some (true, 5) }).output 11).activeUntil = some 9 ∧
    ((out true 11 { activeUntil := some 9, forced := some (true, 5) }).output 11).forced = some (true, 5) := by
  decide +kernel

/-! ### Memory care and Coppice -/

/-- An uncorrectable granule at `a`, the scrubber at `pos`, and this item left in the frame. -/
def scrubHw (a pos n : Nat) : Hw := { readyHw with mem.gran := [(a, .uncorrectable)], mem.scrubPos := pos, col.itemsLeft := [.scrub n], mem.cells := [(a, 3)] }

theorem witness_scrubbing :
    [(0, 0), (0x5FFFC0000, 0x5FFFFFFE0), (0x10002FFFFF8, 0x10002FFFFF8), (0x20000, 0)].all (fun x =>
      let h := scrubHw x.2 x.1 64
      calm h && decide (h.sys.state = .ready) && decide (h.col.itemsLeft = [.scrub 64]) && decide (h.mem.gran = [(x.2, .uncorrectable)])) = true ∧
    (scrubStop 0x5FFFC0000 262144 = 0x600000000 ∧ scrubStop 0x10002FFFFF8 64 = 0x10003000000 ∧ scrubStop 0 64 = 64) ∧
    (bits (readyHw.reg 0x1D028) 8 8 ≠ 0 ∧ readyHw.sys.stewardOn = true ∧ Hw.reset.sys.stewardOn = false ∧ Hw.reset.sys.state ≠ .ready ∧
      calm Hw.reset = true ∧ Hw.reset.col.itemsLeft = []) := by
  decide +kernel

/-- A test of this unit stands at `left` steps, with `k` of them in this frame. -/
def testHw (u : Word) (r : UnitRec) (k : Nat) : Hw := { readyHw.setUnitRec u.toNat r with col.itemsLeft := [.test u.toNat k] }

theorem witness_testsAndMaps :
    let job : Hw := { readyHw.setCore 3 jobCore3 with col.plan.jobs := [⟨5, 7, 0, 0, [3], [2], [], [], false, 0⟩] }
    let arr := ringHw.setArray 3 { run := some ⟨boundCmd 0, .narrow, 0, {}, 0, 0, false, 0, none, false, 0, 0, none, 0⟩ }
    let map := fun (n : Nat) => { readyHw with cpc.unstored := [7, 8], cpc.field := List.replicate n 9 }
    [0x30000011, 0x40000003].all (fun u => [0, 1, 16].all (fun l => let h := testHw u { left := l, count := 2 } 2
      calm h && decide (h.col.itemsLeft = [.test u.toNat 2]) && (decide (unitKind u.toNat = 3) || decide (unitKind u.toNat = 4)) &&
        decide ((h.unitRec u.toNat).left = l) && !(h.unitRec u.toNat).confirmed && h.cpc.units.all (fun e => !e.2.bad))) = true ∧
    ((job.core 3).run = .job ∧ (job.unitRec (0x30000000 + 3)).confirmed = false ∧ job.planOf 5 7 = some ⟨5, 7, 0, 0, [3], [2], [], [], false, 0⟩ ∧
      job.unfinished 5 7 = true ∧ (job.core 17).run ≠ .job) ∧
    ((arr.array 3).run.isSome = true ∧ (arr.ctx 5).state = .idle ∧ (arr.array 0).run = none) ∧
    (readyHw.sys.stewardOn = true ∧ readyHw.cpc.unstored = [] ∧ (map 1023).cpc.field.length < 1024 ∧ 1024 ≤ (map 1024).cpc.field.length ∧
      (map 1024).cpc.unstored = [7, 8]) := by
  decide +kernel

/-! ### Ethernet, the clock and the cages -/

/-- Port 1 has its link, is enabled, answers management datagrams, and may send to nobody but 10.0.0.x; cage 1 is supplied. -/
def ethHw : Hw :=
  let h : Hw := { readyHw with ptp.role := 2, ptp.mask := 3 }
  ((((h.setEthPort 1 { link := true, enabled := true, queue := [⟨1, 2, 3, 4, 5, [[6, 7]]⟩] }).setReg 0x20104 2).setReg 0x20120 0x0A000000).setReg 0x20124
    0xFFFFFF00).setCage 1 { plugged := some ⟨true, false, 1500, 10⟩ }

theorem witness_NetworkPorts :
    let h := ethHw
    let nop : Packet := ⟨1, 1, 0, 0, 7, 0, 0, List.replicate 12 0⟩
    (calm h = true ∧ mgmtOpen h 1 = true ∧ mgmtOpen h 0 = false ∧ listed h 1 0x0A0000FF = true ∧ listed h 1 0x0A000100 = false) ∧
    (nop.slots.toNat = 1 ∧ bits nop.flags 1 3 = 0 ∧ nop.rsv0 = 0 ∧ nop.word3 = 0 ∧ nop.opcode = 1 ∧ nop.handle = 0 ∧ onlyBits nop [] = true) ∧
    ((h.ethPort 0).link = false ∧ (h.ethPort 1).link = true ∧ (h.ethPort 1).enabled = true ∧ (h.ethPort 1).queue.length = 1 ∧
      (0x01020304 : Word) ≠ h.reg 0x20110) ∧
    (h.cageOn 1 = true ∧ h.cageOn 0 = false ∧ (h.cage 0).plugged = none ∧ (h.cage 1).plugged.isSome = true ∧
      ((h.setCage 3 { plugged := some ⟨true, true, 1500, 10⟩ }).cage 3).plugged.isSome = true ∧
      (h.setCage 3 { plugged := some ⟨true, true, 1500, 10⟩ }).cageOn 3 = true) := by
  decide +kernel

theorem witness_ClockServo :
    let h := ethHw
    let m := { h with ptp.hasMaster := true, ptp.slavePort := 1, ptp.states := [6, 6], ptp.good := 3, ptp.holdover := some 5 }
    ((h.ethPort 1).link = true ∧ h.ptp.role ≠ 0 ∧ h.ptp.mask.testBit 1 = true ∧ h.ptp.hasMaster = false) ∧
    (m.ptp.hasMaster = true ∧ m.ptp.slavePort = 1 ∧ m.ptp.role ≠ 0 ∧ m.ptp.holdover = some 5) ∧
    ((m.ethPort 1).enabled = true ∧ nth 0 m.ptp.states 1 = 6 ∧ nth 0 h.ptp.states 1 ≠ 6 ∧ h.ptp.holdover = none) ∧
    ([(1000000 : Int), -1000000, 1001, -800].map Int.natAbs = [1000000, 1000000, 1001, 800]) := by
  decide +kernel

/-! ### Links and the domain -/

/-- A ROUTE, a JOIN, a TICK, a BEACON and a SYNC_OP frame's payload. -/
def routeOf (origin : BitVec 14) (leaving : Bool) : LinkPayload := .route ⟨origin, 3, true, leaving, 400, 1⟩
def joinOf (op : Byte) (joiner : BitVec 14) : LinkPayload := .join ⟨op, 1, joiner, 0, 0, 9, 2, []⟩
def tickOf (fnum : BitVec 48) (realign : Bool) : TickPayload := ⟨fnum, true, false, realign, 70, 5⟩
def beaconOf (member : BitVec 14) (down : Bool) : BeaconPayload :=
  ⟨member, 6, 2, down, false, false, false, false, false, false, 1, 0, 0, 0, 0, 6, 6, 0, 3⟩
def syncOf (op : Byte) (value : Dword) : SyncPayload := ⟨op, 16383, 2, 1, value, 8, 0⟩

/-- A member of a domain, module 1 under leader 9, with link 7 UP to its parent 9 and link 2 to module 2; time 100 in RUN on the domain's
source. -/
def memberHw (l : Link) : Hw :=
  let h : Hw := { readyHw with
    now := 100, sys.state := .run, frm.running := true, frm.fnum := 5, frm.lastTick := 90, frm.ticked := true, act := [(0x1004, 6)]
    wml.joined := true, wml.id := 1, wml.leader := 9, wml.members := [9, 1], wml.parent := some 7, wml.ltime := 100 }
  (h.setLink 7 { l with state := .up, partner := 9 }).setLink 2 { l with state := .up, partner := 2 }

/-- The same module alone: leader of its own domain, and a member of none. -/
def leaderHw (l : Link) : Hw := { memberHw l with wml.leader := 1, wml.isLeader := true, wml.parent := none, wml.members := [1] }
def loneHw (l : Link) : Hw := { memberHw l with wml.joined := false, wml.parent := none, wml.members := [] }

theorem witness_LinkFrames :
    let ok : LinkFrame := ⟨false, 4095, 0, false, 0, 0, true, true, routeOf 2 false⟩
    let train := (((loneHw {}).setReg 0x22044 2).setLink 7 { inbox := [joinOf 1 4] }).setCage 3 { plugged := some ⟨true, true, 1500, 10⟩ }
    let kept := memberHw { rxSeq := 4095, replay := [(4094, routeOf 1 false), (4095, routeOf 1 false)], fails := 15, idleTime := some 9 }
    (calm train = true ∧ train.mayTrain 7 = true ∧ train.mayTrain 2 = false ∧ ({ train with wml.joined := true } : Hw).mayTrain 7 = true) ∧
    ((kept.link 7).state = .up ∧ (kept.link 0).state = .down ∧ ((kept.setLink 0 { state := .foreign }).link 0).state = .foreign) ∧
    (sequenced ok.payload = true ∧ seqAhead kept 7 ok = 0 ∧ seqAhead kept 7 { ok with seq := 4094 } = 4095 ∧ seqAhead kept 7 { ok with seq := 2047 } = 2048 ∧
      seqAhead kept 7 { ok with seq := 2046 } = 2047 ∧ sequenced (.syncOp (syncOf 7 0)) = false ∧ sequenced (.syncOp (syncOf 6 0)) = true) ∧
    ((kept.link 7).replay = [(4094, routeOf 1 false)] ++ ((4095 : BitVec 12).toNat, routeOf 1 false) :: [] ∧
      (kept.link 7).replay.all (fun e => decide (e.1 ≠ (3 : BitVec 12).toNat)) = true ∧ (kept.link 7).fails = 15) ∧
    ((kept.link 7).idleTime = some 9 ∧ (kept.link 0).idleTime = none ∧ kept.wml.parent = some 7) := by
  decide +kernel

theorem witness_DomainMembership :
    let masks := (4, (0x33FFF : Word)) :: (List.range 8).map (fun i => (8 + i, (0xFFFFFFFF : Word)))
    let ask := fun (h : Hw) => h.setRing (.fn 0) liveRing
    let lone := { loneHw { inbox := [routeOf 2 false, joinOf 2 4] } with wml.joining := some ⟨4, [2, 7], [], 90⟩ }
    let lead := leaderHw { inbox := [joinOf 1 4, routeOf 8 true] }
    let member := memberHw { inbox := [joinOf 1 4, routeOf 8 true] }
    let silent := { memberHw {} with wml.beaconFrames := 16, wml.links := [] }
    ([[0x33FFF], [5], [0x10005]].all (fun w => fnPacket (ask lone) 0 (fp 0xA01 w) 0xA01 masks && fnPacket (ask lead) 0 (fp 0xA01 w) 0xA01 masks) = true) ∧
    (calm lone = true ∧ lone.wml.joined = false ∧ lead.wml.joined = true ∧ lead.wml.isLeader = true ∧ lead.wml.joining = none) ∧
    ((lead.link 2).inbox = [] ++ joinOf 1 4 :: [routeOf 8 true] ∧ isJoin (joinOf 1 4) = true ∧
      (lone.link 2).inbox = [routeOf 2 false] ++ joinOf 2 4 :: [] ∧ isJoin (routeOf 2 false) = false) ∧
    ((⟨1, 1, 4, 0, 0, 9, 2, []⟩ : JoinPayload).joiner.toNat = 4 ∧ lone.wml.relays = [] ∧ [2, 7].contains (2 : Fin 8).val = true ∧
      joinable lead ⟨1, 1, 4, 0, 0, 9, 2, []⟩ = true ∧ joinable lead ⟨1, 1, 1, 0, 0, 9, 2, []⟩ = false) ∧
    ((member.link 2).state = .up ∧ (member.link 2).waiting = [] ∧ 1 ≤ nth 0 (member.link 2).credits 3 ∧ (member.link 2).replay.length < 2048) ∧
    ((member.link 2).inbox = [joinOf 1 4] ++ routeOf 8 true :: [] ∧ isRoute (joinOf 1 4) = false ∧ (8 : BitVec 14).toNat ≠ member.wml.id ∧
      (8 : BitVec 14).toNat ≠ (member.link 2).partner ∧ (member.link 0).inbox = []) ∧
    (leaderSilent silent = true ∧ leaderSilent member = false ∧ leaderSilent { member with frm.running := false } = true ∧
      (List.range 8).all (fun k => decide ((silent.link k).state ≠ .up)) = true) := by
  decide +kernel

theorem witness_DomainTicks :
    let t := tickOf 6 true
    let link : Link := { inbox := [.tick t, .beacon (beaconOf 2 false), .beacon (beaconOf 9 true), .syncOp (syncOf 1 7), .syncOp (syncOf 2 7)] }
    let h := { memberHw link with wml.ticks := [t], wml.sentBeacon := false }
    let lead := { leaderHw link with wml.sourceEvent := some 88, wml.sentBeacon := false }
    let catch_ := { h with wml.catchup := some 9 }
    let held := { h with wml.held := [⟨2, 8, 5, 7, 255⟩], wml.outs := [⟨4, 17, false, 0, 0, 255⟩] }
    let masks := [(4, (3 : Word)), (5, 0xFFFFFFFF), (6, 0xFFFF), (7, 0x3FFF)] ++ (List.range 8).map (fun i => (8 + i, (0xFFFFFFFF : Word)))
    let arm := ((((h.setRing (.fn 0) liveRing).setCtx 5 { state := .live }).setCtx 255 { state := .idle }).setCounter 9 { state := .owned, slot := 5 })
    let p := fp 0xA03 [2, 9, 0, 16383, 0x20]
    let owned := h.setCounter 16383 { value := 5, state := .owned, slot := 5, remote := true }
    (calm h = true ∧ t.fire ≤ h.wml.ltime ∧ usesDomain h = true ∧ usesDomain { h with act := [] } = false ∧ h.wml.swap = none ∧ h.frm.due = none ∧
      t.fnum = tickNumber h ∧ (tickOf 7 false).fnum ≠ tickNumber h ∧ h.wml.catchup = none ∧ h.wml.holding = false ∧ (memberHw {}).wml.ticks = []) ∧
    (lead.wml.sourceEvent = some 88 ∧ lead.wml.joined = true ∧ lead.wml.isLeader = true ∧ lead.wml.latch = false ∧ h.wml.sourceEvent = none) ∧
    (catch_.wml.catchup = some 9 ∧ catch_.frm.running = true ∧ catch_.frm.waiting = false ∧ catch_.frm.due = none ∧ (catch_.frm.fnum + 1).toNat ≠ 9) ∧
    (h.wml.joined = true ∧ h.wml.sentBeacon = false ∧ h.sys.state ≠ .tripped ∧ (memberHw {}).wml.sentBeacon = true) ∧
    ((h.link 2).inbox.take 3 = [.tick t] ++ .beacon (beaconOf 2 false) :: [.beacon (beaconOf 9 true)] ∧ isBeacon (.tick t) = false ∧
      h.wml.parent ≠ some 2 ∧ h.wml.parent = some 7 ∧ h.wml.isLeader = false) ∧
    (fnPacket arm 0 p 0xA03 masks = true ∧ ahead arm (quad p 5) = true ∧ armedSlots p = [5] ∧ armedSlots (fp 0xA03 []) = [] ∧
      arm.wml.swap = none ∧ (arm.ctx 5).state = .live ∧ (arm.ctx 5).swap = none ∧
      (arm.setCounter 16383 { state := .owned, slot := 5 }).mayUse 5 (field p 7 0 14) = true) ∧
    (owned.wml.joined = true ∧ (syncOf 1 7).target.toNat = owned.wml.id ∧ (owned.counter 16383).state = .owned ∧ (owned.counter 16383).remote = true ∧
      (owned.counter 16383).value < 7 ∧ owned.wml.held.length < 1024) ∧
    (held.wml.held[(0 : Nat)]? = some ⟨2, 8, 5, 7, 255⟩ ∧ held.wml.held[(1 : Nat)]? = none ∧ bits (held.reg 0x22024) 0 8 ≤ 255 ∧
      bits (held.reg 0x22024) 0 8 + 4 ≤ 255) := by
  decide +kernel

/-! ### The host interface -/

/-- Function 2 has vector 63 pending in an unmasked entry, and waits for MSI-X Enable. -/
def pendHw : Hw := readyHw.setFunc 2 { busMaster := true, memSpace := true, pending := 1 <<< 63, table := [(63, ⟨0xFEE00000, 1, 77, false⟩)] }

theorem witness_ConfigRequests :
    let h := readyHw
    let rec_ := { readyHw with sys.recovery := true, pci.crs := true, now := 350000000 }
    ([0, 2, 4].all (fun f => performed h f && nothingHeld h f) = true ∧ performed h 5 = false ∧ performed h 31 = false ∧ calm h = true) ∧
    (performed rec_ 0 = true ∧ performed { rec_ with now := 349999999 } 0 = false ∧ performed { rec_ with sys.recovery := false } 0 = false ∧
      performed { h with pci.up := false } 0 = false ∧ performed (h.setFunc 2 { cfgBusy := true }) 2 = false) ∧
    (h.pci.up = true ∧ exists_ h 2 = true ∧ (h.func 2).memSpace = true ∧ h.sys.everReady = true ∧ nothingHeld h 2 = true) ∧
    (let x := pendHw.func 2
     performed pendHw 2 = true ∧ x.msixOn = false ∧ x.busMaster = true ∧ x.d3hot = false ∧ x.held = [] ∧ x.funcMask = false ∧
      x.pending = 1 <<< (63 : Fin 64).val ∧ (Tbl.get {} x.table 63).masked = false) ∧
    (performed { h with pci.vfEnable := false } 0 = true) := by
  decide +kernel

theorem witness_HostAccesses :
    let h := ringHw
    (calm h = true ∧ bar4Open h = true ∧ bar4Open { h with sys.everReady := false } = false ∧ bar4Local 0x5FFFFFFFF 1 = some 0x5FFFFFFFF ∧
      bar4Local 0x5FFFFFFFF 2 = none ∧ bar4Local 0x600000000 1 = some 0x10000000000 ∧ bar4Local 0x602FFFFFC 4 = some 0x10002FFFFFC ∧
      bar4Local 0 0 = none ∧ (granules 0x10002FFFFFC 4).all (fun g => decide (h.gran g = .clean)) = true) ∧
    (bar4Outside 0x603000000 = true ∧ bar4Outside 0x602FFFFFF = false ∧ bar4Outside 0x6FFFFFFFF = true ∧ bar4Outside 0x700000000 = false ∧
      bar4Outside 0x7011FFFFF = false ∧ bar4Outside 0x701200000 = true) ∧
    (exists_ h 0 = true ∧ exists_ h 4 = true ∧ exists_ h 5 = false ∧ HostFail.ur ≠ .notIssued) ∧
    (h.sys.state ≠ .off ∧ h.pci.trainOn = true ∧ (8 : BitVec 4).toNat = 8 ∧ (5 : BitVec 3).toNat ≤ 5) ∧
    ((h.slotsOf 0).isEmpty = false ∧ (h.slotsOf 2).isEmpty = true) := by
  decide +kernel

/-! ### The memory's form: a state and a step -/

/-- A byte of memory is listed, and the waiting core instruction answers a next state. -/
theorem witness_EveryStepKeepsMemoryForm :
    let h := { readyHw with mem.cells := [(64, 7)] }
    memoryOk h = true ∧ (match step ⟨h, [.nopShort short3]⟩ with | .next _ => true | _ => false) = true := by
  decide +kernel

/-! ### Commands that are not well formed, and the check that refuses each -/

/-- A packet of one slot that does nothing. -/
def onePacket : Packet := ⟨0, 1, 0, 0, 0, 0, 0, List.replicate 12 0⟩

theorem test_ill_formed_commands :
    checkInstr (.movi short3 8 1) = some .encoding ∧
    checkInstr (.add short3 9 1 0) = some .encoding ∧
    checkInstr (.cmpeq short3 1 9 0) = some .encoding ∧
    checkInstr (.macR short3 0 3 20) = some .encoding ∧
    checkInstr (.vld long3 1 (.plain 0) 65) = some .elements ∧
    checkInstr (.nop (.fn 0) { onePacket with slots := 2 }) = some .packetLength ∧
    checkInstr (.registerRead ⟨.pf, 0x42, true⟩) = some .alignment ∧
    checkInstr (.meterSample ⟨List.replicate 23 0, [], [], 0⟩) = some .meters ∧
    checkInstr (.sensorSample ⟨List.replicate 65 0, 0, 24000⟩) = some .sensors ∧
    checkInstr (.lineDelivery 0 ⟨.rgb8, [1, 2, 3, 4], false⟩) = some .lineShape ∧
    checkInstr (.linkFrameReceive 0 ⟨false, 0, 0, false, 0, 0, true, true, .join ⟨1, 0, 5, 1, 0, 5, 1, [0]⟩⟩) = some .digest := by
  decide +kernel

theorem test_well_formed_commands :
    wellFormed (.add short3 1 3 0) = true ∧ wellFormed (.add long3 1 2 3) = true ∧ wellFormed (.vld long3 1 (.post 0 1) 64) = true ∧
    wellFormed (.nop (.fn 0) onePacket) = true ∧ wellFormed (.nop (.ctx 5) { onePacket with slots := 2, body := List.replicate 28 0 }) = true ∧
    wellFormed (.registerRead ⟨.pf, 0x44, true⟩) = true ∧ wellFormed (.registerRead ⟨.pf, 0x42, false⟩) = true ∧
    wellFormed (.meterSample ⟨List.replicate 24 0, [], [], 0⟩) = true ∧
    wellFormed (.lineDelivery 0 ⟨.rgb8, [1, 2, 3], false⟩) = true ∧ wellFormed .tick = true := by
  decide +kernel

/-! ### The manual's worked cases -/

/-- The parcels of the worked case of 09: `add s1, s3 || (!p2) ld.w s20, [g2]+=m1 || vadds.h v4, v4, v18`, by address; every other
parcel holds 0x1000, a `nop` that ends its bundle. -/
def workedParcels (n : Nat) : BitVec 14 :=
  if n = 0x200 then 0x008B else if n = 0x201 then 0x2544 else if n = 0x202 then 0x2845 else if n = 0x203 then 0x3085
  else if n = 0x204 then 0x0842 else 0x1000

theorem test_worked_bundle_decodes :
    (decodeBundle workedParcels 0x200).toOption = some
      [⟨0, false, false, .alu .add 1 1 3, 64⟩, ⟨2, true, true, .ld .w 20 (.post 2 1), 64⟩, ⟨0, false, true, .vop .addsH 4 4 18, 64⟩] := by
  decide +kernel

/-- With the long `add s20, s20, s3` in the first place, s20 is written twice. -/
def twiceWritten (n : Nat) : BitVec 14 :=
  if n = 0x1FF then 0x2002 else if n = 0x200 then 0x2943 else workedParcels n

theorem test_register_written_twice_traps :
    (match decodeBundle twiceWritten 0x1FF with | .error e => e | .ok _ => 0) = 2 := by
  decide +kernel

/-- `add s3, s3, s9 || vext s3, v2, s1` (09, the example under R256). -/
def extParcels (n : Nat) : BitVec 14 :=
  if n = 0 then 0x2002 else if n = 1 then 3 * 512 + 3 * 16 + 9 else if n = 2 then 0x30D2 else if n = 3 then 3 * 512 + 2 * 16 + 1 else 0x1000

theorem test_vext_and_add_of_one_register_trap :
    (match decodeBundle extParcels 0 with | .error e => e | .ok _ => 0) = 2 := by
  decide +kernel

/-- Register `r` of core 3 after one command. -/
def sAfter (k : Core) (i : Instr) (r : Nat) : Option Word :=
  match exec i (st (withCore k)) with
  | .next t => some ((t.hw.core 3).getS r)
  | _ => none

/-- The example under R272: a shift by 40 of 0x80000010. -/
theorem test_shr_by_40 : sAfter { jobCore3 with s := [(3, 0x80000010), (4, 40)] } (.shr long3 5 3 4) 5 = some 0xFFFFFFFF := by
  decide +kernel
theorem test_shru_by_40 : sAfter { jobCore3 with s := [(3, 0x80000010), (4, 40), (5, 9)] } (.shru long3 5 3 4) 5 = some 0 := by
  decide +kernel

/-- The example of `sat.a` in 16-bit mode: −2.5 gives −2, and +2.5 gives +3. -/
theorem test_sat_a_rounds_down :
    sAfter { jobCore3 with a := [(0, BitVec.ofInt 56 (-81920))] } (.satA long3 2 0 15) 2 = some (BitVec.ofInt 32 (-2)) := by decide +kernel
theorem test_sat_a_rounds_up : sAfter { jobCore3 with a := [(0, 81920)] } (.satA long3 2 0 15) 2 = some 3 := by decide +kernel

/-- The example under R196: 112,000 mW over 40,000 ns. -/
theorem test_budget :
    ({ readyHw with col.pstatic := 38000, col.hot := 0, col.plate := 0 }.budget 40000,
      bits (readyHw.reg Reg.colCap) 0 18) = (4480000, 150000) := by
  decide +kernel

/-- The scale word of R349, with and without POW2. -/
theorem test_scale_word :
    scaleValue false 0x9A34 = .fin false 1640 (-22) ∧ scaleValue true 0x9A34 = .fin false 1 (-12) := by decide +kernel

/-- The example under R354: acc 40,000, SA 2^−7, SW 0x9A34 and SO 2^8 give 31. -/
theorem test_requantise :
    let t := scaledOut (Fp.ofInt 40000) (scaleValue false 0x0039) (scaleValue false 0x9A34) (.fin false 0 (-149)) none
    quantise (t.mul (scaleValue false 0x0008)) 0 (-128) 127 = (31, false) := by
  decide +kernel

end Sys2Proof.Tests
end

section
/-! What taking a packet and replying to it do, said once for every opcode: the reply's host bytes (03 R66, R88), what each of them
leaves alone, and the checks common to all opcodes (03 R75). -/

namespace Sys2Proof.Machine

open Sys2Proof.Safety Sys2Proof.Claims

@[simp] theorem withPci_ring (h : Hw) (x : PciBlock) (rid : RingId) : ({ h with pci := x } : Hw).ring rid = h.ring rid := by
  cases rid <;> rfl

@[simp] theorem withRotor_ring (h : Hw) (n : Nat) (rid : RingId) : ({ h with rotor := n } : Hw).ring rid = h.ring rid := by
  cases rid <;> rfl

/-! ### Bytes that land in host memory -/

@[simp] theorem length_bytesOf (n v : Nat) : (bytesOf n v).length = n := by
  induction n generalizing v with
  | zero => rfl
  | succ n ih => simp [bytesOf, ih]

theorem bytesOf_zero (n : Nat) : bytesOf n 0 = List.replicate n 0 := by
  induction n with
  | zero => rfl
  | succ n ih => simp [bytesOf, ih, List.replicate_succ]

theorem hostPut_frame (h : Hw) (a : Nat) (l : List Byte) :
    h.hostPut a l = { h with pci := (h.hostPut a l).pci } := by
  induction l generalizing h a with
  | nil => rfl
  | cons b t ih => rw [Hw.hostPut, ih]

theorem hostByte_put (h : Hw) (a x : Nat) (b : Byte) :
    ({ h with pci.hostMem := Tbl.put h.pci.hostMem a b } : Hw).hostByte x = if x = a then b else h.hostByte x := by
  by_cases hx : x = a
  · simp [Hw.hostByte, hx, Tbl.find_put_same]
  · simp [Hw.hostByte, hx, Tbl.find_put_other _ _ hx]

theorem hostPut_hostByte_outside (h : Hw) (a x : Nat) (l : List Byte) (hx : x < a ∨ a + l.length ≤ x) :
    (h.hostPut a l).hostByte x = h.hostByte x := by
  induction l generalizing h a with
  | nil => rfl
  | cons b t ih =>
    rw [List.length_cons] at hx
    rw [Hw.hostPut, ih _ _ (by omega), hostByte_put, if_neg (by omega)]

theorem hostPut_hostByte_inside (h : Hw) (a i : Nat) (l : List Byte) (hi : i < l.length) :
    (h.hostPut a l).hostByte (a + i) = nth 0 l i := by
  induction l generalizing h a i with
  | nil => cases hi
  | cons b t ih =>
    rw [Hw.hostPut]
    cases i with
    | zero => rw [hostPut_hostByte_outside _ _ _ _ (by omega), hostByte_put]; simp [nth]
    | succ j =>
      rw [show a + (j + 1) = a + 1 + j by omega, ih _ _ _ (by simpa using hi)]
      simp [nth]

/-! ### A vector -/

/-- A vector is discarded, held or left pending in its function, or a message in flight (21 R579 to R581). -/
theorem requestVector_cases (h : Hw) (f v : Nat) :
    h.requestVector f v = h ∨ (∃ c, h.requestVector f v = h.setFunc f c) ∨
      (∃ m, h.requestVector f v = { h with pci.out := m :: h.pci.out }) := by
  simp only [Hw.requestVector, Hw.request]
  split
  · exact .inl rfl
  · split
    · exact .inr (.inl ⟨_, rfl⟩)
    · simp only [Hw.deliverVector]
      split
      · exact .inr (.inr ⟨_, rfl⟩)
      · exact .inr (.inl ⟨_, rfl⟩)

theorem requestVector_frame (h : Hw) (f v : Nat) : h.requestVector f v = { h with pci := (h.requestVector f v).pci } := by
  obtain heq | ⟨c, heq⟩ | ⟨m, heq⟩ := requestVector_cases h f v
  · rw [heq]
  · rw [heq, Hw.setFunc]
  · rw [heq]

theorem requestVector_hostMem (h : Hw) (f v : Nat) : (h.requestVector f v).pci.hostMem = h.pci.hostMem := by
  obtain heq | ⟨c, heq⟩ | ⟨m, heq⟩ := requestVector_cases h f v
  · rw [heq]
  · rw [heq, Hw.setFunc]
  · rw [heq]

@[simp] theorem requestVector_hostByte (h : Hw) (f v a : Nat) : (h.requestVector f v).hostByte a = h.hostByte a := by
  simp [Hw.hostByte, requestVector_hostMem]

/-! ### A reply -/

/-- The ring after a reply: its completion tail moves on, the phase turns where it wraps, and nothing executes (03 R65, R66). -/
def Ring.replied (r : Ring) : Ring :=
  { r with
    cqTail := (r.cqTail + 1) % r.cqSize
    phase := if r.cqTail + 1 = r.cqSize then !r.phase else r.phase
    exec := none }

/-- Where a ring's next completion entry goes (03 R66). -/
def Ring.replyAt (r : Ring) : Nat := (r.cqBase + BitVec.ofNat 64 (32 * r.cqTail)).toNat

theorem length_replyEntry (p : Packet) (status : Nat) (phase : Bool) (head : Nat) (result : List Byte) :
    (replyEntry p status phase head result).length = 32 := by
  simp [replyEntry]

/-- The reply of a ring whose function may master lands at the completion tail, and then its vector is requested. -/
theorem reply_of_mayMaster (h : Hw) (rid : RingId) (p : Packet) (status : Nat) (result : List Byte)
    (hm : (h.func (h.ringFunc rid)).mayMaster = true) :
    h.reply rid p status result =
      let r := h.ring rid
      let landed := (h.setRing rid r.replied).hostPut r.replyAt (replyEntry p status r.phase r.sqHead result)
      if bit p.flags 0 || r.intAll then landed.requestVector (h.ringFunc rid) r.vec else landed := by
  simp [Hw.reply, Ring.replied, Ring.replyAt, hm]

section
variable {h : Hw} {rid : RingId} {p : Packet} {status : Nat} {result : List Byte}

/-- A reply changes its ring and the PCIe block, and nothing else. -/
theorem reply_frame (hm : (h.func (h.ringFunc rid)).mayMaster = true) :
    h.reply rid p status result =
      { h.setRing rid (h.ring rid).replied with pci := (h.reply rid p status result).pci } := by
  rw [reply_of_mayMaster h rid p status result hm]
  dsimp only
  split
  · rw [requestVector_frame, hostPut_frame]
  · rw [hostPut_frame]

theorem reply_ring_same (hm : (h.func (h.ringFunc rid)).mayMaster = true) :
    (h.reply rid p status result).ring rid = (h.ring rid).replied := by
  rw [reply_frame hm, withPci_ring, Hw.setRing_ring_same]

/-- The bytes of host memory after a reply are those after its entry has landed: its vector writes none. -/
theorem reply_hostByte (hm : (h.func (h.ringFunc rid)).mayMaster = true) (a : Nat) :
    (h.reply rid p status result).hostByte a =
      ((h.setRing rid (h.ring rid).replied).hostPut (h.ring rid).replyAt
        (replyEntry p status (h.ring rid).phase (h.ring rid).sqHead result)).hostByte a := by
  rw [reply_of_mayMaster h rid p status result hm]
  dsimp only
  split
  · rw [requestVector_hostByte]
  · rfl

theorem reply_hostByte_inside (hm : (h.func (h.ringFunc rid)).mayMaster = true) {i : Nat} (hi : i < 32) :
    (h.reply rid p status result).hostByte ((h.ring rid).replyAt + i) =
      nth 0 (replyEntry p status (h.ring rid).phase (h.ring rid).sqHead result) i := by
  rw [reply_hostByte hm, hostPut_hostByte_inside _ _ _ _ (by rwa [length_replyEntry])]

theorem reply_hostByte_outside (hm : (h.func (h.ringFunc rid)).mayMaster = true) {a : Nat}
    (ha : a < (h.ring rid).replyAt ∨ (h.ring rid).replyAt + 32 ≤ a) :
    (h.reply rid p status result).hostByte a = h.hostByte a := by
  rw [reply_hostByte hm, hostPut_hostByte_outside _ _ _ _ (by rwa [length_replyEntry])]
  simp [Hw.hostByte]

end

/-! ### Taking a packet -/

/-- Consuming a packet changes its ring's head and sequence number and the rotation, and nothing else (03 R70, R71). -/
theorem consume_frame (h : Hw) (rid : RingId) (p : Packet) :
    h.consume rid p =
      { h.setRing rid { h.ring rid with
          sqHead := ((h.ring rid).sqHead + slotsTaken p) % (h.ring rid).sqSize, seq := p.seq + 1 } with
        rotor := (ringPlace rid + 1) % 288 } := rfl

theorem consume_ring_same (h : Hw) (rid : RingId) (p : Packet) :
    (h.consume rid p).ring rid = { h.ring rid with
      sqHead := ((h.ring rid).sqHead + slotsTaken p) % (h.ring rid).sqSize, seq := p.seq + 1 } := by
  rw [consume_frame, withRotor_ring, Hw.setRing_ring_same]

@[simp] theorem consume_pci (h : Hw) (rid : RingId) (p : Packet) : (h.consume rid p).pci = h.pci := by
  cases rid <;> rfl

@[simp] theorem consume_func (h : Hw) (rid : RingId) (p : Packet) (f : Nat) : (h.consume rid p).func f = h.func f := by
  simp [Hw.func]

@[simp] theorem consume_ringFunc (h : Hw) (rid q : RingId) (p : Packet) : (h.consume rid p).ringFunc q = h.ringFunc q := by
  cases rid <;> cases q <;> rfl

theorem taken_iff (h : Hw) (rid : RingId) (p : Packet) :
    taken h rid p = true ↔ calm h = true ∧ h.fetches rid = true ∧ slotsTaken p ≤ (h.ring rid).published ∧
      h.drainLeft rid = 0 ∧ h.heldBack rid p = false := by
  simp [taken, and_assoc]

/-- A ring is served only while its function may master, so the reply of a packet that is taken is not held (21 R579). -/
theorem consume_mayMaster {h : Hw} {rid : RingId} {p : Packet} (ht : taken h rid p = true) :
    ((h.consume rid p).func ((h.consume rid p).ringFunc rid)).mayMaster = true := by
  obtain ⟨-, hfetch, -⟩ := (taken_iff h rid p).mp ht
  simp only [Hw.fetches, Bool.and_eq_true] at hfetch
  simp [hfetch]

theorem headed_iff (h : Hw) (rid : RingId) (p : Packet) (code n : Nat) :
    headed h rid p code n = true ↔ taken h rid p = true ∧ p.opcode.toNat = code ∧ p.slots.toNat = n ∧
      bits p.flags 1 3 = 0 ∧ p.rsv0 = 0 ∧ p.word3 = 0 ∧ p.seq = (h.ring rid).seq := by
  simp [headed, and_assoc]

/-- A packet that is taken, and whose checks and opcode answer at once, is replied to. -/
theorem packet_of_reply {h h' : Hw} {rid : RingId} {p : Packet} {b : OpBody} {status : Nat} {result : List Byte}
    (ht : taken h rid p = true) (hop : p.opcode.toNat = b.code)
    (hrun : (h.consume rid p).runPacket h rid p b = (h', .reply status result)) :
    h.packet rid p b = h'.reply rid p status result := by
  obtain ⟨-, hfetch, hpub, hdrain, hheld⟩ := (taken_iff h rid p).mp ht
  simp [Hw.packet, hop, hfetch, hdrain, hheld, Nat.not_lt.mpr hpub, hrun]

/-! ### The checks common to all opcodes -/

theorem firstFail_eq_none_iff (l : List Check) : firstFail l = none ↔ ∀ c ∈ l, c.1 = false := by
  induction l with
  | nil => simp [firstFail]
  | cons c t ih =>
    obtain ⟨b, s, o⟩ := c
    cases b <;> simp [firstFail, ih]

/-- A headed packet of 1 to 8 slots passes steps 1 to 3 of R75. -/
theorem formChecks_of_headed {h : Hw} {rid : RingId} {p : Packet} {code n : Nat} (hh : headed h rid p code n = true)
    (hlo : 1 ≤ n) (hhi : n ≤ 8) : firstFail (h.formChecks rid p) = none := by
  obtain ⟨-, -, hslots, hflags, hrsv, hword, hseq⟩ := (headed_iff h rid p code n).mp hh
  rw [firstFail_eq_none_iff]
  simp [Hw.formChecks, hslots, hflags, hrsv, hword, hseq, Nat.one_le_iff_ne_zero.mp hlo, hhi]

/-- A packet that passes every check answers by its opcode's own part. -/
theorem runPacket_of_checks {h h0 : Hw} {rid : RingId} {p : Packet} {b : OpBody} {row : OpRow} {c : Cmd}
    (hform : firstFail (h0.formChecks rid p) = none) (hrow : opRow p.opcode.toNat = some row)
    (hchecks : firstFail (h0.rowChecks rid p row) = none)
    (hc : c = ⟨rid, p, h0.ringFunc rid, (namedSlot rid row p.handle).getD 0⟩) (hres : c.reserved (b.masks c) = none) :
    h.runPacket h0 rid p b = b.run c h := by
  subst hc
  simp only [Hw.runPacket, hform, hrow, hchecks, hres]

/-- A one-slot packet in which only the named bits are set holds no reserved bit (04 R91). -/
theorem reserved_of_onlyBits {p : Packet} {masks : List (Nat × Word)} (hb : onlyBits p masks = true)
    (hslots : p.slots.toNat = 1) (rid : RingId) (func slot : Nat) :
    (Cmd.mk rid p func slot).reserved masks = none := by
  have hw : ∀ n < 16, (Cmd.mk rid p func slot).w n = word p n := fun n hn => by simp [Cmd.w, word, hslots, hn]
  simp only [onlyBits, List.all_eq_true, List.mem_range] at hb
  simp only [Cmd.reserved, hslots, Nat.mul_one, List.find?_eq_none, List.mem_range]
  intro n hn
  rw [hw n hn]
  have hclear := hb n hn
  simp only [Bool.or_eq_true, decide_eq_true_eq] at hclear
  rcases hclear with hhead | hzero
  · simp [Nat.not_le.mpr hhead]
  · simpa using fun _ => hzero

end Sys2Proof.Machine
end

section
/-! NOP (04 R97). -/

namespace Sys2Proof.Machine

open Sys2Proof.Safety Sys2Proof.Claims

/-- The HANDLE that a packet of no context carries on each kind of ring: 0 on a function ring, and on a context ring the current
handle of its context, which is not RESETTING (03 R76, 05 R153). -/
def ringHandle (h : Hw) (p : Packet) : RingId → Prop
  | .fn _ => p.handle = 0
  | .ctx n => p.handle = h.handleOf n ∧ p.handle ≠ 0 ∧ bits p.handle 0 16 = n.val ∧ (h.ctx n).state ≠ .resetting

/-- NOP stands on every ring and has 1 to 8 slots. -/
def nopRow : OpRow := ⟨0x0001, true, true, false, false, 1, 8⟩

theorem opRow_nop : opRow 1 = some nopRow := rfl

/-- The low and the middle byte of a handle whose low half names a slot below 256. -/
theorem bits_of_low_half {w : Word} {n : Fin 256} (hw : bits w 0 16 = n.val) : bits w 0 8 = n.val ∧ bits w 8 8 = 0 := by
  have hn := n.isLt
  simp only [bits, Nat.shiftRight_eq_div_pow] at hw ⊢
  omega

/-- A NOP with its ring's handle passes steps 5 to 8 of R75. -/
theorem rowChecks_nop {h : Hw} {rid : RingId} {p : Packet} (hslots : p.slots.toNat = 1) (hhd : ringHandle h p rid)
    (hst : stateAccepts h.sys.state 1 = true) : firstFail (h.rowChecks rid p nopRow) = none := by
  rw [firstFail_eq_none_iff]
  cases rid with
  | fn f =>
    have hz : p.handle = 0 := hhd
    simp [Hw.rowChecks, Hw.handleChecks, Hw.stateChecks, namedSlot, nopRow, hslots, hst, hz, bits]
  | ctx n =>
    obtain ⟨hcur, hne, hlow, hreset⟩ := hhd
    obtain ⟨hslot, hmid⟩ := bits_of_low_half hlow
    simpa [Hw.rowChecks, Hw.handleChecks, Hw.stateChecks, namedSlot, nopRow, hslots, hst, hslot, hmid, hreset,
      faultedAccepts, ← hcur] using hne

theorem exec_nop (rid : RingId) (p : Packet) (s : State) : exec (.nop rid p) s = act (·.packet rid p pktNop) s := rfl

/-- A NOP is consumed and answered OK with no result, and has no other effect. -/
theorem exec_nop_of_headed {s : State} {rid : RingId} {p : Packet} (hh : headed s.hw rid p 1 1 = true) (hb : onlyBits p [] = true)
    (hst : stateAccepts s.hw.sys.state 1 = true) (hhd : ringHandle s.hw p rid) :
    exec (.nop rid p) s = hwNext s ((s.hw.consume rid p).reply rid p 0 (resultOf [])) := by
  obtain ⟨ht, hop, hslots, -⟩ := (headed_iff s.hw rid p 1 1).mp hh
  obtain ⟨hcalm, -⟩ := (taken_iff s.hw rid p).mp ht
  have hrow : opRow p.opcode.toNat = some nopRow := by rw [hop, opRow_nop]
  have hrun : (s.hw.consume rid p).runPacket s.hw rid p pktNop = (s.hw.consume rid p, .reply 0 (resultOf [])) := by
    rw [runPacket_of_checks (b := pktNop) (formChecks_of_headed hh (by omega) (by omega)) hrow
      (rowChecks_nop hslots hhd hst) rfl (reserved_of_onlyBits hb hslots _ _ _)]
    rfl
  have hpkt : s.hw.packet rid p pktNop = (s.hw.consume rid p).reply rid p 0 (resultOf []) :=
    packet_of_reply ht hop hrun
  have hcores : (s.hw.packet rid p pktNop).cores = s.hw.cores := by
    rw [hpkt, reply_frame (consume_mayMaster ht)]
    simp [consume_frame]
  rw [exec_nop, act_calm (calm_of_cores hcalm hcores), hpkt, hwNext]

/-- The completion entry of a NOP (03 R88). -/
theorem replyEntry_nop {p : Packet} (hop : p.opcode.toNat = 1) (phase : Bool) (head : Nat) :
    replyEntry p 0 phase head (resultOf []) =
      bytesOf 4 p.seq.toNat ++ bytesOf 4 (0x10000 : Nat) ++ bytesOf 4 p.handle.toNat ++
        bytesOf 4 (head % 65536 + if phase then 2 ^ 31 else 0) ++ List.replicate 16 0 := by
  cases phase <;> simp [replyEntry, resultOf, hop, bytesOf_zero]

/-- Settles O37: a NOP's packet passes every check, so it is consumed and answered OK; the bytes are those of its completion entry, and
neither step touches what the statement frames. -/
theorem nopReplies : Obligations.NopReplies := by
  unfold Obligations.NopReplies
  intro s rid p hh hb hst hhd
  have hring : ringHandle s.hw p rid := by cases rid <;> exact hhd
  obtain ⟨ht, hop, hslots, -⟩ := (headed_iff s.hw rid p 1 1).mp hh
  have hm := consume_mayMaster ht
  have hone : slotsTaken p = 1 := by simp [slotsTaken, hslots]
  have hcons := consume_ring_same s.hw rid p
  rw [hone] at hcons
  refine ⟨_, exec_nop_of_headed hh hb hst hring, ?_, ?_, ?_, ?_⟩
  · rw [reply_ring_same hm, hcons]
    rfl
  · intro i hi
    have := reply_hostByte_inside (p := p) (status := 0) (result := resultOf []) hm hi
    rwa [hcons, replyEntry_nop hop] at this
  · intro a ha
    have := reply_hostByte_outside (p := p) (status := 0) (result := resultOf []) (a := a) hm (by rw [hcons]; exact ha)
    simpa [Hw.hostByte] using this
  · rw [reply_frame hm]
    simp [consume_frame]

end Sys2Proof.Machine
end

section
/-! The scalar ALU and the predicate operations (10 R272 to R274): what each operation's value is in the spec's words, and that an
instruction of these that fills its bundle writes this value to one register and does nothing else. -/

namespace Sys2Proof.Machine

open Sys2Proof.Safety Sys2Proof.Claims

/-! ### Immediates -/

theorem signed_eq_toInt {n : Nat} (hn : 0 < n) (v : Nat) : signed n v = (BitVec.ofNat n v).toInt := by
  have hpow : 2 ^ n = 2 * 2 ^ (n - 1) := by rw [← Nat.pow_succ', Nat.succ_eq_add_one, Nat.sub_add_cancel hn]
  simp only [signed, BitVec.toInt_eq_toNat_cond, BitVec.toNat_ofNat]
  split <;> split <;> omega

theorem simm_eq_signExtend {n : Nat} (hn : 0 < n) (v : Nat) : simm n v = (BitVec.ofNat n v).signExtend 32 := by
  rw [simm, signed_eq_toInt hn, BitVec.signExtend]

/-- The immediate of a field as wide as the immediate. -/
theorem simm_toNat {n : Nat} (hn : 0 < n) (x : BitVec n) : simm n x.toNat = x.signExtend 32 := by
  rw [simm_eq_signExtend hn, BitVec.ofNat_toNat, BitVec.setWidth_eq]

/-- The short form of addi takes the low three bits of the field as simm3. -/
theorem simm3_toNat (x : BitVec 9) : simm 3 x.toNat = (x.setWidth 3).signExtend 32 := by
  rw [simm_eq_signExtend (by omega), BitVec.ofNat_toNat]

theorem ofNat_mod8 (x : BitVec 9) : BitVec.ofNat 32 (x.toNat % 8) = (x.setWidth 3).setWidth 32 := by
  apply BitVec.eq_of_toNat_eq
  simp

theorem toNat_and7 (u : BitVec 5) : (u &&& 7).toNat = u.toNat % 8 :=
  Nat.and_two_pow_sub_one_eq_mod u.toNat 3

/-! ### Values of the scalar ALU, where the model says them in other words than R272 and R273 -/

theorem aluEval_mul (x y : Word) : aluEval .mul x y = BitVec.ofInt 32 (x.toInt * y.toInt) := by
  rw [BitVec.ofInt_mul, BitVec.ofInt_toInt, BitVec.ofInt_toInt, aluEval]

theorem aluEval_min (x y : Word) : aluEval .min x y = if x.toInt < y.toInt then x else y := by
  rcases Int.lt_trichotomy x.toInt y.toInt with h | h | h
  · simp only [aluEval, if_pos h, if_pos (Int.le_of_lt h)]
  · simp only [aluEval, BitVec.eq_of_toInt_eq h, ite_self]
  · simp only [aluEval, if_neg (Int.not_le.mpr h), if_neg (Int.not_lt.mpr (Int.le_of_lt h))]

theorem aluEval_max (x y : Word) : aluEval .max x y = if x.toInt < y.toInt then y else x := by
  rcases Int.lt_trichotomy x.toInt y.toInt with h | h | h
  · simp only [aluEval, if_pos h, if_pos (Int.le_of_lt h)]
  · simp only [aluEval, BitVec.eq_of_toInt_eq h, ite_self]
  · simp only [aluEval, if_neg (Int.not_le.mpr h), if_neg (Int.not_lt.mpr (Int.le_of_lt h))]

theorem toWord_satInt (v : Int) : toWord (satInt 32 v) = satWord v := rfl

theorem aluEval_shl (x y : Word) : aluEval .shl x y = if 32 ≤ y.toNat then 0 else x <<< y.toNat := by
  split
  · exact BitVec.shiftLeft_eq_zero ‹_›
  · rfl

theorem aluEval_shru (x y : Word) : aluEval .shru x y = if 32 ≤ y.toNat then 0 else x >>> y.toNat := by
  split
  · exact BitVec.ushiftRight_eq_zero ‹_›
  · rfl

/-- An arithmetic shift by the width or more leaves the sign in every bit (R273). -/
theorem sshiftRight_of_le {x : Word} {n : Nat} (h : 32 ≤ n) : x.sshiftRight n = if x.msb then 0xFFFFFFFF else 0 := by
  cases hm : x.msb with
  | false => rw [BitVec.sshiftRight_eq_of_msb_false hm, BitVec.ushiftRight_eq_zero h]; rfl
  | true => rw [BitVec.sshiftRight_eq_of_msb_true hm, BitVec.ushiftRight_eq_zero h]; rfl

theorem aluEval_shr (x y : Word) :
    aluEval .shr x y = if 32 ≤ y.toNat then (if x.msb then 0xFFFFFFFF else 0) else x.sshiftRight y.toNat := by
  split
  · exact sshiftRight_of_le ‹_›
  · rfl

/-! ### Compares with an immediate (R274) -/

theorem cmpEval_eq_simm6 (x : Word) (n : BitVec 6) : cmpEval .eq x (simm 6 n.toNat) = decide (x = n.signExtend 32) := by
  rw [simm_toNat (by omega), cmpEval]

theorem cmpEval_lt_simm6 (x : Word) (n : BitVec 6) : cmpEval .lt x (simm 6 n.toNat) = decide (x.toInt < n.toInt) := by
  rw [simm_toNat (by omega), cmpEval, BitVec.toInt_signExtend_of_le (by omega)]

/-! ### The form of an instruction -/

theorem slotAt_long_of_noShort {loc : At} {op : CoreOp} {n : Nat} (hs : encodeShort op = none) : (slotAt loc op n).long = true := by
  simp [slotAt_long, hs]

theorem slotAt_long_of_noLong {loc : At} {op : CoreOp} {n : Nat} (hs : (encodeShort op).isNone = false) (hl : encodeLong op = none) :
    (slotAt loc op n).long = false := by
  simp [slotAt_long, hs, hl]

theorem slotAt_long_of_both {loc : At} {op : CoreOp} {n : Nat} (hs : (encodeShort op).isNone = false)
    (hl : (encodeLong op).isNone = false) : (slotAt loc op n).long = loc.long := by
  simp [slotAt_long, hs, hl]

theorem rrOp_long {loc : At} (h : loc.long = true) (op : AluOp) (d a b : Fin 32) : rrOp loc op d a b = .alu op d a b := by
  simp [rrOp, h]

theorem rrOp_short {loc : At} (h : loc.long = false) (op : AluOp) (d a b : Fin 32) : rrOp loc op d a b = .alu op d d a := by
  simp [rrOp, h]

/-! ### An instruction that writes one register -/

/-- The operations of the scalar ALU and on predicate registers. -/
def scalarOp : CoreOp → Bool
  | .alu .. | .mov .. | .imm .. | .shift .. | .cmp .. | .cmpImm .. | .pand .. | .por .. | .pnot .. => true
  | _ => false

/-- These operations are legal, make no access, never stall, trap or need the vector unit. -/
theorem scalarOp_plain {op : CoreOp} (h : scalarOp op = true) (k : Core) :
    plainOp op = true ∧ goesOn op = true ∧ opLegal op = true ∧ unitOf op = .a ∧ k.plainTrap op = none := by
  cases op with
  | alu | mov | imm | shift | cmp | cmpImm | pand | por | pnot => exact ⟨rfl, rfl, rfl, rfl, rfl⟩
  | _ => cases h

theorem withP_eq_putP (k : Core) (pd : Fin 8) (v : Bool) : withP k pd v = k.putP pd v := by
  simp only [withP, Core.putP, Fin.val_eq_zero_iff]

theorem ends_putS (k : Core) (d : Nat) (v : Word) (long : Bool) :
    ({ k with ran := true, synEnded := false }.applyRegs { s := [(d, v)] }).finish (if long then 2 else 1) none =
      ends (k.putS d v) long := rfl

theorem ends_putP (k : Core) (pd : Nat) (v : Bool) (long : Bool) :
    ({ k with ran := true, synEnded := false }.applyRegs { p := [(pd, v)] }).finish (if long then 2 else 1) none =
      ends (k.putP pd v) long := by
  have hput : { k with ran := true, synEnded := false }.putP pd v = { k.putP pd v with ran := true, synEnded := false } := by
    unfold Core.putP
    split <;> rfl
  rw [ends, ← hput]
  rfl

section
variable {s : State} {loc : At} {op : CoreOp} {i : Instr} {long : Bool}

/-- The register writes of one of these operations and the end of its bundle are all it does. -/
theorem issue_scalar {f : Fx} (hop : scalarOp op = true) (hlong : (slotAt loc op 64).long = long)
    (hready : ready s.hw loc long = true)
    (hfx : (s.hw.core loc.core).plainFx (if long then 2 else 1) op = f) (hact : f.act = .none) (hm : f.multi = none)
    (hs : f.stores = []) :
    issueOp loc op 64 s = coreNext s loc.core
      (({ s.hw.core loc.core with ran := true, synEnded := false }.applyRegs f).finish (if long then 2 else 1) none) := by
  subst hfx
  obtain ⟨hp, hgo, hlegal, hunit, htrap⟩ := scalarOp_plain hop (s.hw.core loc.core)
  exact issue_plain s loc op long hlong hready hp hgo hlegal (by simp [hunit]) htrap hact hm hs

/-- What R272 says of a row of `scalarRows`: at a bundle boundary with its guard true, it writes sd and ends its bundle. -/
def WritesS (s : State) (loc : At) (d : Fin 32) (r : Instr × Bool × Word) : Prop :=
  ready s.hw loc r.2.1 = true → exec r.1 s = coreNext s loc.core (ends ((s.hw.core loc.core).putS d r.2.2) r.2.1)

/-- What R274 says of a row of `predicateRows`: it writes its predicate, unless that is p0, and ends its bundle. -/
def WritesP (s : State) (loc : At) (r : Instr × Bool × Fin 8 × Bool) : Prop :=
  ready s.hw loc r.2.1 = true →
    exec r.1 s = coreNext s loc.core (ends (withP (s.hw.core loc.core) r.2.2.1 r.2.2.2) r.2.1)

theorem writesS_of_plainFx {d : Fin 32} {v : Word} (hexec : exec i s = issueOp loc op 64 s) (hop : scalarOp op = true)
    (hlong : (slotAt loc op 64).long = long)
    (hfx : (s.hw.core loc.core).plainFx (if long then 2 else 1) op = { s := [(d.val, v)] }) : WritesS s loc d (i, long, v) :=
  fun hready => by rw [hexec, issue_scalar hop hlong hready hfx rfl rfl rfl, ends_putS]

theorem writesP_of_plainFx {pd : Fin 8} {v : Bool} (hexec : exec i s = issueOp loc op 64 s) (hop : scalarOp op = true)
    (hlong : (slotAt loc op 64).long = long)
    (hfx : (s.hw.core loc.core).plainFx (if long then 2 else 1) op = { p := [(pd.val, v)] }) : WritesP s loc (i, long, pd, v) := by
  intro hready
  rw [hexec, issue_scalar hop hlong hready hfx rfl rfl rfl, ends_putP, withP_eq_putP]

variable {d a b : Fin 32} {v : Word}

theorem writesS_alu {x : AluOp} (hexec : exec i s = issueOp loc (.alu x d a b) 64 s)
    (hlong : (slotAt loc (.alu x d a b) 64).long = long)
    (hv : aluEval x ((s.hw.core loc.core).getS a) ((s.hw.core loc.core).getS b) = v) : WritesS s loc d (i, long, v) :=
  writesS_of_plainFx hexec rfl hlong (by rw [Core.plainFx_alu, hv])

/-- A three-operand instruction in its long form. -/
theorem writesS_rr_long {x : AluOp} (hl : loc.long = true) (hexec : exec i s = issueOp loc (rrOp loc x d a b) 64 s)
    (hs : (encodeShort (.alu x d a b)).isNone = false)
    (hv : aluEval x ((s.hw.core loc.core).getS a) ((s.hw.core loc.core).getS b) = v) : WritesS s loc d (i, true, v) :=
  writesS_alu (rrOp_long hl x d a b ▸ hexec) ((slotAt_long_of_both hs rfl).trans hl) hv

/-- A short RR form: sd = sd op sa. -/
theorem writesS_rr_short {x : AluOp} (hl : loc.long = false) (hexec : exec i s = issueOp loc (rrOp loc x d a b) 64 s)
    (hs : (encodeShort (.alu x d d a)).isNone = false)
    (hv : aluEval x ((s.hw.core loc.core).getS d) ((s.hw.core loc.core).getS a) = v) : WritesS s loc d (i, false, v) :=
  writesS_alu (rrOp_short hl x d a b ▸ hexec) ((slotAt_long_of_both hs rfl).trans hl) hv

theorem writesS_imm {x : ImmOp} {n : Word} (hexec : exec i s = issueOp loc (.imm x d n) 64 s)
    (hlong : (slotAt loc (.imm x d n) 64).long = long) (hv : immEval x ((s.hw.core loc.core).getS d) n = v) :
    WritesS s loc d (i, long, v) :=
  writesS_of_plainFx hexec rfl hlong (by rw [Core.plainFx_imm, hv])

theorem writesS_shift {x : ShiftOp} {n : BitVec 5} (hexec : exec i s = issueOp loc (.shift x d n) 64 s)
    (hlong : (slotAt loc (.shift x d n) 64).long = long)
    (hv : shiftEval x ((s.hw.core loc.core).getS d) n.toNat = v) : WritesS s loc d (i, long, v) :=
  writesS_of_plainFx hexec rfl hlong (by rw [Core.plainFx_shift, hv])

end

/-- Every scalar ALU instruction writes its result to sd: each row is its operation's rule, its form and its value. -/
theorem writesS_of_mem_scalarRows (s : State) (loc : At) (d a b : Fin 32) (n : BitVec 9) (u : BitVec 5) :
    ∀ r ∈ scalarRows (s.hw.core loc.core) loc d a b n u, WritesS s loc d r := by
  simp only [scalarRows, List.forall_mem_append]
  constructor
  · simp only [List.forall_mem_cons]
    exact ⟨writesS_alu rfl (slotAt_long_of_noShort rfl) (aluEval_mul _ _),
      writesS_alu rfl (slotAt_long_of_noShort rfl) (aluEval_min _ _),
      writesS_alu rfl (slotAt_long_of_noShort rfl) (aluEval_max _ _),
      writesS_alu rfl (slotAt_long_of_noShort rfl) (toWord_satInt _),
      writesS_alu rfl (slotAt_long_of_noShort rfl) (toWord_satInt _),
      writesS_alu rfl (slotAt_long_of_noShort rfl) (aluEval_shl _ _),
      writesS_alu rfl (slotAt_long_of_noShort rfl) (aluEval_shr _ _),
      writesS_alu rfl (slotAt_long_of_noShort rfl) (aluEval_shru _ _),
      writesS_imm rfl (slotAt_long_of_noShort rfl) (by rw [simm_toNat (by omega)]; rfl),
      writesS_imm rfl (slotAt_long_of_noShort rfl) rfl,
      writesS_imm rfl (slotAt_long_of_noShort rfl) rfl,
      writesS_shift rfl (slotAt_long_of_noShort rfl) rfl,
      writesS_of_plainFx (op := .mov d a) rfl rfl (slotAt_long_of_noLong rfl rfl) rfl,
      List.forall_mem_nil _⟩
  · cases hl : loc.long with
    | true =>
      have hform {op : CoreOp} (hs : (encodeShort op).isNone = false) (he : (encodeLong op).isNone = false) :
          (slotAt loc op 64).long = true := (slotAt_long_of_both hs he).trans hl
      simp only [if_true, List.forall_mem_cons]
      exact ⟨writesS_rr_long (x := .add) hl rfl rfl rfl, writesS_rr_long (x := .sub) hl rfl rfl rfl,
        writesS_rr_long (x := .and) hl rfl rfl rfl, writesS_rr_long (x := .or) hl rfl rfl rfl,
        writesS_rr_long (x := .xor) hl rfl rfl rfl,
        writesS_imm rfl (hform rfl rfl) (by rw [if_pos hl, simm_toNat (by omega)]; rfl),
        writesS_imm rfl (hform rfl rfl) (by rw [if_pos hl, simm_toNat (by omega)]; rfl),
        writesS_shift rfl (hform rfl rfl) (by rw [if_pos hl]; rfl),
        writesS_shift rfl (hform rfl rfl) (by rw [if_pos hl]; rfl),
        List.forall_mem_nil _⟩
    | false =>
      have hform {op : CoreOp} (hs : (encodeShort op).isNone = false) (he : (encodeLong op).isNone = false) :
          (slotAt loc op 64).long = false := (slotAt_long_of_both hs he).trans hl
      have hnot : ¬ loc.long = true := by simp [hl]
      simp only [Bool.false_eq_true, if_false, List.forall_mem_cons]
      exact ⟨writesS_rr_short (x := .add) hl rfl rfl rfl, writesS_rr_short (x := .sub) hl rfl rfl rfl,
        writesS_rr_short (x := .and) hl rfl rfl rfl, writesS_rr_short (x := .or) hl rfl rfl rfl,
        writesS_rr_short (x := .xor) hl rfl rfl rfl,
        writesS_imm rfl (hform rfl rfl) (by rw [if_neg hnot, simm3_toNat]; rfl),
        writesS_imm rfl (hform rfl rfl) (by rw [if_neg hnot, ofNat_mod8]; rfl),
        writesS_shift rfl (hform rfl rfl) (by rw [if_neg hnot, toNat_and7]; rfl),
        writesS_shift rfl (hform rfl rfl) (by rw [if_neg hnot, toNat_and7]; rfl),
        List.forall_mem_nil _⟩

/-- Every compare and predicate operation writes its relation to pd; the short compares write p1. -/
theorem writesP_of_mem_predicateRows (s : State) (loc : At) (pd pa pb : Fin 8) (a b : Fin 32) (n : BitVec 6) :
    ∀ r ∈ predicateRows (s.hw.core loc.core) loc pd pa pb a b n, WritesP s loc r := by
  have hlong {op : CoreOp} (hs : encodeShort op = none) : (slotAt loc op 64).long = true := slotAt_long_of_noShort hs
  simp only [predicateRows, List.forall_mem_cons]
  exact ⟨writesP_of_plainFx (op := .cmp .ne pd a b) rfl rfl (hlong rfl) rfl,
    writesP_of_plainFx (op := .cmp .le pd a b) rfl rfl (hlong rfl) rfl,
    writesP_of_plainFx (op := .cmp .ltu pd a b) rfl rfl (hlong rfl) rfl,
    writesP_of_plainFx (op := .cmp .leu pd a b) rfl rfl (hlong rfl) rfl,
    writesP_of_plainFx (op := .cmpImm false pd a n) rfl rfl (hlong rfl) (by rw [Core.plainFx_cmpImm, ← cmpEval_eq_simm6]; rfl),
    writesP_of_plainFx (op := .cmpImm true pd a n) rfl rfl (hlong rfl) (by rw [Core.plainFx_cmpImm, ← cmpEval_lt_simm6]; rfl),
    writesP_of_plainFx (op := .pand pd pa pb) rfl rfl (hlong rfl) rfl,
    writesP_of_plainFx (op := .por pd pa pb) rfl rfl (hlong rfl) rfl,
    writesP_of_plainFx (op := .pnot pd pa) rfl rfl (hlong rfl) rfl,
    writesP_of_plainFx (op := .cmp .eq (shortP loc pd) a b) rfl rfl (slotAt_long_of_both rfl rfl) rfl,
    writesP_of_plainFx (op := .cmp .lt (shortP loc pd) a b) rfl rfl (slotAt_long_of_both rfl rfl) rfl,
    List.forall_mem_nil _⟩

/-- Settles O8: each row of the two tables is one operation on registers alone, which writes its one result and ends the bundle. -/
theorem scalarAndPredicateResults : Obligations.ScalarAndPredicateResults :=
  ⟨fun s loc d a b n u => writesS_of_mem_scalarRows s loc d a b n u,
    fun s loc pd pa pb a b n => writesP_of_mem_predicateRows s loc pd pa pb a b n⟩

end Sys2Proof.Machine
end
